-- ==== Sys2Proof/Word.lean ====
section
/-!
DEFINITION. The word types of the CX96 model: a byte of memory, a 64-bit register (R5) and a 32-bit half.
-/
namespace Sys2Proof

/-- One byte of memory or of a packet. -/
abbrev Byte := BitVec 8

/-- One register: every register is 64 bits wide (R5). -/
abbrev W64 := BitVec 64

/-- One 32-bit lane, tally count or FP32 code. -/
abbrev W32 := BitVec 32

end Sys2Proof
end

