-- ==== Sys2Proof/Syntax.lean ====
section
/-!
DEFINITION. The commands of the CX96 block: one constructor for each row of the opcode table, with the operands that the
outside supplies. Units are named by bounded numbers. What the spec leaves to physics or to another device (whether a
signature verifies, whether a packet's CRC-32C passes, what a sensor reads) is an operand too.
-/
namespace Sys2Proof

/-- Who makes a register access (R21): the host through BAR0, Osaux, JTAG while debug is enabled, or the fabric. -/
inductive Src where
  | host | osaux | jtag | fabric
  deriving DecidableEq, Repr

/-- What a message from Quilan asks of Osaux (Table 17-5, code 0x09). -/
inductive QuilanAct where
  /-- A V3 vote on a domain. -/
  | vote (dom : Fin 128) (v : Fin 4)
  /-- A PORT_CTRL write. -/
  | portCtrl (p : Fin 48) (v : W64)
  deriving DecidableEq, Repr

/-- What SECDED or parity said of a read (R135): nothing, a corrected word, or an uncorrectable one. [DESIGN CHOICE, log entry 6] -/
inductive Ecc where
  | clean | corrected | uncorrectable
  deriving DecidableEq, Repr

/-- What stands in a 64-bit word of memory since a bit of it changed (R135): one bit in error, which a read corrects; two bits or more, which
it detects; or three bits or more that it corrects wrongly, with the bits in which the word it delivers differs. In the CXL tier the first is a
flit that the link layer replays, the second a line that answers poisoned, and `late` an access that no completion answers (R144). -/
inductive Upset where
  | corrected
  | uncorrectable
  | wrong (x : W64)
  | late
  deriving DecidableEq, Repr

/-- The words that have changed since the last command, by device offset. -/
abbrev Upsets := List (Nat × Upset)

/-- What a table lookup of the switch core met (Table 8-9): nothing, a corrected or an uncorrectable entry, or a head with bad parity. [DESIGN CHOICE, log entry 6] -/
inductive Look where
  | clean | corrected | uncorrectable | parity
  deriving DecidableEq, Repr

/-- What a pan, the collective engine or a package link met (Tables 10-9 and 11-5): nothing, a residue mismatch, a corrected or an
uncorrectable word of pan state, an uncorrectable word of an input buffer, a corrected or an uncorrectable word of the group table or a
member list, or a package-link error. -/
inductive PanEv where
  | clean | residue | stateCe | stateUe | inputUe | groupCe | groupUe | linkCe | linkUe
  deriving DecidableEq, Repr

/-- The fields of a vector slot but for its opcode (Table 3-3). -/
structure VOp where
  fmt : Fin 3
  vd : Fin 32
  va : Fin 32
  vb : Fin 32
  vc : Fin 32
  imm : Fin 1024
  tally : Fin 256
  deriving DecidableEq, Repr

/-- A loose or tree packet: its head (Tables 8-3 and 10-6), its payload and the CRC-32C it carries (Wire.lean). [DESIGN CHOICE, log entry 65] -/
structure Pkt where
  kind : Nat
  service : Nat := 0
  flits : Nat := 1
  mark : Bool := false
  echo : Bool := false
  deflected : Bool := false
  seqValid : Bool := false
  priv : Bool := false
  retx : Bool := false
  dst : Nat := 0
  src : Nat := 0
  ctx : Nat := 0
  unit : Nat := 10
  gen : Nat := 0
  age : Nat := 0
  hops : Nat := 0
  dclass : Nat := 0
  tag : Nat := 0
  seq : Nat := 0
  length : Nat := 0
  address : Nat := 0
  status : Nat := 0
  /-- Table 10-6, for kinds 5 and 6. -/
  sub : Nat := 0
  group : Nat := 0
  gseq : Nat := 0
  srcMember : Nat := 0
  dstMember : Nat := 0
  part : Nat := 0
  stat : Nat := 0
  value : Nat := 0
  harvest : Nat := 0
  /-- The half and the traversal that a CONFIRM or an ACCEPT concerns, for which Table 11-3 gives no place. -/
  half : Nat := 0
  gath : Bool := false
  /-- The bytes that an A2A_DATA packet's source sends to this destination in all, for which Table 10-6 gives no place. -/
  total : Nat := 0
  data : List Byte := []
  crc : Nat := 0
  deriving DecidableEq, Repr

/-- A wire chunk: its head (Tables 10-5 and 11-2), its 4 KiB payload and the CRC-32C it carries. -/
structure Chunk where
  gather : Bool := false
  confirmed : Bool := false
  wide : Bool := false
  half : Nat := 0
  ring : Nat := 0
  vc : Nat := 0
  group : Nat := 0
  seq : Nat := 0
  ctx : Nat := 0
  op : Nat := 0
  operator : Nat := 0
  gen : Nat := 0
  origin : Nat := 0
  chunk : Nat := 0
  wbase : Int := 0
  fmt : Nat := 0
  harvest : Nat := 0
  slow : Nat := 0
  slowWait : Nat := 0
  aux : Nat := 0
  version : Nat := 0
  limb : Nat := 0
  lo : Nat := 0
  data : List Byte := []
  crc : Nat := 0
  deriving DecidableEq, Repr

/-- A HELLO control flit (Table 7-4): every bit of bytes 0x03 to 0x3B, the reserved bits of the flags and the reserved bytes included. -/
structure Hello where
  chipValid : Bool := false
  planValid : Bool := false
  variantH : Bool := false
  chip : Nat := 0
  port : Nat := 0
  rack : Nat := 0
  plan : W64 := 0
  fw : Nat := 0
  lowest : Nat := 0
  highest : Nat := 0
  part : Nat := 0x0096
  flags : Nat := 0
  rest : List Byte := List.replicate 30 0
  deriving DecidableEq, Repr

/-- A control flit (Table 7-3). -/
inductive Ctl where
  | idle
  | hello (h : Hello)
  | verdict (code : Nat)
  | eiReq
  | eiAck
  | eiNak
  | trim (lane tap : Nat) (up : Bool)
  | pinned (ring off : Nat)
  deriving DecidableEq, Repr

/-- A frame: its 1,285 bytes (Table 7-2) and, on reception, the symbols of each of its two codewords that arrived in error (R154). [DESIGN CHOICE, log entry 6] -/
structure Frame where
  bytes : List Byte
  errs : List (List Nat) := []
  deriving DecidableEq, Repr

/-- A loose request of a unit: kind 0 read, 1 write or 4 management, its context, its address, its length and its data. -/
structure LReq where
  kind : Nat
  ctx : Nat
  address : Nat
  length : Nat
  data : List Byte := []
  priv : Bool := false
  deriving DecidableEq, Repr

/-- What became of an access on a CXL link. -/
inductive CxlEnd where
  | done
  | poisoned
  deriving DecidableEq, Repr

/-- What a BAR2 access asks for: a read of some bytes, or a write. -/
inductive HostOp where
  | read (n : Nat)
  | write (data : List Byte)
  deriving DecidableEq, Repr

/-- The commands: one constructor for each row of the opcode table. [DESIGN CHOICE, log entry 6] -/
inductive Instr where
  /-- REG_WRITE (R7): A register write to a register that has no row of its own sets the value as its access code gives. -/
  | regWrite (src : Src) (off : Nat) (half : Bool) (v : W64)
  /-- RC_READ (R7): A read of an RC register returns its value and then clears it to zero, keeping a same-cycle increment. -/
  | rcRead (src : Src) (off : Nat) (half : Bool)
  /-- MISALIGNED_ACCESS (R6): A register access that is not a naturally aligned 32-bit or 64-bit access completes without effect. -/
  | misalignedAccess (src : Src) (off : Nat) (size : Nat)
  /-- FABRIC_REG_ACCESS (R20): A fabric access to the register block is performed only for a context that carries the privileged attribute. -/
  | fabricRegAccess (ctx : Fin 64) (off : Nat) (half : Bool) (w : Option W64)
  /-- BLK_FAULT_W1C (R334): A W1C write to BLK_FAULT clears bits and acknowledges faults, subject to the severity limits of R334. -/
  | blkFaultW1c (b : Fin 152) (v : W64)
  /-- BLK_SEV_ACK_WRITE (R24): A W1S write to BLK_SEV_ACK acknowledges outstanding faults and ends their escalation. -/
  | blkSevAckWrite (b : Fin 152) (v : W64)
  /-- BLK_INJECT (R344): A write to BLK_INJECT arms or performs fault injection on a detector of the block. -/
  | blkInject (b : Fin 152) (v : W64)
  /-- BLK_PROGRESS_WIN_WRITE (R27): A write to BLK_PROGRESS_WIN sets the hang window and restarts the window measurement. -/
  | blkProgressWinWrite (b : Fin 152) (v : W64)
  /-- DEV_MODE_WRITE (R28): A write to DEV_MODE takes effect only while the device is quiescent. -/
  | devModeWrite (v : W64)
  /-- LOAD_START (R36): A start request runs the stage 0 checks of a quiescent load and enters CHECKING, protecting the staged range. -/
  | loadStart (v : W64)
  /-- HARVEST_LOAD_START (R44): A start request with at_harvest checks the named context and harvest number and starts checking a harvest load. -/
  | harvestLoadStart (v : W64)
  /-- LOAD_CANCEL (R38): A cancel request ends a pending harvest load, or ends checking at the close of the current stage. -/
  | loadCancel (v : W64)
  /-- LOAD_UNLOAD (R399): An unload request removes the image in force while the device is quiescent, and is refused otherwise. -/
  | loadUnload (v : W64)
  /-- LOAD_STAGE_END (R40): A check stage of the loader completes; the loader passes to the next stage, refuses the image, or applies a cancel. -/
  | loadStageEnd
  /-- LOAD_HOLD_COMPLETE (R44): Once every open context is held, a pending harvest load enters COMMITTING. -/
  | loadHoldComplete
  /-- NO_HARVEST_CTX_HOLD (R44): A context that cannot harvest is held once its movers, expect entries, instances and retransmission records have drained. -/
  | noHarvestCtxHold (c : Fin 64)
  /-- LOAD_HOLD_TIMEOUT (R44): DEV_LOAD_HOLD_MAX passes after the first hold, and the load is refused with HOLD_TIMEOUT. -/
  | loadHoldTimeout
  /-- COMMIT_DOMAINS_ON (R316): The domains that the loader voted up for commit reach ON, and the copy of sections begins. -/
  | commitDomainsOn
  /-- COMMIT_COPY_DONE (R43): The commit copy completes; the new image comes into force, its V2 votes replace the old, and contexts are released. -/
  | commitCopyDone (bad : Option (Fin 256))
  /-- STRUCTURE_RESET (R399): In the first cycle with no image in force and every context FREE, tables, quotas and votes return to their pre-image form. -/
  | structureReset
  /-- BUNDLE_ISSUE (R48): In an ACLK cycle the spindle issues the next bundle, or issues nothing for a wait, a hold, a miss or a throttle. -/
  | bundleIssue (t : Fin 8) (j : Fin 64) (e y0 y1 : Ecc)
  /-- CACHE_FILL_DONE (R70): A program cache line fill completes, and the missed bundle issues. -/
  | cacheFillDone (t : Fin 8) (j : Fin 64) (ue : Bool) (y0 y1 : Ecc)
  /-- WLOAD (R87): The array slot instruction WLOAD queues a weight load into the next weight set. -/
  | wload (t : Fin 8) (a : Fin 4) (half : Fin 3) (desc : Fin 65536) (tally : Fin 256)
  /-- STREAM (R88): The array slot instruction STREAM queues the streaming of operand rows, accumulating into a bank. -/
  | stream (t : Fin 8) (a : Fin 4) (half : Fin 3) (desc : Fin 65536) (tally : Fin 256)
  /-- STREAM_CLR (R78): The array slot instruction STREAM_CLR clears the accumulator entries, then streams. -/
  | streamClr (t : Fin 8) (a : Fin 4) (half : Fin 3) (desc : Fin 65536) (tally : Fin 256)
  /-- DRAIN (R89): The array slot instruction DRAIN queues the write-out of accumulator rows. -/
  | drain (t : Fin 8) (a : Fin 4) (half : Fin 3) (desc : Fin 65536) (tally : Fin 256)
  /-- WLOAD_START (R87): A queued WLOAD starts in the first cycle its start conditions hold. -/
  | wloadStart (t : Fin 8) (a : Fin 4) (half : Fin 3) (ups : Upsets)
  /-- WLOAD_DONE (R87): A WLOAD completes and increments its tally. -/
  | wloadDone (t : Fin 8) (a : Fin 4) (half : Fin 3)
  /-- STREAM_START (R88): A STREAM's row window opens, and the gate of the stream engine opens 9 cycles ahead of it. -/
  | streamStart (t : Fin 8) (a : Fin 4) (half : Fin 3) (ups : Upsets)
  /-- STREAM_DONE (R88): A STREAM completes, counts its scale events, and increments its tally. -/
  | streamDone (t : Fin 8) (a : Fin 4) (half : Fin 3) (ce : Nat) (ue : Bool)
  /-- DRAIN_START (R89): A DRAIN starts once earlier streams into its bank have completed. -/
  | drainStart (t : Fin 8) (a : Fin 4) (half : Fin 3)
  /-- DRAIN_DONE (R89): A DRAIN completes its result writes and increments its tally. -/
  | drainDone (t : Fin 8) (a : Fin 4) (half : Fin 3) (ce : Nat) (ue : Bool)
  /-- ARRAY_SCOPE_STOP (R94): A stopping detector stops the array or half, failing every running and queued operation of that scope. -/
  | arrayScopeStop (t : Fin 8) (a : Fin 4) (half : Fin 3) (eng : Fin 3) (det : Fin 5) (k : Nat) (upTo : Nat)
  /-- SHAPE_CHANGE (R81): Once earlier operations complete, an array whose region names a new shape starts its 4-cycle reconfiguration. -/
  | shapeChange (t : Fin 8) (a : Fin 4)
  /-- SHAPE_RECONFIG_DONE (R81): The array finishes reconfiguring, with weights and accumulators cleared, and later operations may begin. -/
  | shapeReconfigDone (t : Fin 8) (a : Fin 4)
  /-- ARRAY_CLOCK_GATE (R92): FREE_SPIN_MAX cycles of a gap pass, and the array stops free-spin and gates its cell clocks. -/
  | arrayClockGate (t : Fin 8) (a : Fin 4) (half : Fin 3)
  /-- ARRAY_TEARDOWN_DONE (R96): The array reports its teardown complete after clearing its queues, weights and accumulators. -/
  | arrayTeardownDone (t : Fin 8) (a : Fin 4)
  /-- ARRAY_HARVEST_CLEAR (R97): After its issued operations complete at a harvest, the array starts clearing its weights and accumulators. -/
  | arrayHarvestClear (t : Fin 8) (a : Fin 4)
  /-- ARRAY_EMPTY (R97): The 64-cycle harvest clear ends, and the array reports empty to harvest control. -/
  | arrayEmpty (t : Fin 8) (a : Fin 4)
  /-- VU_MOV (R55): The vector instruction MOV copies va to vd. -/
  | vuMov (t : Fin 8) (o : VOp) (e : Ecc)
  /-- VU_CVT (R56): The vector instruction CVT converts va to the format fmt. -/
  | vuCvt (t : Fin 8) (o : VOp) (e : Ecc)
  /-- VU_ADD (R56): The vector instruction ADD adds va and vb. -/
  | vuAdd (t : Fin 8) (o : VOp) (e : Ecc)
  /-- VU_SUB (R56): The vector instruction SUB subtracts vb from va. -/
  | vuSub (t : Fin 8) (o : VOp) (e : Ecc)
  /-- VU_MUL (R56): The vector instruction MUL multiplies va by vb. -/
  | vuMul (t : Fin 8) (o : VOp) (e : Ecc)
  /-- VU_FMA (R56): The vector instruction FMA computes va × vb + vc with one rounding. -/
  | vuFma (t : Fin 8) (o : VOp) (e : Ecc)
  /-- VU_MAX (R56): The vector instruction MAX takes the lane maximum of va and vb. -/
  | vuMax (t : Fin 8) (o : VOp) (e : Ecc)
  /-- VU_MIN (R56): The vector instruction MIN takes the lane minimum of va and vb. -/
  | vuMin (t : Fin 8) (o : VOp) (e : Ecc)
  /-- VU_ABS (R56): The vector instruction ABS takes the absolute value of va. -/
  | vuAbs (t : Fin 8) (o : VOp) (e : Ecc)
  /-- VU_NEG (R56): The vector instruction NEG negates va. -/
  | vuNeg (t : Fin 8) (o : VOp) (e : Ecc)
  /-- VU_SEL (R56): The vector instruction SEL selects va or vb by vc. -/
  | vuSel (t : Fin 8) (o : VOp) (e : Ecc)
  /-- VU_CMPGT (R56): The vector instruction CMPGT writes 1.0 where va is greater than vb, and 0.0 elsewhere. -/
  | vuCmpgt (t : Fin 8) (o : VOp) (e : Ecc)
  /-- VU_EXP (R56): The vector instruction EXP computes e to the power va. -/
  | vuExp (t : Fin 8) (o : VOp) (e : Ecc)
  /-- VU_LOG (R56): The vector instruction LOG computes the natural logarithm of va. -/
  | vuLog (t : Fin 8) (o : VOp) (e : Ecc)
  /-- VU_RSQRT (R56): The vector instruction RSQRT computes 1/√va. -/
  | vuRsqrt (t : Fin 8) (o : VOp) (e : Ecc)
  /-- VU_RECIP (R56): The vector instruction RECIP computes 1/va. -/
  | vuRecip (t : Fin 8) (o : VOp) (e : Ecc)
  /-- VU_ROWSUM (R57): The vector instruction ROWSUM adds each row by a fixed pairwise tree. -/
  | vuRowsum (t : Fin 8) (o : VOp) (e : Ecc)
  /-- VU_ROWMAX (R57): The vector instruction ROWMAX takes the maximum of each row. -/
  | vuRowmax (t : Fin 8) (o : VOp) (e : Ecc)
  /-- VU_ROWMIN (R57): The vector instruction ROWMIN takes the minimum of each row. -/
  | vuRowmin (t : Fin 8) (o : VOp) (e : Ecc)
  /-- VU_SMAX_EXP (R57): The vector instruction SMAX_EXP computes exp(va − rowmax(va)). -/
  | vuSmaxExp (t : Fin 8) (o : VOp) (e : Ecc)
  /-- VU_LN_STATS (R57): The vector instruction LN_STATS computes the row mean and variance. -/
  | vuLnStats (t : Fin 8) (o : VOp) (e : Ecc)
  /-- VU_LN_APPLY (R57): The vector instruction LN_APPLY normalises va with the mean and variance held in vb. -/
  | vuLnApply (t : Fin 8) (o : VOp) (e : Ecc)
  /-- VU_TOPK (R58): The vector instruction TOPK writes the k largest values of each row and their indices. -/
  | vuTopk (t : Fin 8) (o : VOp) (e : Ecc)
  /-- VU_ENCODE (R120): The vector instruction ENCODE passes va through the format encoder under a profile. -/
  | vuEncode (t : Fin 8) (o : VOp) (e : Ecc)
  /-- VU_RESULT_WRITE (R55): A vector result is written to vd at issue plus latency, and its tally increments. -/
  | vuResultWrite (t : Fin 8) (k : Nat)
  /-- ENCODE_DONE (R121): An ENCODE completes, writes vd, and adds to the encoder counters. -/
  | encodeDone (t : Fin 8) (dataBad : Bool) (profileBad : Bool)
  /-- RUN (R59): The mover slot instruction RUN appends a descriptor to the queue of the named mover. -/
  | run (t : Fin 8) (m : Fin 8) (desc : Fin 32768) (tally : Fin 256)
  /-- MOVER_ROW_WRITTEN (R140): A mover row has been written, and with per_row_tally set the row increment is applied in order. -/
  | moverRowWritten (t : Fin 8) (m : Fin 8) (row : Nat) (ups : Upsets) (y : Ecc)
  /-- MOVER_DESC_DONE (R61): The last byte of a mover descriptor is written; its tally increments, and the next queued descriptor starts. -/
  | moverDescDone (t : Fin 8) (m : Fin 8)
  /-- MOVER_OP_FAIL (R61): A mover operation fails on an uncorrectable read, a denied access or a failed remote access, and stops at the failing row. -/
  | moverOpFail (t : Fin 8) (m : Fin 8) (status : Fin 4)
  /-- MOVER_PARITY (R345): A mover parity error fails every queued and running mover operation. -/
  | moverParity (t : Fin 8)
  /-- SEND (R62): The fabric slot instruction SEND contributes chunks to a collective. -/
  | send (t : Fin 8) (desc : Fin 65536) (tally : Fin 256)
  /-- EXPECT (R63): The fabric slot instruction EXPECT places an entry in the tile's expect table. -/
  | expect (t : Fin 8) (desc : Fin 65536) (tally : Fin 256)
  /-- JOIN (R62): The fabric slot instruction JOIN takes part in a collective without data. -/
  | join (t : Fin 8) (desc : Fin 65536) (tally : Fin 256)
  /-- EXPECT_CHUNK_WRITTEN (R63): The endpoint writes a confirmed result chunk to the matching expect entry's destination and increments its tally. -/
  | expectChunkWritten (t : Fin 8) (g : Fin 16384) (seq : BitVec 16)
  /-- WAIT (R64): The sync instruction WAIT holds the bundle until a tally reaches n. -/
  | wait (t : Fin 8) (k : Fin 248) (n : Fin 67108864)
  /-- TAKE (R64): The sync instruction TAKE waits until a tally reaches n, then subtracts n. -/
  | take (t : Fin 8) (k : Fin 248) (n : Fin 67108864)
  /-- SYNC_ADD (R64): The sync instruction ADD adds n to a tally at issue. -/
  | syncAdd (t : Fin 8) (k : Fin 248) (n : Fin 67108864)
  /-- LOOP (R69): The sync instruction LOOP pushes a count onto the loop stack. -/
  | loop (t : Fin 8) (n : Fin 16777216)
  /-- ENDLOOP (R69): The sync instruction ENDLOOP decrements the innermost count, then branches back or pops the loop. -/
  | endloop (t : Fin 8)
  /-- STEP_END (R68): The sync instruction STEP_END reports the tile's step end, and the spindle holds in HARVEST. -/
  | stepEnd (t : Fin 8)
  /-- HALT (R72): The sync instruction HALT ends the program, and the spindle enters HALTED. -/
  | halt (t : Fin 8)
  /-- WAIT_SATISFIED (R64): A held wait condition is seen satisfied, and its bundle issues. -/
  | waitSatisfied (t : Fin 8) (j : Fin 64) (y0 y1 : Ecc)
  /-- SEQ_PARITY (R72): A sequencer parity error sends the spindle to ERROR at S3. -/
  | seqParity (t : Fin 8)
  /-- SPINDLE_ERROR_TEARDOWN (R72): Osaux tears down the context of a spindle in ERROR with status PROGRAM_FAULT. -/
  | spindleErrorTeardown (t : Fin 8)
  /-- REMOTE_REQUEST_ARRIVAL (R128): A memory request arrives at the device that owns its offset and is checked against the map and the access rights. -/
  | remoteRequestArrival (k : Pkt) (ups : Upsets)
  /-- SCRUB_READ (R138): Each scrub interval, the patrol scrub reads one granule and writes back corrected words. -/
  | scrubRead (b : Fin 16) (ups : Upsets)
  /-- CA_PARITY (R146): An HBM command/address parity error fails the stack's outstanding requests, and the stack needs retraining. -/
  | caParity (n : Fin 8)
  /-- TEMP_HIGH (R146): A stack reports above 95 °C, and the controller doubles its refresh rate. -/
  | tempHigh (n : Fin 8) (temp : Byte)
  /-- CXL_HDM_WRITE (R143): A write to a CXL decoder takes effect only while quiescent and when it is a valid range. -/
  | cxlHdmWrite (c : Fin 2) (h : Fin 8) (v : W64)
  /-- CXL_ENUMERATE (R143): Osaux enumerates a CXL port and configures its Type 3 targets. -/
  | cxlEnumerate (c : Fin 2) (sizes : List (Fin 32769)) (unsupported : Bool)
  /-- CXL_COMPLETION (R144): A CXL.mem completion returns and completes its access. -/
  | cxlCompletion (c : Fin 2) (i : Nat) (r : CxlEnd) (retried : Bool)
  /-- CPL_TIMEOUT (R144): A CXL access with no completion within CXL_CPL_TIMEOUT fails with REMOTE_FAIL. -/
  | cplTimeout (c : Fin 2) (i : Nat)
  /-- CXL_LINK_DOWN (R144): A CXL link goes down, and every access to the port's half fails until recovery. -/
  | cxlLinkDown (c : Fin 2)
  /-- VIRAL (R144): A CXL port signals viral and is handled as a link down. -/
  | viral (c : Fin 2)
  /-- FRAME_RECEIVED (R156): A frame is decoded; its flits go to the core, or it is discarded, and its control flit is processed. -/
  | frameReceived (p : Fin 48) (f : Frame) (looks : List Look) (pl : Look) (ev : PanEv)
  /-- FRAME_SEND (R194): A port sends one frame, filling it with pinned flits under the slot wheel, scheduled flits and a control flit. -/
  | frameSend (p : Fin 48) (bups : List (Nat × Ecc))
  /-- PORT_TRAINING_DONE (R160): All four lanes reach fom_min with codeword lock, and the port leaves TRAINING for HELLO. -/
  | portTrainingDone (p : Fin 48) (f0 f1 f2 f3 : Byte)
  /-- TRAIN_TIMEOUT (R167): train_max passes in TRAINING, and the port goes to ABSENT or UNUSED, or restarts the attempt. -/
  | trainTimeout (p : Fin 48) (signal : Bool)
  /-- HELLO_TIMEOUT (R167): No valid hello arrives within hello_timeout, and the port goes to ABSENT or the retrain attempt fails. -/
  | helloTimeout (p : Fin 48)
  /-- LANE_ADAPT (R159): Adaptation moves each lane parameter by at most one step toward a higher FOM. -/
  | laneAdapt (p : Fin 48) (lane : Fin 4) (param : Fin 10) (up : Bool) (fom : Byte)
  /-- FOM_LOW (R160): A lane of an UP port stays below fom_warn for a whole millisecond, and FOM_LOW is reported. -/
  | fomLow (p : Fin 48) (lane : Fin 4) (fom : Byte)
  /-- EI_IDLE_TIMEOUT (R161): idle_time passes without traffic, and the port sends EI_REQ. -/
  | eiIdleTimeout (p : Fin 48)
  /-- EI_EXIT_DONE (R162): The exit from electrical idle completes, and the port is UP, or enters RETRAIN on a low FOM. -/
  | eiExitDone (p : Fin 48) (f0 f1 f2 f3 : Byte)
  /-- TRAINING_BURST_DETECT (R162): A port in UP_IDLE detects the neighbour's training burst and starts its own exit. -/
  | trainingBurstDetect (p : Fin 48)
  /-- LANE_SIGNAL_LOSS (R163): A lane loses signal, or 8 frames are lost, and the port enters RETRAIN. -/
  | laneSignalLoss (p : Fin 48) (lane : Fin 4)
  /-- ABSENT_BURST (R168): Every 10 ms a port in ABSENT or UNUSED sends a training burst. -/
  | absentBurst (p : Fin 48)
  /-- PORT_RETRAIN (R170): A PORT_CTRL retrain starts a retrain, restarts the attempt or the evaluation, or re-evaluates a held port. -/
  | portRetrain (p : Fin 48)
  /-- PORT_HOLD_DOWN (R167): A PORT_CTRL hold_down sends the port to HELD_DOWN with cause MANUAL. -/
  | portHoldDown (p : Fin 48)
  /-- PORT_RELEASE (R170): A PORT_CTRL release returns a manually held-down port to HELLO. -/
  | portRelease (p : Fin 48)
  /-- SERDES_PLL (R172): A group PLL loss sends the group's four ports to OFF and starts ladder step 1 on them. -/
  | serdesPll (g : Fin 12)
  /-- LOOSE_HEAD_ARRIVAL (R181): A loose head is delivered locally or placed in an output queue by the deflection order, or discarded. -/
  | looseHeadArrival (p : Option (Fin 48)) (busy : List (Fin 48)) (k : Pkt) (look : Look) (ups : Upsets)
  /-- HEAD_REEVALUATE (R176): A head waiting in the ingress stage for a queue write is evaluated again. -/
  | headReevaluate (i : Nat) (busy : List (Fin 48))
  /-- TREE_HEAD_ARRIVAL (R240): A tree packet is copied to the tree ports of its group, delivered locally, or discarded. -/
  | treeHeadArrival (p : Option (Fin 48)) (k : Pkt) (look : Look)
  /-- PINNED_CHUNK_ARRIVAL (R191): A pinned chunk is routed by its ring entry to an egress VC buffer or to a pan slot, or is discarded. -/
  | pinnedChunkArrival (p : Fin 48) (c : Chunk) (look : Look) (ev : PanEv)
  /-- EGRESS_SELECT (R206): When the framer can start a packet, the port's fair-queue scheduler selects one and sends it. -/
  | egressSelect (p : Fin 48) (bups : List (Nat × Ecc))
  /-- LOOSE_REQUEST_INJECT (R189): A loose request is injected once its class's token bucket holds enough bytes. -/
  | looseRequestInject (u : Fin 10) (r : Option LReq)
  /-- RTO_EXPIRY (R186): No completion arrives within rto; the request is retransmitted, or fails with REMOTE_FAIL. -/
  | rtoExpiry (u : Fin 10) (tag : Nat)
  /-- COMPLETION_ARRIVAL (R186): A completion returns to its source, ends the request record, and applies any echo mark. -/
  | completionArrival (k : Pkt)
  /-- RATE_INTERVAL (R189): At each interval boundary the rate of every quiet class rises by ai. -/
  | rateInterval
  /-- SWAP_NOW (R197): The RTE_CTRL operation swap_now swaps the destination-table banks while quiescent. -/
  | swapNow
  /-- SWAP_AT_HARVEST (R197): The RTE_CTRL operation swap_at_harvest requests a bank swap at a harvest hold. -/
  | swapAtHarvest
  /-- SWAP_CANCEL (R198): The RTE_CTRL operation cancel ends a pending swap with result CANCELLED. -/
  | swapCancel
  /-- ROUTE_SWAP (R197): Once every open context is held, the banks swap and the contexts are released. -/
  | routeSwap
  /-- SWAP_HOLD_TIMEOUT (R197): The hold limit passes for a swap at harvest, and the swap ends with HOLD_TIMEOUT. -/
  | swapHoldTimeout
  /-- SWC_CFG_WRITE (R200): A write to SWC_CFG is applied from the next head evaluation, or discarded when it is inconsistent. -/
  | swcCfgWrite (v : W64)
  /-- RTE_DEST_WRITE (R197): A write to a standby-bank entry is performed unless a swap is pending. -/
  | rteDestWrite (bank : Fin 2) (d : Fin 16384) (v : W64)
  /-- CORE_PARITY (R201): A core parity error discards every flit held in the core, and the block needs a reset. -/
  | coreParity
  /-- SCH_SHAPE_CTRL (R209): A shaper change is accepted for an adjustable node within its image limits, or refused. -/
  | schShapeCtrl (v : W64)
  /-- SHAPER_REFILL (R208): Each refill period, every shaped bucket gains tokens up to its burst. -/
  | shaperRefill
  /-- CTX_OPEN (R212): A CTX_CTRL open is checked under Table 9-5 and, if accepted, opens the context and starts its spindles. -/
  | ctxOpen (c : Fin 64) (setGen : Option (BitVec 16))
  /-- CTX_CLOSE (R212): A CTX_CTRL close marks the context CLOSING and starts teardown stage 1. -/
  | ctxClose (c : Fin 64)
  /-- TEARDOWN_STAGE_ADVANCE (R215): Once its waited-for blocks report done, a teardown stage completes and the next one begins. -/
  | teardownStageAdvance (c : Fin 64)
  /-- TEARDOWN_TIMEOUT (R213): CTX_TEARDOWN_MAX passes, and the context enters STUCK. -/
  | teardownTimeout (c : Fin 64)
  /-- BITMAP_PARITY (R221): A creel bitmap parity error makes every bobbin request fail until reset. -/
  | bitmapParity
  /-- SCH_STATE_PARITY (R222): A scheduler state parity error discards every queued loose and tree packet. -/
  | schStateParity
  /-- CHUNK_PULL (R232): Once a slot and a credit are available, the engine pulls a local chunk into a pan slot. -/
  | chunkPull (g : Fin 16384) (seq : BitVec 16) (order : List (Fin 8)) (ev : PanEv) (ups : Upsets)
  /-- CREDIT_ARRIVAL (R234): A CREDIT packet gives the sender credits for an instance toward its successor. -/
  | creditArrival (k : Pkt)
  /-- CREDIT_REPEAT (R234): Every credit_repeat, an incomplete instance with a free slot sends CREDIT again. -/
  | creditRepeat (g : Fin 16384) (seq : BitVec 16)
  /-- COLL_TIMEOUT (R237): A group's progress count does not change within progress_win, and its base instance fails with TIMEOUT. -/
  | collTimeout (g : Fin 16384)
  /-- ABORT_ARRIVAL (R238): An ABORT fails the instance with ABORTED and is forwarded round the ring. -/
  | abortArrival (k : Pkt)
  /-- TREE_DONE_ARRIVAL (R240): A TREE_DONE reaches the root, which completes when every expected member has answered. -/
  | treeDoneArrival (k : Pkt)
  /-- BROADCAST_RTO (R240): COL_RTO passes at a broadcast root; it resends, or fails with TIMEOUT. -/
  | broadcastRto (g : Fin 16384) (seq : BitVec 16)
  /-- A2A_DATA_ARRIVAL (R241): An all-to-all data packet is placed at its receive offset, and A2A_DONE is sent once the source's bytes are held. -/
  | a2aDataArrival (k : Pkt)
  /-- A2A_DONE_ARRIVAL (R241): A2A_DONE from a destination ends the source's resend timer for that destination. -/
  | a2aDoneArrival (k : Pkt)
  /-- COUNTS_ARRIVAL (R241): A COUNTS packet stores received counts, and the counts are checked once all N are held. -/
  | countsArrival (k : Pkt)
  /-- A2A_RTO (R241): COL_RTO passes without A2A_DONE; the source resends, or fails with TIMEOUT. -/
  | a2aRto (g : Fin 16384) (seq : BitVec 16) (member : Fin 16384)
  /-- INSTANCE_COMPLETE (R242): An instance completes or fails at a member, writing its completion record and tallies. -/
  | instanceComplete (g : Fin 16384) (seq : BitVec 16)
  /-- ENGINE_PARITY (R246): A collective engine parity error fails every instance it holds. -/
  | engineParity
  /-- CONFIRM_ARRIVAL (R263): A CONFIRM makes a checked slot CONFIRMED, or is held until its data arrives. -/
  | confirmArrival (k : Pkt)
  /-- RETRACT_ARRIVAL (R264): A RETRACT withdraws a provisional version, and the slot restores its local contribution. -/
  | retractArrival (k : Pkt)
  /-- RESEND_ARRIVAL (R266): A RESEND makes the slot send the named version again from its held output. -/
  | resendArrival (k : Pkt)
  /-- ACCEPT_ARRIVAL (R266): An ACCEPT lets the sender stop repeating, and release its output once both bits are set. -/
  | acceptArrival (k : Pkt)
  /-- RETRACT_RESTORE_DONE (R264): The 32-cycle restore after a retract ends, and the slot returns to EXPECTING. -/
  | retractRestoreDone (g : Fin 16384) (seq : BitVec 16) (chunk : Nat) (half : Fin 2)
  /-- CONFIRM_REPEAT (R266): Every confirm_repeat, a slot still holding output repeats its CONFIRM. -/
  | confirmRepeat (g : Fin 16384) (seq : BitVec 16) (chunk : Nat) (half : Fin 2)
  /-- ACCEPT_TIMEOUT (R266): accept_timeout passes without an ACCEPT, and the slot sends its whole output again. -/
  | acceptTimeout (g : Fin 16384) (seq : BitVec 16) (chunk : Nat) (half : Fin 2) (gather : Bool)
  /-- SLOT_PARITY (R272): A pan slot parity error fails every instance that holds quarters in the quadrant. -/
  | slotParity (q : Fin 4)
  /-- CRY_VECTOR (R285): The crystallizer processes one 48-element vector of a norm or update pass. -/
  | cryVector (t : Fin 8) (upd : Bool) (mism : Fin 3) (ups : Upsets)
  /-- CRY_NORM_PASS_DONE (R280): A norm pass ends, and the crystallizer starts the group's norm collective. -/
  | cryNormPassDone (t : Fin 8)
  /-- CRY_NORM_DECIDE (R282): The norm result lands, and the group is skipped or proceeds to its update pass. -/
  | cryNormDecide (t : Fin 8) (g : Fin 8192)
  /-- CRY_UPDATE_PASS_DONE (R283): An update pass ends, advances the step counter, and starts the multicast. -/
  | cryUpdatePassDone (t : Fin 8)
  /-- CRY_STEP_WRITE (R289): A write to CRY_STEP_g is performed only while the tile's context is FREE. -/
  | cryStepWrite (t : Fin 8) (g : Fin 8192) (v : W64)
  /-- CRY_TABLE_PARITY (R291): A crystallizer table parity error skips every group not yet completed. -/
  | cryTableParity (t : Fin 8)
  /-- HARVEST_DRAIN_END (R294): The drain conditions hold; step_failed is fixed, and the crystallizers start. -/
  | harvestDrainEnd (c : Fin 64)
  /-- HARVEST_CRYSTALLIZE_END (R293): Every assigned crystallizer reports done, and the harvest enters SETTLE. -/
  | harvestCrystallizeEnd (c : Fin 64)
  /-- HARVEST_SETTLE_END (R293): The crystallizer group instances have ended, and the harvest runs CLEAR. -/
  | harvestSettleEnd (c : Fin 64)
  /-- HARVEST_HOLD_END (R301): Every item of tagged work has finished or been refused, and the context is released. -/
  | harvestHoldEnd (c : Fin 64)
  /-- HARVEST_TIMEOUT (R293): HRV_TIMEOUT cycles pass since the harvest timer started, and an S2 fault is reported. -/
  | harvestTimeout (c : Fin 64)
  /-- PWR_VOTE_CTRL (R313): A vote write sets a slot of one domain or of all, changing its resolved state. -/
  | pwrVoteCtrl (src : Src) (v : W64)
  /-- DOMAIN_ABORT_RETURN (R317): At c + 16 an aborted entry returns the domain to the state it left. -/
  | domainAbortReturn (d : Fin 84)
  /-- DOMAIN_ENTRY_COMPLETE (R317): An entry reaches RET or OFF. -/
  | domainEntryComplete (d : Fin 84)
  /-- DOMAIN_RAMP_START (R318): Once the stagger conditions hold, a domain starts its ramp toward its resolved state. -/
  | domainRampStart (d : Fin 84)
  /-- DOMAIN_ON (R318): Rails are good and settled; the domain is ON or RET, and its blocks come out of reset. -/
  | domainOn (d : Fin 84) (ok : Bool)
  /-- RAMP_FAIL (R318): Rails are not good within twice the exit time, and the domain returns to OFF. -/
  | rampFail (d : Fin 84)
  /-- CONVERTER_FAULT (R325): A converter fault takes the domain to OFF at once. -/
  | converterFault (d : Fin 84)
  /-- WAKE_PIN (R319): WAKE_N held low writes V0 ON on the masked domains every cycle. -/
  | wakePin (low : Bool)
  /-- PWR_WAKE_SW_WRITE (R319): A write of PWR_WAKE_SW sets or clears level wake source 1. -/
  | pwrWakeSwWrite (v : W64)
  /-- I3C_IBI (R377): An I3C in-band interrupt from the BMC is an edge wake, and Osaux answers its request. -/
  | i3cIbi (regs : List Nat)
  /-- POWER_CAP_INTERVAL (R322): Each cap interval, the controller measures input power and adjusts the throttle duty. -/
  | powerCapInterval (watts : Fin 65536) (volts : Fin 65536) (amps : Fin 65536)
  /-- TEMP_WARN (R323): A junction reaches 100 °C, THERM_ALERT_N asserts, and temp_warn is set. -/
  | tempWarn (sensor : Byte) (temp : Byte)
  /-- TEMP_CLEAR (R323): The temperature falls below 95 °C, and temp_warn and THERM_ALERT_N clear. -/
  | tempClear (sensor : Byte) (temp : Byte)
  /-- TEMP_CRIT (R323): A junction reaches 105 °C, and the device goes down. -/
  | tempCrit (sensor : Byte) (temp : Byte)
  /-- IN_UNDERVOLT (R307): VIN48 stays below 38 V for 10 µs, and the device goes down. -/
  | inUndervolt
  /-- IN_OVERVOLT (R307): VIN48 stays above 62 V for 10 µs, and the device goes down. -/
  | inOvervolt
  /-- REFCLK_LOSS (R326): Loss of REFCLK takes the device down. -/
  | refclkLoss
  /-- ROOT_UNLOCK (R326): Loss of lock in the root PLL takes the device down. -/
  | rootUnlock
  /-- HCLK_UNLOCK (R326): Loss of lock in the HCLK PLL fails outstanding HBM requests, and the stacks need retraining. -/
  | hclkUnlock
  /-- CXL_PLL_UNLOCK (R326): Loss of lock in a CXL PLL takes that port's link down. -/
  | cxlPllUnlock (c : Fin 2)
  /-- PCIE_PLL_UNLOCK (R326): Loss of lock in the PCIe PLL takes the host link down. -/
  | pciePllUnlock
  /-- PWR_EN_RISE (R390): PWR_EN rises; the input stage powers PD_MGMT, and PWR_GOOD is released. -/
  | pwrEnRise
  /-- PWR_EN_FALL (R390): PWR_EN falls; PWR_GOOD drops, and every domain goes OFF within 1 ms. -/
  | pwrEnFall
  /-- MGMT_RAIL_FAIL (R390): The PD_MGMT rails fail while PWR_EN is high, and the module behaves as if PWR_EN fell. -/
  | mgmtRailFail
  /-- SYS_RESET_ASSERT (R391): A filtered SYS_RESET_N low resets the whole module and the recorder. -/
  | sysResetAssert
  /-- SYS_RESET_DEASSERT (R366): SYS_RESET_N deasserts; RACK_POS is sampled, the root PLL locks, and the ROM starts. -/
  | sysResetDeassert (rack : Fin 64) (fuseOk : Bool)
  /-- PERST_ASSERT (R392): PERST_N resets only the PCIe layers of the host port. -/
  | perstAssert
  /-- HANG (R335): A block's window count reaches BLK_PROGRESS_WIN with work outstanding; hung is set and ladder step 1 starts. -/
  | hang (b : Fin 152)
  /-- DEV_HEARTBEAT (R335): A write to DEV_HEARTBEAT advances block 0's progress counter. -/
  | devHeartbeat
  /-- ENGINE_RESET_DONE (R336): An engine reset ends with a passing self-check, and the ladder step succeeds. -/
  | engineResetDone (b : Fin 152) (ok : Bool)
  /-- RESET_WINDOW_EXPIRY (R336): RESET_WINDOW passes without success, and ladder step 2 starts. -/
  | resetWindowExpiry (b : Fin 152)
  /-- ENGINE_RESET_REQ (R339): The DEV_RESET_CTRL operation engine reset runs step 1 on a block that is at S3, hung, or quiescent. -/
  | engineResetReq (b : Fin 256)
  /-- DOMAIN_CYCLE_REQ (R339): The DEV_RESET_CTRL operation domain power cycle runs step 2 on a block's domain. -/
  | domainCycleReq (b : Fin 256)
  /-- DEVICE_RESET_REQ (R339): The DEV_RESET_CTRL operation device reset starts an S4 device reset with the software cause. -/
  | deviceResetReq
  /-- DEVICE_RESET_HOLD_END (R340): The S4 hold phase ends by timer or by request. -/
  | deviceResetHoldEnd
  /-- DEVICE_RESET_POWER_CYCLE (R340): Once the S4 cause has cleared, every domain except PD_MGMT is cycled and the recorder epoch advances. -/
  | deviceResetPowerCycle (causeClear : Bool)
  /-- DEVICE_RESET_RETRAIN_DONE (R340): HBM training, CXL enumeration and port training end, and the check phase begins. -/
  | deviceResetRetrainDone
  /-- DEVICE_READY (R340): The self-checks pass, the plan is reinstalled, DEVICE_READY is sent, and device_down clears. -/
  | deviceReady
  /-- DEV_INJECT_ARM_WRITE (R344): A write to DEV_INJECT_ARM arms one S4 injection while quiescent. -/
  | devInjectArmWrite (v : W64)
  /-- ARR_BIST (R346): Test 0x01 runs a logic and cell test of an array. -/
  | arrBist (inst : Fin 256) (atHarvest : Bool) (ctx : Fin 64)
  /-- CRY_KAT (R346): Test 0x02 runs a known-answer update in a crystallizer. -/
  | cryKat (inst : Fin 256) (atHarvest : Bool) (ctx : Fin 64)
  /-- PAN_BIST (R346): Test 0x03 tests the adders, residue checks and state of a pan quadrant. -/
  | panBist (inst : Fin 256) (atHarvest : Bool) (ctx : Fin 64)
  /-- HBM_RECAL (R346): Test 0x04 recalibrates the PHY of an HBM stack. -/
  | hbmRecal (inst : Fin 256) (atHarvest : Bool) (ctx : Fin 64)
  /-- VU_BIST (R346): Test 0x05 tests a vector unit. -/
  | vuBist (inst : Fin 256) (atHarvest : Bool) (ctx : Fin 64)
  /-- TILE_MBIST (R346): Test 0x06 runs a march test of a tile store while quiescent. -/
  | tileMbist (inst : Fin 256) (atHarvest : Bool) (ctx : Fin 64)
  /-- CREEL_BIST (R346): Test 0x07 tests the creel while quiescent. -/
  | creelBist (inst : Fin 256) (atHarvest : Bool) (ctx : Fin 64)
  /-- SERDES_RECAL (R346): Test 0x08 recalibrates the receivers of a port group. -/
  | serdesRecal (inst : Fin 256) (atHarvest : Bool) (ctx : Fin 64)
  /-- SELFTEST_DONE (R347): A test ends, and DEV_TEST_STATUS holds its result. -/
  | selftestDone (pass : Bool) (elem : Byte)
  /-- REC_LOG_WRITE (R353): A queued event is placed in the log with a sequence number, overwriting or being dropped as needed. -/
  | recLogWrite
  /-- REC_CURSOR_WRITE (R354): A REC_CURSOR write latches eight log slots into REC_WINDOW. -/
  | recCursorWrite (v : W64) (ce : Option (Fin 8)) (ue : Option (Fin 8))
  /-- BAR2_ACCESS (R363): A BAR2 TLP is performed locally or leaves as a loose request under HST_WIN_BASE. -/
  | bar2Access (off : Nat) (op : HostOp) (ups : Upsets)
  /-- PCIE_LINK_DOWN (R345): The host link goes down, and BAR0 and BAR2 are unreachable until it retrains. -/
  | pcieLinkDown
  /-- PKG_LINK_DOWN (R345): A package link goes down, and every transfer over it fails. -/
  | pkgLinkDown (t : Fin 8)
  /-- KEY_PARITY (R345): A security key parity error fails signing and verification until reset. -/
  | keyParity
  /-- PLAN_INSTALL (R374): Mailbox command 0x01 verifies a fabric plan and installs it. -/
  | planInstall
  /-- OWNER_ENROL (R372): Mailbox command 0x02 enrols an owner key. -/
  | ownerEnrol
  /-- OWNER_REMOVE (R372): Mailbox command 0x03 removes an owner key. -/
  | ownerRemove
  /-- ATTEST (R376): Mailbox command 0x04 returns a signed attestation report. -/
  | attest
  /-- GET_CERT (R370): Mailbox command 0x05 returns the identity certificate chain. -/
  | getCert
  /-- FW_FLASH (R368): Mailbox command 0x06 verifies a firmware image and writes it to SPI flash. -/
  | fwFlash
  /-- SVN_ADVANCE (R367): Mailbox command 0x07 burns a new fused security-version minimum. -/
  | svnAdvance
  /-- LANE_TABLE (R158): Mailbox command 0x08 checks a board lane table, which applies from each group's next power-up. -/
  | laneTable
  /-- QUILAN_MSG (R370): Mailbox command 0x09 passes a Quilan message to Osaux, which acts on it. -/
  | quilanMsg (m : QuilanAct)
  /-- DEBUG_ENABLE (R375): Mailbox command 0x0A enables debug under a signed token. -/
  | debugEnable (nonce : BitVec 32)
  /-- DEBUG_DISABLE (R375): Mailbox command 0x0B disables debug and clears the V5 votes. -/
  | debugDisable
  /-- UNKNOWN_COMMAND (R370): A doorbell with an unknown command code returns UNKNOWN_COMMAND. -/
  | unknownCommand
  /-- MB_OUT_ACK (R370): The host acknowledges an outbound message, and the next queued message is placed. -/
  | mbOutAck
  /-- BOOT_GO (R366): HST_BOOT_CTRL.go makes the ROM verify the host-staged image and start it, or reject it. -/
  | bootGo
  /-- BOOT_REBOOT (R379): HST_BOOT_CTRL.reboot, while quiescent, unloads the image, discards the plan, and reruns the ROM. -/
  | bootReboot
  /-- ROM_FLASH_READ_DONE (R366): The ROM finishes reading the firmware from SPI flash and verifies it. -/
  | romFlashReadDone
  /-- DEBUG_EXPIRY (R375): The debug duration passes, debug ends, and the V5 votes are cleared. -/
  | debugExpiry
  /-- I3C_TELEMETRY (R378): Each telemetry period, Osaux writes the PMBus telemetry to the BMC. -/
  | i3cTelemetry (acked : Bool)
  /-- PCIE_LINK_UP (R392): After PERST_N deasserts, or after a loss, the host link completes training and BAR0 and BAR2 TLPs are received again. -/
  | pcieLinkUp (width : Fin 8) (rate : Fin 16)
  /-- CXL_LINK_UP (R143): A CXL link finishes training and comes up, to be used only once Osaux enumerates the port while quiescent. -/
  | cxlLinkUp (c : Fin 2) (width : Fin 64) (rate : Fin 4)
  /-- HBM_TRAINING_DONE (R146): Training of an HBM3E stack whose domain came ON from OFF completes, and HBM_CFG.trained is set. -/
  | hbmTrainingDone (n : Fin 8)
  /-- HBM_TEMP_NORMAL (R146): A stack that reported above 95 °C reports 95 °C or below again, and the controller returns to its normal refresh rate. -/
  | hbmTempNormal (n : Fin 8) (temp : Byte)
  deriving DecidableEq, Repr

end Sys2Proof
end

