-- ==== Sys2Proof/WellFormed.lean ====
section
/-!
DEFINITION. The commands whose operands lie in the ranges that the spec gives them: packet, chunk and frame fields in their widths (Tables
7-2, 8-3, 10-5, 10-6), register offsets in BAR0 (R16), and lengths. A command outside them is one that nothing can send.
-/
namespace Sys2Proof

/-- The size of BAR0 (R16). -/
def bar0Size : Nat := 0x4000000

/-- A loose or tree packet whose fields fit the head (Tables 8-3 and 10-6). -/
def Pkt.wf (k : Pkt) : Bool :=
  decide (k.kind ≤ 6) && decide (k.service < 8) && decide (1 ≤ k.flits ∧ k.flits ≤ 5) && decide (k.dst < 16384) &&
  decide (k.src < 16384) && decide (k.ctx < 64) && decide (k.unit ≤ 10) && decide (k.gen < 65536) && decide (k.age < 65536) &&
  decide (k.hops ≤ 64) && decide (k.dclass < 256) && decide (k.tag < 65536) && decide (k.seq < 65536) && decide (k.length ≤ 256) &&
  decide (k.address < 2 ^ 64) && decide (k.status < 256) && decide (k.sub ≤ 9) && decide (k.group < 16384) && decide (k.gseq < 65536) &&
  decide (k.srcMember < 65536) && decide (k.dstMember < 65536) && decide (k.part < 256) && decide (k.stat < 256) &&
  decide (k.value < 2 ^ 32) && decide (k.harvest < 2 ^ 32) && decide (k.half ≤ 1) && decide (k.total < 2 ^ 32) &&
  decide (k.data.length ≤ 256)

/-- A wire chunk whose fields fit the head (Tables 10-5 and 11-2). -/
def Chunk.wf (c : Chunk) : Bool :=
  decide (c.half ≤ 1) && decide (c.ring < 4096) && decide (c.vc ≤ 1) && decide (c.group < 16384) && decide (c.seq < 65536) &&
  decide (c.ctx < 64) && decide (c.gen < 65536) && decide (c.harvest < 2 ^ 32) && decide (c.data.length = 4096)

/-- A frame: 1,285 bytes, and errors among the 544 symbols of its two codewords (R154, R155). -/
def Frame.wf (f : Frame) : Bool :=
  decide (f.bytes.length = 1285) && decide (f.errs.length ≤ 2) && f.errs.all fun l => l.all fun i => decide (i < 544)

/-- A naturally aligned 32-bit or 64-bit access in BAR0 (R6). -/
def accessWf (off : Nat) (half : Bool) : Bool := decide (off < bar0Size) && (if half then off % 4 == 0 else off % 8 == 0)

/-- A loose request (Table 8-3). -/
def LReq.wf (r : LReq) : Bool :=
  (r.kind == 0 || r.kind == 1 || r.kind == 4) && decide (r.ctx < 64) && decide (r.length ≤ 256) && decide (r.address < 2 ^ 64) &&
  (r.kind == 0 || r.data.length == r.length)

/-- A BAR2 access: from 1 B to the largest read request, inside the window (Table 17-1). -/
def barWf (off : Nat) (op : HostOp) : Bool :=
  let n := match op with | .read n => n | .write bs => bs.length
  decide (1 ≤ n ∧ n ≤ 4096) && decide (off + n ≤ 2 ^ 32)

/-- A command whose operands lie in their ranges. [DESIGN CHOICE, log entry 90] -/
def Instr.wf : Instr → Bool
  | .regWrite _ off half _ => accessWf off half
  | .rcRead _ off half => accessWf off half
  | .misalignedAccess _ off size => decide (off < bar0Size) && !((size == 4 && off % 4 == 0) || (size == 8 && off % 8 == 0))
  | .fabricRegAccess _ off _ _ => decide (off < bar0Size)
  | .blkFaultW1c .. => true
  | .blkSevAckWrite .. => true
  | .blkInject .. => true
  | .blkProgressWinWrite .. => true
  | .devModeWrite .. => true
  | .loadStart .. => true
  | .harvestLoadStart .. => true
  | .loadCancel .. => true
  | .loadUnload .. => true
  | .loadStageEnd => true
  | .loadHoldComplete .. => true
  | .noHarvestCtxHold .. => true
  | .loadHoldTimeout .. => true
  | .commitDomainsOn .. => true
  | .commitCopyDone .. => true
  | .structureReset .. => true
  | .bundleIssue .. => true
  | .cacheFillDone .. => true
  | .wload .. => true
  | .stream .. => true
  | .streamClr .. => true
  | .drain .. => true
  | .wloadStart .. => true
  | .wloadDone .. => true
  | .streamStart .. => true
  | .streamDone .. => true
  | .drainStart .. => true
  | .drainDone .. => true
  | .arrayScopeStop .. => true
  | .shapeChange .. => true
  | .shapeReconfigDone .. => true
  | .arrayClockGate .. => true
  | .arrayTeardownDone .. => true
  | .arrayHarvestClear .. => true
  | .arrayEmpty .. => true
  | .vuMov .. => true
  | .vuCvt .. => true
  | .vuAdd .. => true
  | .vuSub .. => true
  | .vuMul .. => true
  | .vuFma .. => true
  | .vuMax .. => true
  | .vuMin .. => true
  | .vuAbs .. => true
  | .vuNeg .. => true
  | .vuSel .. => true
  | .vuCmpgt .. => true
  | .vuExp .. => true
  | .vuLog .. => true
  | .vuRsqrt .. => true
  | .vuRecip .. => true
  | .vuRowsum .. => true
  | .vuRowmax .. => true
  | .vuRowmin .. => true
  | .vuSmaxExp .. => true
  | .vuLnStats .. => true
  | .vuLnApply .. => true
  | .vuTopk .. => true
  | .vuEncode .. => true
  | .vuResultWrite .. => true
  | .encodeDone .. => true
  | .run .. => true
  | .moverRowWritten .. => true
  | .moverDescDone .. => true
  | .moverOpFail .. => true
  | .moverParity .. => true
  | .send .. => true
  | .expect .. => true
  | .join .. => true
  | .expectChunkWritten .. => true
  | .wait .. => true
  | .take .. => true
  | .syncAdd .. => true
  | .loop .. => true
  | .endloop .. => true
  | .stepEnd .. => true
  | .halt .. => true
  | .waitSatisfied .. => true
  | .seqParity .. => true
  | .spindleErrorTeardown .. => true
  | .remoteRequestArrival k _ => k.wf && decide (k.kind ≤ 1)
  | .scrubRead .. => true
  | .caParity .. => true
  | .tempHigh .. => true
  | .cxlHdmWrite .. => true
  | .cxlEnumerate .. => true
  | .cxlCompletion .. => true
  | .cplTimeout .. => true
  | .cxlLinkDown .. => true
  | .viral .. => true
  | .frameReceived _ f _ _ _ => f.wf
  | .frameSend .. => true
  | .portTrainingDone .. => true
  | .trainTimeout .. => true
  | .helloTimeout .. => true
  | .laneAdapt .. => true
  | .fomLow .. => true
  | .eiIdleTimeout .. => true
  | .eiExitDone .. => true
  | .trainingBurstDetect .. => true
  | .laneSignalLoss .. => true
  | .absentBurst .. => true
  | .portRetrain .. => true
  | .portHoldDown .. => true
  | .portRelease .. => true
  | .serdesPll .. => true
  | .looseHeadArrival _ _ k _ _ => k.wf && k.kind != 5
  | .headReevaluate .. => true
  | .treeHeadArrival _ k _ => k.wf && k.kind == 5
  | .pinnedChunkArrival _ c _ _ => c.wf
  | .egressSelect .. => true
  | .looseRequestInject _ (some r) => r.wf
  | .looseRequestInject _ none => true
  | .rtoExpiry .. => true
  | .completionArrival k => k.wf && (k.kind == 2 || k.kind == 3)
  | .rateInterval .. => true
  | .swapNow .. => true
  | .swapAtHarvest .. => true
  | .swapCancel .. => true
  | .routeSwap .. => true
  | .swapHoldTimeout .. => true
  | .swcCfgWrite .. => true
  | .rteDestWrite .. => true
  | .coreParity .. => true
  | .schShapeCtrl .. => true
  | .shaperRefill .. => true
  | .ctxOpen .. => true
  | .ctxClose .. => true
  | .teardownStageAdvance .. => true
  | .teardownTimeout .. => true
  | .bitmapParity .. => true
  | .schStateParity .. => true
  | .chunkPull .. => true
  | .creditArrival k => k.wf && k.kind == 6
  | .creditRepeat .. => true
  | .collTimeout .. => true
  | .abortArrival k => k.wf && k.kind == 6
  | .treeDoneArrival k => k.wf && k.kind == 6
  | .broadcastRto .. => true
  | .a2aDataArrival k => k.wf && k.kind == 6
  | .a2aDoneArrival k => k.wf && k.kind == 6
  | .countsArrival k => k.wf && k.kind == 6
  | .a2aRto .. => true
  | .instanceComplete .. => true
  | .engineParity .. => true
  | .confirmArrival k => k.wf && k.kind == 6
  | .retractArrival k => k.wf && k.kind == 6
  | .resendArrival k => k.wf && k.kind == 6
  | .acceptArrival k => k.wf && k.kind == 6
  | .retractRestoreDone .. => true
  | .confirmRepeat .. => true
  | .acceptTimeout .. => true
  | .slotParity .. => true
  | .cryVector .. => true
  | .cryNormPassDone .. => true
  | .cryNormDecide .. => true
  | .cryUpdatePassDone .. => true
  | .cryStepWrite .. => true
  | .cryTableParity .. => true
  | .harvestDrainEnd .. => true
  | .harvestCrystallizeEnd .. => true
  | .harvestSettleEnd .. => true
  | .harvestHoldEnd .. => true
  | .harvestTimeout .. => true
  | .pwrVoteCtrl .. => true
  | .domainAbortReturn .. => true
  | .domainEntryComplete .. => true
  | .domainRampStart .. => true
  | .domainOn .. => true
  | .rampFail .. => true
  | .converterFault .. => true
  | .wakePin .. => true
  | .pwrWakeSwWrite .. => true
  | .i3cIbi regs => regs.all fun r => accessWf r false
  | .powerCapInterval .. => true
  | .tempWarn .. => true
  | .tempClear .. => true
  | .tempCrit .. => true
  | .inUndervolt .. => true
  | .inOvervolt .. => true
  | .refclkLoss .. => true
  | .rootUnlock .. => true
  | .hclkUnlock .. => true
  | .cxlPllUnlock .. => true
  | .pciePllUnlock .. => true
  | .pwrEnRise .. => true
  | .pwrEnFall .. => true
  | .mgmtRailFail .. => true
  | .sysResetAssert .. => true
  | .sysResetDeassert .. => true
  | .perstAssert .. => true
  | .hang .. => true
  | .devHeartbeat .. => true
  | .engineResetDone .. => true
  | .resetWindowExpiry .. => true
  | .engineResetReq .. => true
  | .domainCycleReq .. => true
  | .deviceResetReq .. => true
  | .deviceResetHoldEnd .. => true
  | .deviceResetPowerCycle .. => true
  | .deviceResetRetrainDone .. => true
  | .deviceReady .. => true
  | .devInjectArmWrite .. => true
  | .arrBist .. => true
  | .cryKat .. => true
  | .panBist .. => true
  | .hbmRecal .. => true
  | .vuBist .. => true
  | .tileMbist .. => true
  | .creelBist .. => true
  | .serdesRecal .. => true
  | .selftestDone .. => true
  | .recLogWrite .. => true
  | .recCursorWrite .. => true
  | .bar2Access off op _ => barWf off op
  | .pcieLinkDown .. => true
  | .pkgLinkDown .. => true
  | .keyParity .. => true
  | .planInstall => true
  | .ownerEnrol => true
  | .ownerRemove => true
  | .attest .. => true
  | .getCert .. => true
  | .fwFlash => true
  | .svnAdvance .. => true
  | .laneTable .. => true
  | .quilanMsg .. => true
  | .debugEnable .. => true
  | .debugDisable .. => true
  | .unknownCommand .. => true
  | .mbOutAck .. => true
  | .bootGo => true
  | .bootReboot .. => true
  | .romFlashReadDone => true
  | .debugExpiry .. => true
  | .i3cTelemetry .. => true
  | .pcieLinkUp .. => true
  | .cxlLinkUp .. => true
  | .hbmTrainingDone .. => true
  | .hbmTempNormal .. => true

end Sys2Proof
end

