-- ==== Sys2Proof/Decode.lean ====
section
/-!
DEFINITION. The words that spell a command. No row of the opcode table gives bits: the CX96 takes its commands as register accesses, packets,
frames and events, and no word spells one.
-/
namespace Sys2Proof

/-- The command that a word spells by the table's bits: none, for no row gives bits. [DESIGN CHOICE, log entry 5] -/
def decodeTableWord (_nbits _w : Nat) : Option Instr := none

end Sys2Proof
end

