-- ==== Sys2Proof/Machine/Bits.lean ====
section
/-!
DEFINITION. Bit fields [hi:lo] (R4), little-endian byte strings (R5), saturating and wrapping counters (R10), and the
CRC-32C (Castagnoli) that sections, lane tables and packets carry.
-/
/-- The field of width `w` at bit `lo` of a register (R4). -/
def BitVec.fld {n : Nat} (v : BitVec n) (lo w : Nat) : Nat := v.toNat / 2 ^ lo % 2 ^ w

/-- Bit `i` of a register (R4). -/
def BitVec.bit {n : Nat} (v : BitVec n) (i : Nat) : Bool := v.getLsbD i

namespace Sys2Proof.Machine

/-- The field of width `w` at bit `lo` of a number. -/
def fld (v lo w : Nat) : Nat := v / 2 ^ lo % 2 ^ w

/-- Bit `i` of a number. -/
def bitOf (v i : Nat) : Bool := v / 2 ^ i % 2 == 1

/-- A number placed at bit `lo` of a register. -/
def put (lo v : Nat) : W64 := BitVec.ofNat 64 (v * 2 ^ lo)

/-- One bit placed in a register. -/
def putBit (i : Nat) (b : Bool) : W64 := if b then put i 1 else 0

/-- Bit 0 to `n - 1` set. -/
def maskLow (n : Nat) : W64 := BitVec.ofNat 64 (2 ^ n - 1)

/-- One bit set. -/
def bitMask (i : Nat) : W64 := BitVec.ofNat 64 (2 ^ i)

/-- The little-endian number of a byte string (R5). -/
def leNat : List Byte → Nat
  | [] => 0
  | b :: bs => b.toNat + 256 * leNat bs

/-- The big-endian number of a byte string. -/
def beNat (bs : List Byte) : Nat := leNat bs.reverse

/-- `n` bytes of a number, least significant first (R5). -/
def leBytes : Nat → Nat → List Byte
  | 0, _ => []
  | n + 1, v => BitVec.ofNat 8 v :: leBytes n (v / 256)

/-- The `n` bytes at `off` of a byte string, as a number; bytes past the end count as 0. -/
def u (bs : List Byte) (off n : Nat) : Nat := leNat ((bs.drop off).take n)

/-- The `n` bytes at `off`. -/
def slice (bs : List Byte) (off n : Nat) : List Byte := (bs.drop off).take n

/-- A number of `w` bits read as two's complement. -/
def signed (w v : Nat) : Int := if v % 2 ^ w < 2 ^ (w - 1) then (v % 2 ^ w : Nat) else (v % 2 ^ w : Nat) - (2 ^ w : Nat)

/-- A saturating counter of width `w` (R10). -/
def satAdd (w v n : Nat) : Nat := min (v + n) (2 ^ w - 1)

/-- A wrapping counter of width `w` (R10). -/
def wrapAdd (w v n : Nat) : Nat := (v + n) % 2 ^ w

/-- Rounded-up quotient. -/
def ceilDiv (a b : Nat) : Nat := (a + b - 1) / b

/-- `a` rounded up to a multiple of `b`. -/
def roundUp (a b : Nat) : Nat := ceilDiv a b * b

/-- Are all bytes zero? -/
def allZero (bs : List Byte) : Bool := bs.all (· == 0)

/-- The bytes of a list cut into pieces of `n` bytes, at most `k` pieces. -/
def chunksOf (n : Nat) : Nat → List Byte → List (List Byte)
  | 0, _ => []
  | k + 1, bs => bs.take n :: chunksOf n k (bs.drop n)

/-- One bit step of the reflected CRC-32C. -/
def crcBit (c : Nat) : Nat := if c % 2 = 1 then (c / 2) ^^^ 0x82F63B78 else c / 2

/-- One byte step of the reflected CRC-32C. -/
def crcByte (c : Nat) (b : Byte) : Nat :=
  crcBit (crcBit (crcBit (crcBit (crcBit (crcBit (crcBit (crcBit (c ^^^ b.toNat))))))))

/-- CRC-32C of a byte string. [DESIGN CHOICE, log entry 6] -/
def crc32c (bs : List Byte) : Nat := (bs.foldl crcByte 0xFFFFFFFF) ^^^ 0xFFFFFFFF

/-- A string as ASCII bytes. -/
def ascii (s : String) : List Byte := s.toList.map fun c => BitVec.ofNat 8 c.toNat

/-- The largest of a list of numbers. -/
def maxOf (xs : List Nat) : Nat := xs.foldl max 0

/-- Keep the first element for which `p` holds, with its place. -/
def findIdxOpt {α : Type} (p : α → Bool) : List α → Nat → Option Nat
  | [], _ => none
  | x :: xs, i => if p x then some i else findIdxOpt p xs (i + 1)

/-- Replace element `i` of a list. -/
def setAt {α : Type} (xs : List α) (i : Nat) (v : α) : List α := xs.set i v

end Sys2Proof.Machine
end

