-- ==== Sys2Proof/Config.lean ====
section
/-!
DEFINITION. What one part or one board fixes, and the values the spec leaves open. Every constant here is opaque: nothing in
the model or in a proof can see its value, so every claim holds for every value of it.
-/
namespace Sys2Proof.Config

/-- Is the part an MB-CX96-H (R2)? [DESIGN CHOICE, log entry 11] -/
opaque variantH : Bool

/-- The PCI vendor identifier in the fuses (R360, Table 17-7). [DESIGN CHOICE, log entry 11] -/
opaque vendorId : BitVec 16

/-- The identity key identifier derived from the fuses (R371). [DESIGN CHOICE, log entry 11] -/
opaque idKeyId : BitVec 64

/-- The fused minimum security version as the part was made (Table 17-11). [DESIGN CHOICE, log entry 11] -/
opaque svnFused : BitVec 16

/-- The fused forward bias of a power domain, in 10 mV units (PWR_BIAS_d, Table 14-11). [DESIGN CHOICE, log entry 11] -/
opaque bias : Nat → BitVec 4

/-- The Malbor firmware key hash in the fuses, 48 bytes (R367). [DESIGN CHOICE, log entry 11] -/
opaque fwKeyHash : List Byte

/-- The spare columns in use in a half of an array (R91, ARR_REPAIR): 0 left, 1 right. [DESIGN CHOICE, log entry 11] -/
opaque spares : Nat → Nat → Fin 5

/-- The JEDEC manufacturer code assigned to Malbor (R393). [DESIGN CHOICE, log entry 11] -/
opaque jedec : BitVec 11

/-- The identity key's signature over a byte string (R376). [DESIGN CHOICE, log entry 11] -/
opaque idSign : List Byte → List Byte

/-- The byte an HBM address reads as after the interleave in force changed, by epoch and address (R133). [DESIGN CHOICE, log entry 15] -/
opaque undefByte : Nat → Nat → Byte

/-- The FP32 code the vector unit would return for e^x; the model uses it where it lies within Table 3-5's bound. [DESIGN CHOICE, log entry 13] -/
opaque expCode : BitVec 32 → BitVec 32

/-- The FP32 code the vector unit would return for ln x; the model uses it where it lies within Table 3-5's bound. [DESIGN CHOICE, log entry 13] -/
opaque logCode : BitVec 32 → BitVec 32

/-- The FP32 code the vector unit would return for 1/x; the model uses it where it lies within Table 3-5's bound. [DESIGN CHOICE, log entry 13] -/
opaque recipCode : BitVec 32 → BitVec 32

/-- The FP32 code the vector unit would return for 1/√x; the model uses it where it lies within Table 3-5's bound. [DESIGN CHOICE, log entry 13] -/
opaque rsqrtCode : BitVec 32 → BitVec 32

/-- A word of the message placed in HST_MB_OUT, whose byte layout the spec does not give, by message serial and word. [DESIGN CHOICE, log entry 14] -/
opaque mbOutWord : Nat → Nat → W64

/-- A word that the spec leaves open, fresh for each value of the state's free counter. [DESIGN CHOICE, log entry 10] -/
opaque freeWord : Nat → W64

/-- The binary64 code the crystallizer's scalar path would return for e^x; the model uses it where it lies within 1 ulp (R278). [DESIGN CHOICE, log entry 13] -/
opaque exp64 : BitVec 64 → BitVec 64

/-- The binary64 code the crystallizer's scalar path would return for ln x; the model uses it where it lies within 1 ulp (R278). [DESIGN CHOICE, log entry 13] -/
opaque ln64 : BitVec 64 → BitVec 64

end Sys2Proof.Config
end

