-- ==== Sys2Proof/Machine/Float.lean ====
section
/-!
DEFINITION. Number formats and exact arithmetic (chapter 05, R99 to R102, R112; R56, R255, R273, R274). A value is a NaN,
an infinity or an exact dyadic number; every operation is done exactly and rounded once, to nearest with ties to even.
-/
namespace Sys2Proof.Machine

/-- A value: (-1)^neg * m * 2^e, an infinity, or a NaN. A zero keeps its sign. -/
inductive Fp where
  | nan
  | inf (neg : Bool)
  | fin (neg : Bool) (m : Nat) (e : Int)
  deriving DecidableEq, Repr

/-- A floating-point format of Table 5-1. `ieee` is false for K8E4 and K4, whose negative zero is the NaN (R100). -/
structure Fmt where
  ebits : Nat
  mbits : Nat
  bias : Nat
  ieee : Bool
  maxCode : Nat
  nanCode : Nat
  deriving DecidableEq, Repr

/-- FP32 (Table 5-1). -/
def fp32 : Fmt := ⟨8, 23, 127, true, 0x7F7FFFFF, 0x7FC00000⟩
/-- BF16 (Table 5-1). -/
def bf16 : Fmt := ⟨8, 7, 127, true, 0x7F7F, 0x7FC0⟩
/-- FP16 (Table 5-1). -/
def fp16 : Fmt := ⟨5, 10, 15, true, 0x7BFF, 0x7E00⟩
/-- K8E4 (Table 5-1). -/
def k8e4 : Fmt := ⟨4, 3, 7, false, 0x7F, 0x80⟩
/-- K8E5 (Table 5-1). -/
def k8e5 : Fmt := ⟨5, 2, 15, true, 0x7B, 0x7E⟩
/-- K4 (Table 5-1). -/
def k4 : Fmt := ⟨2, 1, 1, false, 0x7, 0x8⟩
/-- binary64, the scalar path's format (R274). -/
def fp64 : Fmt := ⟨11, 52, 1023, true, 0x7FEFFFFFFFFFFFFF, 0x7FF8000000000000⟩

/-- The format of a format code of Table 4-4 (0 to 5). -/
def fmtOf (code : Nat) : Fmt :=
  match code with
  | 1 => bf16
  | 2 => fp16
  | 3 => k8e4
  | 4 => k8e5
  | 5 => k4
  | _ => fp32

/-- The value of a code (R100). -/
def Fmt.decode (f : Fmt) (code : Nat) : Fp :=
  let s := bitOf code (f.ebits + f.mbits)
  let E := fld code f.mbits f.ebits
  let M := fld code 0 f.mbits
  let low : Int := 1 - (f.bias : Int) - (f.mbits : Int)
  if f.ieee && E == 2 ^ f.ebits - 1 then (if M = 0 then .inf s else .nan)
  else if !f.ieee && code % 2 ^ (f.ebits + f.mbits + 1) == 2 ^ (f.ebits + f.mbits) then .nan
  else if E = 0 then .fin s M low
  else .fin s (2 ^ f.mbits + M) (low + (E : Int) - 1)

/-- The sign bit of the format's codes. -/
def Fmt.signBit (f : Fmt) (neg : Bool) : Nat := if neg then 2 ^ (f.ebits + f.mbits) else 0

/-- The infinity code with a sign. -/
def Fmt.infCode (f : Fmt) (neg : Bool) : Nat := f.signBit neg + (2 ^ f.ebits - 1) * 2 ^ f.mbits

/-- `m / 2^k` rounded to nearest, ties to even. -/
def rneShift (m k : Nat) : Nat :=
  let q := m / 2 ^ k
  let r := 2 * (m % 2 ^ k)
  if r < 2 ^ k then q else if r = 2 ^ k then q + q % 2 else q + 1

/-- The magnitude code of m * 2^e, m > 0, rounded to nearest even as if the exponent range had no upper end (R101). -/
def Fmt.magCode (f : Fmt) (m : Nat) (e : Int) : Nat :=
  let low : Int := 1 - (f.bias : Int) - (f.mbits : Int)
  let q : Int := max ((Nat.log2 m : Int) + e - (f.mbits : Int)) low
  let mant := if q ≤ e then m * 2 ^ (e - q).toNat else rneShift m (q - e).toNat
  (q - low).toNat * 2 ^ f.mbits + mant

/-- The result of a rounding: the code, whether it overflowed, and whether a non-zero input became zero (R101, R102). -/
structure Rounded where
  code : Nat
  ovf : Bool := false
  flushed : Bool := false
  deriving DecidableEq, Repr

/-- Conversion into a format (R101, R102). `nanOver` is nan_on_overflow; it and saturation act on K formats only. -/
def Fmt.round (f : Fmt) (nanOver : Bool) (x : Fp) : Rounded :=
  let wide := f.ebits + f.mbits > 8 || f.ebits == 8 || f.ebits == 11
  let kOver := fun (s : Bool) => if nanOver then f.nanCode else f.signBit s + f.maxCode
  match x with
  | .nan => { code := f.nanCode }
  | .inf s => if f.ieee then { code := f.infCode s } else { code := kOver s, ovf := true }
  | .fin s m e =>
    if m = 0 then { code := if f.ieee then f.signBit s else 0 }
    else
      let c := f.magCode m e
      if c > f.maxCode then
        (if wide && f.ieee then { code := f.infCode s, ovf := true } else { code := kOver s, ovf := true })
      else if c = 0 then { code := if f.ieee then f.signBit s else 0, flushed := true }
      else { code := f.signBit s + c }

/-- The code of a value rounded into an IEEE format. -/
def Fmt.enc (f : Fmt) (x : Fp) : Nat := (f.round false x).code

/-- The value of a value rounded into an IEEE format. -/
def Fmt.rnd (f : Fmt) (x : Fp) : Fp := f.decode (f.enc x)

/-- The signed integer mantissa. -/
def sm (neg : Bool) (m : Nat) : Int := if neg then -(m : Int) else (m : Int)

/-- An exact dyadic from a signed mantissa; an exact zero takes the sign given. -/
def ofInt (z : Bool) (i : Int) (e : Int) : Fp :=
  if i = 0 then .fin z 0 e else .fin (decide (i < 0)) i.natAbs e

/-- A value negated. -/
def Fp.neg : Fp → Fp
  | .nan => .nan
  | .inf s => .inf (!s)
  | .fin s m e => .fin (!s) m e

/-- The magnitude of a value. -/
def Fp.abs : Fp → Fp
  | .nan => .nan
  | .inf _ => .inf false
  | .fin _ m e => .fin false m e

/-- The exact sum. An exact zero sum is -0 only when both addends are negative. -/
def Fp.add : Fp → Fp → Fp
  | .nan, _ => .nan
  | _, .nan => .nan
  | .inf s, .inf t => if s = t then .inf s else .nan
  | .inf s, _ => .inf s
  | _, .inf t => .inf t
  | .fin s m e, .fin t n g =>
    let b := min e g
    ofInt (s && t) (sm s m * 2 ^ (e - b).toNat + sm t n * 2 ^ (g - b).toNat) b

/-- The exact product. -/
def Fp.mul : Fp → Fp → Fp
  | .nan, _ => .nan
  | _, .nan => .nan
  | .inf s, .inf t => .inf (s ^^ t)
  | .inf s, .fin t n _ => if n = 0 then .nan else .inf (s ^^ t)
  | .fin s m _, .inf t => if m = 0 then .nan else .inf (s ^^ t)
  | .fin s m e, .fin t n g => .fin (s ^^ t) (m * n) (e + g)

/-- The quotient, to 200 bits with a sticky bit, so that one rounding of it is the correctly rounded quotient. -/
def Fp.div : Fp → Fp → Fp
  | .nan, _ => .nan
  | _, .nan => .nan
  | .inf _, .inf _ => .nan
  | .inf s, .fin t _ _ => .inf (s ^^ t)
  | .fin s _ _, .inf t => .fin (s ^^ t) 0 0
  | .fin s m e, .fin t n g =>
    if n = 0 then (if m = 0 then .nan else .inf (s ^^ t))
    else
      let k := 200 + Nat.log2 n
      let q := m * 2 ^ k / n
      let r := m * 2 ^ k % n
      .fin (s ^^ t) (2 * q + (if r = 0 then 0 else 1)) (e - g - (k : Int) - 1)

/-- Integer square root by bits, from bit `k` down. -/
def isqrtFrom (n : Nat) : Nat → Nat → Nat
  | 0, r => if (r + 1) * (r + 1) ≤ n then r + 1 else r
  | k + 1, r =>
    let c := r + 2 ^ (k + 1)
    isqrtFrom n k (if c * c ≤ n then c else r)

/-- Integer square root. -/
def isqrt (n : Nat) : Nat := isqrtFrom n (Nat.log2 n / 2 + 1) 0

/-- The square root, to more bits than any format holds, with a sticky bit. -/
def Fp.sqrt : Fp → Fp
  | .nan => .nan
  | .inf s => if s then .nan else .inf false
  | .fin s m e =>
    if m = 0 then .fin s 0 0
    else if s then .nan
    else
      let odd := decide (e % 2 ≠ 0)
      let m' := (if odd then 2 * m else m) * 2 ^ 256
      let e' := (if odd then e - 1 else e) - 256
      let r := isqrt m'
      .fin false (2 * r + (if r * r = m' then 0 else 1)) (e' / 2 - 1)

/-- Is the value a NaN? -/
def Fp.isNan : Fp → Bool
  | .nan => true
  | _ => false

/-- Is the value infinite or a NaN? -/
def Fp.nonFinite : Fp → Bool
  | .fin _ _ _ => false
  | _ => true

/-- Is the value a zero? -/
def Fp.isZero : Fp → Bool
  | .fin _ m _ => m == 0
  | _ => false

/-- The sign. -/
def Fp.sign : Fp → Bool
  | .nan => false
  | .inf s => s
  | .fin s _ _ => s

/-- The order of two values that are no NaN, with -0 below +0 when `zeros` is set (R56, R256). -/
def Fp.lt (zeros : Bool) : Fp → Fp → Bool
  | .inf s, y => s && !decide (y = .inf true)
  | x, .inf t => !t && !decide (x = .inf false)
  | .fin s m e, .fin t n g =>
    let b := min e g
    let x := sm s m * 2 ^ (e - b).toNat
    let y := sm t n * 2 ^ (g - b).toNat
    if x = 0 && y = 0 then zeros && s && !t else decide (x < y)
  | _, _ => false

/-- The order of magnitudes. -/
def Fp.magLe (x y : Fp) : Bool := !(Fp.lt false y.abs x.abs)

/-- floor(log2 |x|) of a finite non-zero value. -/
def Fp.expo : Fp → Int
  | .fin _ m e => (Nat.log2 m : Int) + e
  | _ => 0

/-- One. -/
def Fp.one : Fp := .fin false 1 0
/-- Zero. -/
def Fp.zero : Fp := .fin false 0 0
/-- A whole number. -/
def Fp.ofNat (n : Nat) : Fp := .fin false n 0

/-- A value scaled by 2^k, exactly. -/
def Fp.scale (x : Fp) (k : Int) : Fp :=
  match x with
  | .fin s m e => .fin s m (e + k)
  | y => y

/-- Fraction bits of the fixed-point numbers in which e^x and ln x are reckoned. -/
def fixBits : Nat := 240

/-- ln 2 with `fixBits` fraction bits. -/
def fixLn2 : Int := 1224685061431752149387114016819916847747660333428801675508466606222838698

/-- The sum of r^n / n! from the term given on, in fixed point. -/
def expSeries (r : Int) : Nat → Int → Int → Int
  | 0, _, _ => 0
  | f + 1, n, term => term + expSeries r f (n + 1) (term * r / 2 ^ fixBits / n)

/-- e^x of a finite value, to some 230 bits. -/
def Fp.exp : Fp → Fp
  | .fin s m e =>
    let x : Int := if 0 ≤ e + fixBits then sm s m * 2 ^ (e + fixBits).toNat else sm s m / 2 ^ (-(e + fixBits)).toNat
    let k := x / fixLn2
    ofInt false (expSeries (x - k * fixLn2) 64 1 (2 ^ fixBits)) (k - fixBits)
  | y => y

/-- The sum of z^(2j+1) / (2j+1) from the power given on, in fixed point. -/
def atanhSeries (z2 : Int) : Nat → Int → Int → Int
  | 0, _, _ => 0
  | f + 1, d, p => p / d + atanhSeries z2 f (d + 2) (p * z2 / 2 ^ fixBits)

/-- ln x of a finite value above 0, to some 230 bits behind the point. -/
def Fp.ln : Fp → Fp
  | .fin _ m e =>
    let l := Nat.log2 m
    let one : Int := 2 ^ l
    let z := ((m : Int) - one) * 2 ^ fixBits / ((m : Int) + one)
    ofInt false (((l : Int) + e) * fixLn2 + 2 * atanhSeries (z * z / 2 ^ fixBits) 80 1 z) (-(fixBits : Int))
  | y => y

/-- The unit in the last place of a format at a finite non-zero value. -/
def Fmt.ulp (f : Fmt) (x : Fp) : Fp :=
  .fin false 1 (max (x.expo - (f.mbits : Int)) (1 - (f.bias : Int) - (f.mbits : Int)))

/-- A result of which only an error bound is known: the code given where it lies within `tol` of the exact value `v`, else the rounded
value. -/
def Fmt.within (f : Fmt) (v tol : Fp) (code : Nat) : Fp :=
  let r := f.decode code
  if !r.nonFinite && !Fp.lt false tol (r.add v.neg).abs then r else f.rnd v

/-- A subnormal FP32 value read as a zero of the same sign (R56). -/
def Fp.ftz (x : Fp) : Fp :=
  match x with
  | .fin s m e => if m ≠ 0 && decide ((Nat.log2 m : Int) + e < -126) then .fin s 0 0 else .fin s m e
  | y => y

end Sys2Proof.Machine
end

