-- ==== Sys2Proof/Machine/Map.lean ====
section
/-!
DEFINITION. Sparse tables: a list of (number, record) pairs in rising order of the number. A number that is not listed
holds the table's reset record, which the caller names. Registers, memory bytes, ports, tiles, contexts and the rest of the
machine's numbered things are kept in this one form.
-/
namespace Sys2Proof.Machine

/-- A sparse table from numbers to records. -/
abbrev Table (α : Type) := List (Nat × α)

/-- The record at `k`, or the reset record `d` where `k` is not listed. -/
def Table.get {α : Type} (d : α) : Table α → Nat → α
  | [], _ => d
  | (j, v) :: m, k => if k = j then v else Table.get d m k

/-- The record at `k`, if it is listed. -/
def Table.find {α : Type} : Table α → Nat → Option α
  | [], _ => none
  | (j, v) :: m, k => if k = j then some v else Table.find m k

/-- The table with the record at `k` replaced; the numbers stay in rising order. -/
def Table.set {α : Type} : Table α → Nat → α → Table α
  | [], k, v => [(k, v)]
  | (j, w) :: m, k, v =>
    if k < j then (k, v) :: (j, w) :: m
    else if k = j then (k, v) :: m
    else (j, w) :: Table.set m k v

/-- The table without the records whose number satisfies `p`. -/
def Table.drop {α : Type} (m : Table α) (p : Nat → Bool) : Table α := m.filter fun c => !p c.1

/-- The numbers stand in strictly rising order, so that equal tables are equal data. -/
def Table.rising {α : Type} : Table α → Bool
  | [] => true
  | [_] => true
  | (j, _) :: (k, v) :: m => decide (j < k) && Table.rising ((k, v) :: m)

end Sys2Proof.Machine
end

