-- ==== Sys2Proof/Machine/RegMap.lean ====
section
/-!
DEFINITION. The register space: the BAR0 page map (R16, R17, Tables 1-8 and 1-9), the power domain of every block
(Table 14-2), the number of detectors of every block (Table 15-9), and the registers of every page with their access codes
(R7, R8), writable bits and reset values.
-/
namespace Sys2Proof.Machine

/-- The kinds of block page (Tables 1-8 and 1-9). -/
inductive Kind where
  | dev | clk | pwr | swc | sch | col | bob | log | hst | sec | pan | cxl | hbm | port
  | tile | spn | arr | vu | mov | enc | cry
  deriving DecidableEq, Repr

/-- A page: the kind of block and its instance; array blocks give 4t + a (Table 1-11). -/
structure Page where
  kind : Kind
  inst : Nat
  deriving DecidableEq, Repr

/-- The access codes of Table 0-7. -/
inductive Acc where
  | rw | ro | wo | w1c | w1s | rc
  deriving DecidableEq, Repr

/-- One row of a register table: `n` registers at `off`, `stride` bytes apart, with their writable bits and reset value.
`counter` marks a counter, which restarts from zero whenever the page's domain comes ON (R312). -/
structure RegRow where
  reg ::
  name : String
  off : Nat
  n : Nat
  stride : Nat
  acc : Acc
  mask : Nat
  reset : Nat
  counter : Bool
  deriving DecidableEq, Repr

/-- The block index of a page, which is also its MSI-X vector (R16, R17). -/
def Page.blk (p : Page) : Nat :=
  match p.kind with
  | .dev => 0
  | .clk => 1
  | .pwr => 2
  | .swc => 3
  | .sch => 4
  | .col => 5
  | .bob => 6
  | .log => 7
  | .hst => 8
  | .sec => 9
  | .pan => 10 + p.inst
  | .cxl => 14 + p.inst
  | .hbm => 16 + p.inst
  | .port => 24 + p.inst
  | .tile => 72 + 10 * p.inst
  | .spn => 73 + 10 * p.inst
  | .arr => 74 + 10 * (p.inst / 4) + p.inst % 4
  | .vu => 78 + 10 * p.inst
  | .mov => 79 + 10 * p.inst
  | .enc => 80 + 10 * p.inst
  | .cry => 81 + 10 * p.inst

/-- The page of a block index (Tables 1-8 and 1-9). -/
def pageOf (b : Nat) : Page :=
  if b < 10 then
    match b with
    | 0 => ⟨.dev, 0⟩
    | 1 => ⟨.clk, 0⟩
    | 2 => ⟨.pwr, 0⟩
    | 3 => ⟨.swc, 0⟩
    | 4 => ⟨.sch, 0⟩
    | 5 => ⟨.col, 0⟩
    | 6 => ⟨.bob, 0⟩
    | 7 => ⟨.log, 0⟩
    | 8 => ⟨.hst, 0⟩
    | _ => ⟨.sec, 0⟩
  else if b < 14 then ⟨.pan, b - 10⟩
  else if b < 16 then ⟨.cxl, b - 14⟩
  else if b < 24 then ⟨.hbm, b - 16⟩
  else if b < 72 then ⟨.port, b - 24⟩
  else
    let t := (b - 72) / 10
    match (b - 72) % 10 with
    | 0 => ⟨.tile, t⟩
    | 1 => ⟨.spn, t⟩
    | 6 => ⟨.vu, t⟩
    | 7 => ⟨.mov, t⟩
    | 8 => ⟨.enc, t⟩
    | 9 => ⟨.cry, t⟩
    | k => ⟨.arr, 4 * t + (k - 2)⟩

/-- The BAR0 offset of a page (Tables 1-8 and 1-9). -/
def Page.base (p : Page) : Nat :=
  match p.kind with
  | .dev => 0x0
  | .clk => 0x100000
  | .pwr => 0x140000
  | .swc => 0x2400000
  | .sch => 0x2500000
  | .col => 0x2800000
  | .bob => 0x2C00000
  | .log => 0x2D00000
  | .hst => 0x3C00000
  | .sec => 0x3E00000
  | .pan => 0x2600000 + p.inst * 0x80000
  | .cxl => 0x3800000 + p.inst * 0x200000
  | .hbm => 0x3000000 + p.inst * 0x100000
  | .port => 0x2000000 + p.inst * 0x10000
  | .tile => 0x1000000 + p.inst * 0x200000
  | .spn => 0x1000000 + p.inst * 0x200000 + 0x20000
  | .arr => 0x1000000 + p.inst / 4 * 0x200000 + 0x40000 + p.inst % 4 * 0x20000
  | .vu => 0x1000000 + p.inst * 0x200000 + 0xC0000
  | .mov => 0x1000000 + p.inst * 0x200000 + 0xE0000
  | .enc => 0x1000000 + p.inst * 0x200000 + 0x100000
  | .cry => 0x1000000 + p.inst * 0x200000 + 0x120000

/-- The size of a page. -/
def Kind.size : Kind → Nat
  | .dev => 0x100000
  | .clk => 0x40000
  | .pwr => 0xC0000
  | .swc => 0x100000
  | .sch => 0x100000
  | .col => 0x400000
  | .bob => 0x100000
  | .log => 0x300000
  | .hst => 0x200000
  | .sec => 0x200000
  | .pan => 0x80000
  | .cxl => 0x200000
  | .hbm => 0x100000
  | .port => 0x10000
  | _ => 0x20000

/-- The page and the offset in it of a BAR0 offset; none outside every page (R16, R17, R19). -/
def locate (off : Nat) : Option (Page × Nat) :=
  let at_ := fun (k : Kind) (i : Nat) => some (Page.mk k i, off - (Page.mk k i).base)
  if off < 0x100000 then at_ .dev 0
  else if off < 0x140000 then at_ .clk 0
  else if off < 0x200000 then at_ .pwr 0
  else if off < 0x1000000 then none
  else if off < 0x2000000 then
    let t := (off - 0x1000000) / 0x200000
    match (off - 0x1000000) % 0x200000 / 0x20000 with
    | 0 => at_ .tile t
    | 1 => at_ .spn t
    | 2 => at_ .arr (4 * t)
    | 3 => at_ .arr (4 * t + 1)
    | 4 => at_ .arr (4 * t + 2)
    | 5 => at_ .arr (4 * t + 3)
    | 6 => at_ .vu t
    | 7 => at_ .mov t
    | 8 => at_ .enc t
    | 9 => at_ .cry t
    | _ => none
  else if off < 0x2300000 then at_ .port ((off - 0x2000000) / 0x10000)
  else if off < 0x2400000 then none
  else if off < 0x2500000 then at_ .swc 0
  else if off < 0x2600000 then at_ .sch 0
  else if off < 0x2800000 then at_ .pan ((off - 0x2600000) / 0x80000)
  else if off < 0x2C00000 then at_ .col 0
  else if off < 0x2D00000 then at_ .bob 0
  else if off < 0x3000000 then at_ .log 0
  else if off < 0x3800000 then at_ .hbm ((off - 0x3000000) / 0x100000)
  else if off < 0x3C00000 then at_ .cxl ((off - 0x3800000) / 0x200000)
  else if off < 0x3E00000 then at_ .hst 0
  else if off < 0x4000000 then at_ .sec 0
  else none

/-- The power domain of a page (Tables 1-8, 1-9 and 14-2). -/
def Page.dom (p : Page) : Nat :=
  match p.kind with
  | .swc => 1
  | .sch => 1
  | .col => 1
  | .bob => 1
  | .pan => 2 + p.inst
  | .port => 6 + p.inst / 4
  | .cxl => 18 + p.inst
  | .tile => 20 + p.inst
  | .spn => 20 + p.inst
  | .mov => 20 + p.inst
  | .enc => 20 + p.inst
  | .vu => 28 + p.inst
  | .cry => 36 + p.inst
  | .hbm => 44 + p.inst
  | .arr => 52 + p.inst
  | _ => 0

/-- The power domain of a block. -/
def blkDom (b : Nat) : Nat := (pageOf b).dom

/-- The parent of a power domain (Table 14-2). -/
def domParent (d : Nat) : Option Nat :=
  if 2 ≤ d ∧ d ≤ 17 then some 1
  else if 28 ≤ d ∧ d ≤ 35 then some (20 + (d - 28))
  else if 36 ≤ d ∧ d ≤ 43 then some (20 + (d - 36))
  else if 52 ≤ d ∧ d ≤ 83 then some (20 + (d - 52) / 4)
  else none

/-- Is the domain an array domain? -/
def domIsArray (d : Nat) : Bool := 52 ≤ d && d ≤ 83

/-- The blocks of a power domain. -/
def domBlks (d : Nat) : List Nat :=
  if d = 1 then [3, 4, 5, 6]
  else if d < 6 then [10 + (d - 2)]
  else if d < 18 then [24 + 4 * (d - 6), 25 + 4 * (d - 6), 26 + 4 * (d - 6), 27 + 4 * (d - 6)]
  else if d < 20 then [14 + (d - 18)]
  else if d < 28 then [72 + 10 * (d - 20), 73 + 10 * (d - 20), 79 + 10 * (d - 20), 80 + 10 * (d - 20)]
  else if d < 36 then [78 + 10 * (d - 28)]
  else if d < 44 then [81 + 10 * (d - 36)]
  else if d < 52 then [16 + (d - 44)]
  else if d < 84 then [74 + 10 * ((d - 52) / 4) + (d - 52) % 4]
  else []

/-- The base severity of each detector of a kind of block, in the order of the detectors (Tables 15-9 and 15-10). -/
def Kind.sevs : Kind → List Nat
  | .dev => [1, 1, 1, 0, 2, 1, 1, 2, 3, 2, 2, 4, 1]
  | .clk => [4, 4, 3, 3, 3]
  | .pwr => [3, 3, 4, 4, 1, 1, 4, 1]
  | .swc => [1, 2, 2, 2, 2, 1, 2, 3]
  | .sch => [1, 3, 3]
  | .col => [1, 2, 2, 2, 2, 0, 3]
  | .bob => [1, 2, 3, 3]
  | .log => [1, 2]
  | .hst => [1, 2, 3]
  | .sec => [0, 3, 4]
  | .pan => [1, 2, 2, 2, 2, 2, 1, 3]
  | .cxl => [1, 2, 2, 3, 3, 1]
  | .hbm => [1, 2, 2, 3, 1]
  | .port => [1, 2, 2, 2, 0, 1, 1, 2, 3]
  | .tile => [1, 2, 2, 1, 2, 3]
  | .spn => [1, 2, 2, 2, 2, 2, 2, 3]
  | .arr => [1, 2, 2, 2, 2, 2, 2]
  | .vu => [1, 2]
  | .mov => [2, 2, 3]
  | .enc => [2, 2]
  | .cry => [1, 2, 2, 2, 2, 0, 2, 2, 3, 1]

/-- The number of detectors of a block: BLK_ID.detector_count (R345). -/
def detCount (b : Nat) : Nat := (pageOf b).kind.sevs.length

/-- The base severity of a detector. -/
def detBase (b d : Nat) : Nat := (pageOf b).kind.sevs.getD d 0

/-- Does the block have an engine, so that its hang window is not fixed at 0 (R27, Table 15-2, R223, R326, R357)? [DESIGN CHOICE, log entry 28] -/
def hasEngine (b : Nat) : Bool := b < 152 && b != 1 && b != 6 && b != 7

/-- The registers of a dev page after the common window, as its chapter tables them. -/
def devRows : List RegRow :=
  [ .reg "DEV_PART" 0x40 1 8 .ro 0 0x800096 false,
    .reg "DEV_CHIP" 0x48 1 8 .ro 0 0 false,
    .reg "DEV_MODE" 0x50 1 8 .rw 1 0 false,
    .reg "DEV_STATE" 0x58 1 8 .ro 0 0 false,
    .reg "DEV_IMAGE_HASH" 0x60 1 8 .ro 0 0 false,
    .reg "DEV_PLAN_HASH" 0x68 1 8 .ro 0 0 false,
    .reg "DEV_LOAD_ADDR" 0x70 1 8 .rw 0x3FFFFFFFFFFFF 0 false,
    .reg "DEV_LOAD_LEN" 0x78 1 8 .rw 0x1FFFFFFFF 0 false,
    .reg "DEV_LOAD_CTRL" 0x80 1 8 .wo 0 0 false,
    .reg "DEV_LOAD_HARVEST" 0x88 1 8 .rw 0x3FFFFFFFFF 0 false,
    .reg "DEV_LOAD_STATUS" 0x90 1 8 .ro 0 0 false,
    .reg "DEV_LOAD_DETAIL" 0x98 1 8 .ro 0 0 false,
    .reg "DEV_LOAD_HOLD_MAX" 0xA0 1 8 .rw 0xFFFFFFFF 0x1312D00 false,
    .reg "DEV_LOAD_VERSION" 0xA8 1 8 .ro 0 0x20001 false,
    .reg "DEV_LOAD_REFUSALS" 0xB0 1 8 .rc 0 0 false,
    .reg "DEV_HEARTBEAT" 0xB8 1 8 .wo 0 0 false,
    .reg "DEV_AUTO_ACK" 0x140 1 8 .rw 3 3 false,
    .reg "DEV_RESET_CFG" 0x148 1 8 .rw 0xFFFFFFFFFFFFFFFF 0x2625A0000061A80 false,
    .reg "DEV_S4_CFG" 0x150 1 8 .rw 0x1FFFFFFFF 0x1003D0900 false,
    .reg "DEV_RESET_CTRL" 0x158 1 8 .wo 0 0 false,
    .reg "DEV_RESET_LAST" 0x160 1 8 .ro 0 0 false,
    .reg "DEV_S4_CAUSE" 0x168 1 8 .ro 0 0 false,
    .reg "DEV_NOTIFY_CFG" 0x170 1 8 .rw 0x7FFFFFFFF 0x200061A80 false,
    .reg "DEV_NOTIFY_SUPPRESS_CNT" 0x178 1 8 .rc 0 0 true,
    .reg "DEV_TEST_CTRL" 0x180 1 8 .wo 0 0 false,
    .reg "DEV_TEST_STATUS" 0x188 1 8 .ro 0 0 false,
    .reg "DEV_INJECT_ARM" 0x190 1 8 .rw 1 0 false,
    .reg "DEV_REG_FAULT_CNT" 0x198 1 8 .rc 0 0 true,
    .reg "DEV_FAULT_SUM_k" 0x1A0 3 8 .ro 0 0 false,
    .reg "DEV_RECOVERY_CNT" 0x1B8 1 8 .rc 0 0 true,
    .reg "HRV_CFG" 0x100 1 8 .rw 1 1 false,
    .reg "HRV_TIMEOUT" 0x108 1 8 .rw 0xFFFFFFFF 0x10000000 false,
    .reg "HRV_EARLY_CNT" 0x110 1 8 .rc 0 0 true,
    .reg "HRV_LATE_CNT" 0x118 1 8 .rc 0 0 true,
    .reg "HRV_LATE_ANSWER_CNT" 0x120 1 8 .rc 0 0 true,
    .reg "HRV_CLEAR_DISCARD_CNT" 0x128 1 8 .rc 0 0 true,
    .reg "HRV_FAILED_STEP_CNT" 0x130 1 8 .rc 0 0 true,
    .reg "HRV_LAST" 0x138 1 8 .ro 0 0 false,
    .reg "HRV_STATE_c" 0x200 64 8 .ro 0 0 false ]

/-- The registers of a clk page after the common window, as its chapter tables them. -/
def clkRows : List RegRow :=
  [ .reg "CLK_STATUS" 0x40 1 8 .ro 0 0 false,
    .reg "CLK_UNLOCK_CNT" 0x48 1 8 .rc 0 0 true,
    .reg "CLK_LAST_UNLOCK" 0x50 1 8 .ro 0 0 false ]

/-- The registers of a pwr page after the common window, as its chapter tables them. -/
def pwrRows : List RegRow :=
  [ .reg "PWR_VOTE_CTRL" 0x40 1 8 .wo 0 0 false,
    .reg "PWR_STAGGER" 0x48 1 8 .rw 0xFFFFFF 0x1900 false,
    .reg "PWR_CAP_CFG" 0x50 1 8 .rw 0xFFFFFFFFFFFF 0x9C40380C0000 false,
    .reg "PWR_CAP_STATE" 0x58 1 8 .ro 0 0 false,
    .reg "PWR_IN" 0x60 1 8 .ro 0 0 false,
    .reg "PWR_IN_PEAK" 0x68 1 8 .rc 0 0 true,
    .reg "PWR_TEMP" 0x70 1 8 .ro 0 0 false,
    .reg "PWR_WAKE_SW" 0x78 1 8 .rw 1 0 false,
    .reg "PWR_WAKE_STATUS" 0x80 1 8 .w1c 0xF 0 false,
    .reg "PWR_WAKE_MASK_LO_s" 0x100 4 16 .rw 0xFFFFFFFFFFFFFFFF 0 false,
    .reg "PWR_WAKE_MASK_HI_s" 0x108 4 16 .rw 0xFFFFF 0 false,
    .reg "PWR_DOM_d" 0x1000 84 8 .ro 0 0 false,
    .reg "PWR_REFUSE_d" 0x1400 84 8 .rc 0 0 true,
    .reg "PWR_BIAS_d" 0x1800 84 8 .ro 0 0 false ]

/-- The registers of a tile page after the common window, as its chapter tables them. -/
def tileRows : List RegRow :=
  [ .reg "TILE_CTX" 0x40 1 8 .ro 0 0 false,
    .reg "TILE_LINK_STATE" 0x48 1 8 .ro 0 0 false,
    .reg "TILE_STORE_CE" 0x50 1 8 .rc 0 0 true,
    .reg "TILE_STORE_UE" 0x58 1 8 .rc 0 0 true,
    .reg "TILE_EXPECT_USED" 0x60 1 8 .ro 0 0 false,
    .reg "TILE_TALLY_ERRj" 0x68 4 8 .ro 0 0 false,
    .reg "TILE_TALLY_n" 0x800 256 8 .ro 0 0 false,
    .reg "TILE_STORE_ERR_ADDR" 0x88 1 8 .rc 0 0 false,
    .reg "TILE_SCRUB_CTRL" 0x90 1 8 .rw 0xFFFFFFFF01 0xA00001 false,
    .reg "TILE_SCRUB_POS" 0x98 1 8 .ro 0 0 false,
    .reg "TILE_STORE_RD_BYTES" 0xA0 1 8 .ro 0 0 true,
    .reg "TILE_STORE_WR_BYTES" 0xA8 1 8 .ro 0 0 true ]

/-- The registers of a spn page after the common window, as its chapter tables them. -/
def spnRows : List RegRow :=
  [ .reg "SPN_STATE" 0x40 1 8 .ro 0 0 false,
    .reg "SPN_PC" 0x48 1 8 .ro 0 0 false,
    .reg "SPN_PROG_BASE" 0x50 1 8 .ro 0 0 false,
    .reg "SPN_PROG_LEN" 0x58 1 8 .ro 0 0 false,
    .reg "SPN_ISSUE_CNT" 0x60 1 8 .ro 0 0 true,
    .reg "SPN_WAIT_CNT" 0x68 1 8 .ro 0 0 true,
    .reg "SPN_THROTTLE_CNT" 0x70 1 8 .ro 0 0 true,
    .reg "SPN_MISS_CNT" 0x78 1 8 .ro 0 0 true,
    .reg "SPN_FAULT_PC" 0x80 1 8 .ro 0 0 false,
    .reg "SPN_FAULT_CAUSE" 0x88 1 8 .ro 0 0 false ]

/-- The registers of a arr page after the common window, as its chapter tables them. -/
def arrRows : List RegRow :=
  [ .reg "ARR_SHAPE" 0x40 1 8 .ro 0 0 false,
    .reg "ARR_STATE" 0x48 1 8 .ro 0 0 false,
    .reg "ARR_FREE_SPIN_MAX" 0x50 1 8 .ro 0 0x12C0 false,
    .reg "ARR_REPAIR" 0x58 1 8 .ro 0 0 false,
    .reg "ARR_OPS_CNT" 0x60 1 8 .ro 0 0 true,
    .reg "ARR_ROW_CNT" 0x68 1 8 .ro 0 0 true,
    .reg "ARR_FREESPIN_CNT" 0x70 1 8 .ro 0 0 true,
    .reg "ARR_GATED_CNT" 0x78 1 8 .ro 0 0 true,
    .reg "ARR_ACC_CE" 0x80 1 8 .rc 0 0 true,
    .reg "ARR_ACC_UE" 0x88 1 8 .rc 0 0 true,
    .reg "ARR_RESIDUE_CNT" 0x90 1 8 .rc 0 0 true,
    .reg "ARR_FAIL_CNT" 0x98 1 8 .rc 0 0 true,
    .reg "ARR_FAULT_INFO" 0xA0 1 8 .ro 0 0 false,
    .reg "ARR_SCALE_SAT_CNT" 0xA8 1 8 .rc 0 0 true,
    .reg "ARR_SCALE_FLUSH_CNT" 0xB0 1 8 .rc 0 0 true,
    .reg "ARR_SCALE_LAST" 0xB8 1 8 .ro 0 0 false ]

/-- The registers of a vu page after the common window, as its chapter tables them. -/
def vuRows : List RegRow :=
  [ .reg "VU_OPS_CNT" 0x40 1 8 .ro 0 0 true,
    .reg "VU_FLUSH_CNT" 0x48 1 8 .rc 0 0 true,
    .reg "VU_Y_CE" 0x50 1 8 .rc 0 0 true,
    .reg "VU_Y_UE" 0x58 1 8 .rc 0 0 true ]

/-- The registers of a mov page after the common window, as its chapter tables them. -/
def movRows : List RegRow :=
  [ .reg "MOV_STATE_m" 0x40 8 8 .ro 0 0 false,
    .reg "MOV_BYTES_CNT" 0x80 1 8 .ro 0 0 true,
    .reg "MOV_ERR_CNT" 0x88 1 8 .rc 0 0 true,
    .reg "MOV_ABORT_CNT" 0x90 1 8 .rc 0 0 true,
    .reg "MOV_LAST_ERR" 0x98 1 8 .ro 0 0 false ]

/-- The registers of a enc page after the common window, as its chapter tables them. -/
def encRows : List RegRow :=
  [ .reg "ENC_FLUSH_CNT" 0x40 1 8 .rc 0 0 true,
    .reg "ENC_SAT_CNT" 0x48 1 8 .rc 0 0 true,
    .reg "ENC_ZEROBLK_CNT" 0x50 1 8 .rc 0 0 true,
    .reg "ENC_NANBLK_CNT" 0x58 1 8 .rc 0 0 true,
    .reg "ENC_WEXP_SAT_CNT" 0x60 1 8 .rc 0 0 true,
    .reg "ENC_OPS_CNT" 0x68 1 8 .ro 0 0 true,
    .reg "ENC_PROFILE_n" 0x80 16 8 .ro 0 0 false ]

/-- The registers of a cry page after the common window, as its chapter tables them. -/
def cryRows : List RegRow :=
  [ .reg "CRY_STATE" 0x40 1 8 .ro 0 0 false,
    .reg "CRY_GROUP_CNT" 0x48 1 8 .ro 0 0 false,
    .reg "CRY_ELEM_CNT" 0x50 1 8 .ro 0 0 true,
    .reg "CRY_UPDATED_CNT" 0x58 1 8 .ro 0 0 true,
    .reg "CRY_FROZEN_SKIP" 0x60 1 8 .rc 0 0 true,
    .reg "CRY_SKEW_SKIP" 0x68 1 8 .rc 0 0 true,
    .reg "CRY_NONFINITE_SKIP" 0x70 1 8 .rc 0 0 true,
    .reg "CRY_FAIL_SKIP" 0x78 1 8 .rc 0 0 true,
    .reg "CRY_TORN_CNT" 0x80 1 8 .rc 0 0 true,
    .reg "CRY_ENC_FLUSH_CNT" 0x88 1 8 .rc 0 0 true,
    .reg "CRY_ENC_SAT_CNT" 0x90 1 8 .rc 0 0 true,
    .reg "CRY_RETRY_CNT" 0x98 1 8 .rc 0 0 true,
    .reg "CRY_LAST_SKIP" 0xA0 1 8 .ro 0 0 false,
    .reg "CRY_LAST_TRUST" 0xA8 1 8 .ro 0 0 false,
    .reg "CRY_TORN_INFO" 0xB0 1 8 .ro 0 0 false,
    .reg "CRY_STEP_g" 0x10000 8192 8 .rw 0x1FFFFFFFF 0 false ]

/-- The registers of a port page after the common window, as its chapter tables them. -/
def portRows : List RegRow :=
  [ .reg "PORT_STATE" 0x40 1 8 .ro 0 0 false,
    .reg "PORT_CTRL" 0x48 1 8 .wo 0 0 false,
    .reg "PORT_CFG" 0x50 1 8 .rw 0xFFFFFFFF00FFFFFF 0x6400C800034060 false,
    .reg "PORT_EI_CFG" 0x58 1 8 .rw 0xFFFFFF01 0x3E8001 false,
    .reg "PORT_FEC_CE_CNT" 0x60 1 8 .rc 0 0 true,
    .reg "PORT_FEC_UE_CNT" 0x68 1 8 .rc 0 0 true,
    .reg "PORT_FRAME_LOST_CNT" 0x70 1 8 .rc 0 0 true,
    .reg "PORT_TX_FLITS" 0x78 1 8 .ro 0 0 true,
    .reg "PORT_RX_FLITS" 0x80 1 8 .ro 0 0 true,
    .reg "PORT_EI_CNT" 0x88 1 8 .ro 0 0 true,
    .reg "PORT_DOWN_CNT" 0x90 1 8 .rc 0 0 true,
    .reg "PORT_SLOT" 0x98 1 8 .ro 0 0 false,
    .reg "DISC_EXPECT" 0x100 1 8 .ro 0 0 false,
    .reg "DISC_SEEN" 0x108 1 8 .ro 0 0 false,
    .reg "DISC_SEEN_HASH" 0x110 1 8 .ro 0 0 false,
    .reg "DISC_SEEN_FW" 0x118 1 8 .ro 0 0 false,
    .reg "DISC_SEEN_WINDOW" 0x120 1 8 .ro 0 0 false,
    .reg "DISC_FW_WINDOW" 0x128 1 8 .ro 0 0 false,
    .reg "DISC_HELLO_CNT" 0x130 1 8 .ro 0 0 true,
    .reg "DISC_PEER_VERDICT" 0x138 1 8 .ro 0 0 false,
    .reg "LANE_STATE" 0x200 4 64 .ro 0 0 false,
    .reg "LANE_TX_BASE" 0x208 4 64 .ro 0 0 false,
    .reg "LANE_RX_BASE" 0x210 4 64 .ro 0 0 false,
    .reg "LANE_TRIM" 0x218 4 64 .ro 0 0 false,
    .reg "LANE_SYMERR_CNT" 0x220 4 64 .rc 0 0 true,
    .reg "LANE_TRIM_LIMIT_CNT" 0x228 4 64 .rc 0 0 true ]

/-- The registers of a swc page after the common window, as its chapter tables them. -/
def swcRows : List RegRow :=
  [ .reg "SWC_CFG" 0x40 1 8 .rw 0x3FFFFFFFFFFFFFF 0x200200002000400 false,
    .reg "SWC_AGE" 0x48 1 8 .rw 0xFFF 0xC35 false,
    .reg "SWC_RC_CFG" 0x50 1 8 .rw 0xFFFF00FFFFFF 0x64000000440 false,
    .reg "SWC_RC_LIMITS" 0x58 1 8 .rw 0xFFFFFFFF 0x4B000004 false,
    .reg "SWC_RC_BURST" 0x60 1 8 .rw 0xFFFFFF 0x4000 false,
    .reg "SWC_RTX_CFG" 0x68 1 8 .rw 0xFFFFFFFFF 0x300027100 false,
    .reg "SWC_DEFL_PROD_CNT" 0x70 1 8 .ro 0 0 true,
    .reg "SWC_DEFL_ANY_CNT" 0x78 1 8 .ro 0 0 true,
    .reg "SWC_FWD_CNT" 0x80 1 8 .ro 0 0 true,
    .reg "SWC_MARK_CNT" 0x88 1 8 .ro 0 0 true,
    .reg "SWC_ECHO_CNT" 0x90 1 8 .ro 0 0 true,
    .reg "SWC_AGED_CNT" 0x98 1 8 .rc 0 0 true,
    .reg "SWC_HOPS_CNT" 0xA0 1 8 .rc 0 0 true,
    .reg "SWC_QFULL_CNT" 0xA8 1 8 .rc 0 0 true,
    .reg "SWC_BOB_DISCARD_CNT" 0xB0 1 8 .rc 0 0 true,
    .reg "SWC_NOROUTE_CNT" 0xB8 1 8 .rc 0 0 true,
    .reg "SWC_CRC_DISCARD_CNT" 0xC0 1 8 .rc 0 0 true,
    .reg "SWC_RTX_CNT" 0xC8 1 8 .rc 0 0 true,
    .reg "SWC_RTX_FAIL_CNT" 0xD0 1 8 .rc 0 0 true,
    .reg "SWC_DUP_CNT" 0xD8 1 8 .rc 0 0 true,
    .reg "SWC_PIN_DROP_CNT" 0xE0 1 8 .rc 0 0 true,
    .reg "SWC_TREE_DROP_CNT" 0xE8 1 8 .rc 0 0 true,
    .reg "RTE_CTRL" 0xF0 1 8 .wo 0 0 false,
    .reg "RTE_SWAP_HARVEST" 0xF8 1 8 .rw 0x3FFFFFFFFF 0 false,
    .reg "RTE_STATUS" 0x100 1 8 .ro 0 0 false,
    .reg "SWC_QOCC_p" 0x200 48 8 .ro 0 0 false,
    .reg "SWC_QHW_p" 0x400 48 8 .rc 0 0 true,
    .reg "SWC_PORT_DEFL_p" 0x600 48 8 .ro 0 0 true,
    .reg "SWC_RC_RATE_c" 0x1000 256 8 .ro 0 0x4B00 false,
    .reg "RING_TABLE" 0x40000 16384 8 .ro 0 0 false,
    .reg "SLOT_WHEEL" 0x60000 12288 8 .ro 0 0xFFFFFFFFFFFFFFFF false,
    .reg "RTE_DEST_0" 0x80000 16384 8 .rw 0x8000FF0F3F3F3F3F 0 false,
    .reg "RTE_DEST_1" 0xA0000 16384 8 .rw 0x8000FF0F3F3F3F3F 0 false ]

/-- The registers of a sch page after the common window, as its chapter tables them. -/
def schRows : List RegRow :=
  [ .reg "SCH_CFG" 0x40 1 8 .rw 0x1F 5 false,
    .reg "SCH_SHAPE_CTRL" 0x48 1 8 .wo 0 0 false,
    .reg "SCH_NODES" 0x50 1 8 .ro 0 0x10 false,
    .reg "CTX_CTRL" 0x58 1 8 .wo 0 0 false,
    .reg "CTX_RESULT" 0x60 1 8 .ro 0 0 false,
    .reg "CTX_TEARDOWN_MAX" 0x68 1 8 .rw 0xFFFFFFFF 0xC3500 false,
    .reg "CTX_LAST_TEARDOWN" 0x70 1 8 .ro 0 0 false,
    .reg "CTX_STALE_CNT" 0x78 1 8 .rc 0 0 true,
    .reg "SCH_TX_FLITS_s" 0x100 8 8 .ro 0 0 true,
    .reg "SCH_SHAPED_CNT_s" 0x140 8 8 .rc 0 0 true,
    .reg "CTX_STATE_c" 0x200 64 8 .ro 0 0 false,
    .reg "SCH_NODE_n" 0x400 1024 8 .ro 0 0 false ]

/-- The registers of a pan page after the common window, as its chapter tables them. -/
def panRows : List RegRow :=
  [ .reg "PAN_CFG" 0x40 1 8 .rw 0xFF00FFFFFFFFFFFF 0x40000C800003E80 false,
    .reg "PAN_QUARTERS_FREE" 0x48 1 8 .ro 0 0x600 false,
    .reg "PAN_WIDE_CNT" 0x50 1 8 .ro 0 0 true,
    .reg "PAN_OTHER_CNT" 0x58 1 8 .ro 0 0 true,
    .reg "PAN_TRUNC_CNT" 0x60 1 8 .rc 0 0 true,
    .reg "PAN_NAN_CNT" 0x68 1 8 .rc 0 0 true,
    .reg "PAN_RESULT_INF_CNT" 0x70 1 8 .rc 0 0 true,
    .reg "PAN_CRC_FAIL_CNT" 0x78 1 8 .rc 0 0 true,
    .reg "PAN_RETRACT_CNT" 0x80 1 8 .rc 0 0 true,
    .reg "PAN_RESEND_CNT" 0x88 1 8 .rc 0 0 true,
    .reg "PAN_STALE_CNT" 0x90 1 8 .rc 0 0 true,
    .reg "PAN_LAST_RETRACT" 0x98 1 8 .ro 0 0 false,
    .reg "PAN_CE_CNT" 0xA0 1 8 .rc 0 0 true,
    .reg "PAN_UE_CNT" 0xA8 1 8 .rc 0 0 true,
    .reg "PAN_OCC_n" 0x100 24 8 .ro 0 0 false,
    .reg "PAN_STATES_n" 0x200 24 8 .ro 0 0 false ]

/-- The registers of a col page after the common window, as its chapter tables them. -/
def colRows : List RegRow :=
  [ .reg "COL_CFG" 0x40 1 8 .rw 0xF0000FFFF 0x200000C80 false,
    .reg "COL_RTO" 0x48 1 8 .rw 0xFFFFFFFF 0x9C40 false,
    .reg "COL_ACTIVE" 0x50 1 8 .ro 0 0 false,
    .reg "COL_STARTS_CNT" 0x58 1 8 .ro 0 0 true,
    .reg "COL_DONE_CNT" 0x60 1 8 .ro 0 0 true,
    .reg "COL_FAIL_CNT" 0x68 1 8 .rc 0 0 true,
    .reg "COL_SEQ_DROP_CNT" 0x70 1 8 .rc 0 0 true,
    .reg "COL_CREDIT_CNT" 0x78 1 8 .ro 0 0 true,
    .reg "COL_RESEND_CNT" 0x80 1 8 .rc 0 0 true,
    .reg "COL_PRUNE_CNT" 0x88 1 8 .rc 0 0 true,
    .reg "COL_A2A_DROP_CNT" 0x90 1 8 .rc 0 0 true,
    .reg "COL_LAST_FAIL" 0x98 1 8 .ro 0 0 false,
    .reg "COL_LAST_ARRIVER" 0xA0 1 8 .ro 0 0 false,
    .reg "COL_QUAD_UNITS_q" 0x100 4 8 .ro 0 0 false,
    .reg "COL_FENCE_i" 0x1000 256 8 .rw 0xFFFFFFFFFFFFFFFF 0 false,
    .reg "GROUP_TABLE" 0x100000 131072 8 .ro 0 0 false,
    .reg "GRP_STATE_g" 0x200000 16384 8 .ro 0 0 false ]

/-- The registers of a bob page after the common window, as its chapter tables them. -/
def bobRows : List RegRow :=
  [ .reg "BOB_FREE" 0x40 1 8 .ro 0 0x80000 false,
    .reg "BOB_RETIRED" 0x48 1 8 .ro 0 0 false,
    .reg "BOB_ERR_INDEX" 0x50 1 8 .rc 0 0 false,
    .reg "BOB_CE_CNT" 0x58 1 8 .rc 0 0 true,
    .reg "BOB_UE_CNT" 0x60 1 8 .rc 0 0 true,
    .reg "BOB_QUOTA_k" 0x100 8 8 .ro 0 0 false,
    .reg "BOB_USED_k" 0x140 8 8 .ro 0 0 false,
    .reg "BOB_HW_k" 0x180 8 8 .rc 0 0 true,
    .reg "BOB_FAIL_k" 0x1C0 8 8 .rc 0 0 true ]

/-- The registers of a rec page after the common window, as its chapter tables them. -/
def recRows : List RegRow :=
  [ .reg "REC_SEQ_HEAD" 0x40 1 8 .ro 0 0 false,
    .reg "REC_CURSOR" 0x48 1 8 .rw 0xFFF8 0 false,
    .reg "REC_COUNT" 0x50 1 8 .ro 0 0 false,
    .reg "REC_TIME" 0x58 1 8 .ro 0 0 false,
    .reg "REC_LOST_CNT" 0x60 1 8 .rc 0 0 true,
    .reg "REC_FIFO_DROP_CNT" 0x68 1 8 .rc 0 0 true,
    .reg "REC_DROP_s" 0x80 5 8 .rc 0 0 true,
    .reg "REC_OVERWRITE_s" 0xC0 5 8 .ro 0 0 true,
    .reg "REC_WINDOW" 0x100 32 8 .ro 0 0 false ]

/-- The registers of a hbm page after the common window, as its chapter tables them. -/
def hbmRows : List RegRow :=
  [ .reg "HBM_CFG" 0x40 1 8 .ro 0 0 false,
    .reg "HBM_CE_CNT" 0x48 1 8 .rc 0 0 true,
    .reg "HBM_UE_CNT" 0x50 1 8 .rc 0 0 true,
    .reg "HBM_ERR_ADDR" 0x58 1 8 .rc 0 0 false,
    .reg "HBM_SCRUB_CTRL" 0x60 1 8 .rw 0xFFFFFFFF01 0xA00001 false,
    .reg "HBM_SCRUB_POS" 0x68 1 8 .ro 0 0 false,
    .reg "HBM_TEMP" 0x70 1 8 .ro 0 0 false,
    .reg "HBM_RD_BYTES" 0x78 1 8 .ro 0 0 true,
    .reg "HBM_WR_BYTES" 0x80 1 8 .ro 0 0 true ]

/-- The registers of a cxl page after the common window, as its chapter tables them. -/
def cxlRows : List RegRow :=
  [ .reg "CXL_LINK" 0x40 1 8 .ro 0 0 false,
    .reg "CXL_CAP" 0x48 1 8 .ro 0 0 false,
    .reg "CXL_CPL_TIMEOUT" 0x50 1 8 .rw 0xFFFFFFFF 0x9C40 false,
    .reg "CXL_CE_CNT" 0x58 1 8 .rc 0 0 true,
    .reg "CXL_POISON_CNT" 0x60 1 8 .rc 0 0 true,
    .reg "CXL_TIMEOUT_CNT" 0x68 1 8 .rc 0 0 true,
    .reg "CXL_ERR_ADDR" 0x70 1 8 .rc 0 0 false,
    .reg "CXL_RD_BYTES" 0x78 1 8 .ro 0 0 true,
    .reg "CXL_WR_BYTES" 0x80 1 8 .ro 0 0 true,
    .reg "CXL_HDM_h" 0x100 8 8 .rw 0x8007FFFF0000FFFF 0 false ]

/-- The registers of a hst page after the common window, as its chapter tables them. [PRESUMED, log entry 16] -/
def hstRows : List RegRow :=
  [ .reg "HST_PCI_ID" 0x40 1 8 .ro 0 0 false,
    .reg "HST_LINK" 0x48 1 8 .ro 0 0 false,
    .reg "HST_WIN_BASE" 0x50 1 8 .rw 0xFFFFFFFF00003F02 0 false,
    .reg "HST_WIN_ERR_CNT" 0x58 1 8 .rc 0 0 true,
    .reg "HST_WIN_LAST_ERR" 0x60 1 8 .ro 0 0 false,
    .reg "HST_BOOT_CFG" 0x68 1 8 .rw 1 0 false,
    .reg "HST_BOOT_LEN" 0x70 1 8 .rw 0x7FFFFF 0 false,
    .reg "HST_BOOT_CTRL" 0x78 1 8 .wo 0 0 false,
    .reg "HST_BOOT_STATUS" 0x80 1 8 .ro 0 0 false,
    .reg "HST_MB_CMD" 0x88 1 8 .rw 0xFFFFFFFF000000FF 0 false,
    .reg "HST_MB_CTRL" 0x90 1 8 .wo 0 0 false,
    .reg "HST_MB_STATUS" 0x98 1 8 .ro 0 0 false,
    .reg "HST_MB_IGNORED_CNT" 0xA0 1 8 .rc 0 0 true,
    .reg "HST_I3C_CFG" 0xA8 1 8 .rw 0xFFFF00000003 0x6400000003 false,
    .reg "HST_I3C_STATUS" 0xB0 1 8 .ro 0 0 false,
    .reg "HST_MB_IN" 0x1000 512 8 .rw 0xFFFFFFFFFFFFFFFF 0 false,
    .reg "HST_MB_RSP" 0x2000 512 8 .ro 0 0 false,
    .reg "HST_MB_OUT" 0x3000 512 8 .ro 0 0 false,
    .reg "MSIX_TABLE" 0x100000 1024 8 .rw 0 0 false,
    .reg "MSIX_PBA" 0x102000 8 8 .ro 0 0 false ]

/-- The registers of a sec page after the common window, as its chapter tables them. -/
def secRows : List RegRow :=
  [ .reg "SEC_ID_KEY_ID" 0x40 1 8 .ro 0 0 false,
    .reg "SEC_FW_VERSION" 0x48 1 8 .ro 0 0 false,
    .reg "SEC_SVN" 0x50 1 8 .ro 0 0 false,
    .reg "SEC_OWNER_KEY_k" 0x58 4 8 .ro 0 0 false,
    .reg "SEC_DEBUG" 0x78 1 8 .ro 0 0 false,
    .reg "SEC_OPS_CNT" 0x80 1 8 .ro 0 0 true,
    .reg "SEC_FW_REJECT_CNT" 0x88 1 8 .rc 0 0 true ]
/-- The rows of a kind of page. -/
def Kind.rows : Kind → List RegRow
  | .dev => devRows
  | .clk => clkRows
  | .pwr => pwrRows
  | .tile => tileRows
  | .spn => spnRows
  | .arr => arrRows
  | .vu => vuRows
  | .mov => movRows
  | .enc => encRows
  | .cry => cryRows
  | .port => portRows
  | .swc => swcRows
  | .sch => schRows
  | .pan => panRows
  | .col => colRows
  | .bob => bobRows
  | .log => recRows
  | .hbm => hbmRows
  | .cxl => cxlRows
  | .hst => hstRows
  | .sec => secRows

/-- Does a row hold the register at an offset of the page? -/
def RegRow.holds (r : RegRow) (rel : Nat) : Bool :=
  r.off ≤ rel && (rel - r.off) % r.stride == 0 && (rel - r.off) / r.stride < r.n

/-- The row of the register at an offset of a page; none for an unoccupied offset (R8). -/
def rowAt (k : Kind) (rel : Nat) : Option RegRow := k.rows.find? fun r => r.holds rel

/-- The row of a register by its BAR0 offset. -/
def rowOf (off : Nat) : Option RegRow :=
  match locate off with
  | some (p, rel) => rowAt p.kind rel
  | none => none

/-- The reset value of the register at a BAR0 offset, the common window included (Tables 1-10 and 1-14). [DESIGN CHOICE, log entry 8] -/
def resetVal (off : Nat) : W64 :=
  match locate off with
  | none => 0
  | some (p, rel) =>
    if rel = 0x030 then (if hasEngine p.blk then 0x1000000 else 0)
    else match rowAt p.kind rel with
      | some r =>
        if r.name = "MSIX_TABLE" then (if rel / 8 % 2 = 1 then 0x100000000 else 0) else BitVec.ofNat 64 r.reset
      | none => 0

end Sys2Proof.Machine
end

