-- ==== Sys2Proof/Machine/State.lean ====
section
/-!
DEFINITION. The state of the CX96 as plain data: every register, table, queue, counter, mode and pin that the spec gives the
device, the outbox of what the device has sent, and the queue of commands that wait. Every numbered thing is kept in a sparse
table whose unlisted entries hold the reset record. State.reset is the device at the deassertion of SYS_RESET_N.
-/
namespace Sys2Proof.Machine

/-- Why a command stops. No command of this model faults: every row of the table has an effect in the spec. -/
inductive Fault where
  /-- Raised by nobody; it stands so that the type is not empty. Safe. -/
  | unused
  deriving DecidableEq, Repr

/-- Why a command has no meaning. -/
inductive Refusal where
  /-- Raised by the arm of a command whose meaning is not modelled yet. Safe: nothing is claimed of it. -/
  | notModelled (mnemonic : String)
  deriving DecidableEq, Repr

/-! ## Power domains (chapter 14) -/

/-- The states a vote can resolve to (R311, R313). -/
inductive Lvl where
  | off | ret | on
  deriving DecidableEq, Repr

/-- The order OFF < RET < ON (R311). -/
def Lvl.rank : Lvl → Nat
  | .off => 0
  | .ret => 1
  | .on => 2

/-- The lower of two states. -/
def Lvl.min (a b : Lvl) : Lvl := if a.rank ≤ b.rank then a else b

/-- The state applied to a domain (PWR_DOM_d.applied, Table 14-7). Waiting to ramp is OFF or RET below the target. -/
inductive DSt where
  | off
  | ret
  | on
  /-- An entry from `frm` to `to` that started in CCLK cycle `c` (R317); `aborted` once a rise has stopped it. -/
  | entering (frm dest : Lvl) (c : Nat) (aborted : Bool)
  /-- A ramp from `frm` toward `to` (R318). -/
  | ramping (frm dest : Lvl)
  deriving DecidableEq, Repr

/-- What happened to a domain in this cycle (R312, R317, R318). -/
inductive DEvt where
  | leftOn | reachedRet | reachedOff | onFromOff | onFromRet | returned
  deriving DecidableEq, Repr

/-- One power domain: its eight vote slots packed as PWR_DOM_d packs them, and its applied state. -/
structure Dom where
  votes : Nat := 0
  st : DSt := .off
  lastSlot : Nat := 0
  lastAbort : Bool := false
  deriving DecidableEq, Repr

/-! ## Blocks (chapters 01 and 15) -/

/-- The ladder step of a block in progress, with the CCLK cycle in which it began (R336). -/
inductive LStep where
  | idle
  | engine (t : Nat)
  | cycle (t : Nat)
  deriving DecidableEq, Repr

/-- The common window of a block beyond its RW registers (R22 to R27), and its place in the reset ladder (R336). [DEDUCED, log entry 20] -/
structure Blk where
  fault : W64 := 0
  ack : W64 := 0
  eff : Table Nat := []
  last : Nat := 0
  hung : Bool := false
  step : LStep := .idle
  testing : Bool := false
  inject : Table Nat := []
  progress : Nat := 0
  /-- Bits of `fault` at S3 since whose report a ladder step of the block has ended in success (R334). -/
  mended : W64 := 0
  /-- The last successful step: its number, its end and its duration in CCLK cycles (R336). -/
  okStep : Option (Nat × Nat × Nat) := none
  /-- The CCLK cycle of the last FAULT_REPORT sent for the block (R342). -/
  notified : Option Nat := none
  deriving DecidableEq, Repr

/-! ## The recorder (chapter 16) -/

/-- An event as captured (R350, Table 16-1). `ctx` carries the context and its harvest number. `live` is false for a report
that is only recorded (R332); `mask` says whether it may be acknowledged and notified. -/
structure Evt where
  kind : Nat
  code : Nat
  blk : Nat
  inst : Nat
  sev : Nat
  escalated : Bool := false
  injected : Bool := false
  ctx : Option (Nat × Nat) := none
  time : Nat := 0
  epoch : Nat := 0
  detail : W64 := 0
  live : Bool := true
  deriving DecidableEq, Repr

/-- A log slot that is not empty: an entry with its sequence number, or a lost entry (R356). -/
inductive Slot where
  | entry (seq : Nat) (e : Evt)
  | lost
  deriving DecidableEq, Repr

/-- The recorder: its input queue, its log and the sequence number given most recently (R350 to R353). -/
structure Rec where
  q : List Evt := []
  log : Table Slot := []
  /-- What the slots written in this CCLK cycle held before it (R354). -/
  was : Table (Option Slot) := []
  head : Nat := 0
  epoch : Nat := 0
  deriving DecidableEq, Repr

/-! ## Messages and what leaves the device -/

/-- A message from Osaux to Quilan (Table 15-7, R167, R342). -/
inductive QMsg where
  | faultReport (chip blk det sev seq : Nat) (ctx : Option (Nat × Nat))
  | recoveryReport (chip blk step result : Nat)
  | deviceDown (chip : Nat) (cause : W64)
  | deviceReady (chip fw : Nat) (plan : W64) (duration : Nat)
  | portState (chip port : Nat) (state : W64)
  deriving DecidableEq, Repr

/-- What one STREAM does to one accumulator entry (R113): NaN, an infinity, the largest magnitude of a sign (R115), or the group
sums to add in order; with the marks that count in ARR_SCALE_FLUSH_CNT and ARR_SCALE_SAT_CNT. -/
inductive EntrySum where
  | nan (sat : Bool)
  | inf (neg : Bool) (sat : Bool)
  | sat (neg : Bool)
  | sums (gs : List Fp) (flush : Bool)
  deriving DecidableEq, Repr

/-! ## Tiles: spindle, vector unit, encoder, movers and arrays (chapters 03 to 05) -/

/-- One of the 256 tallies of a tile (R64 to R67). -/
structure Tally where
  count : Nat := 0
  err : Bool := false
  deriving DecidableEq, Repr

/-- A vector operation in flight (R55): the result computed at issue, written at issue plus latency. `enc` counts what an ENCODE
adds at its completion (R121): flushed, overflowed, zero blocks, NaN blocks. [DESIGN CHOICE, log entry 45] -/
structure VRes where
  op : Nat
  vd : Nat
  val : List W32
  second : Option (Nat × List W32) := none
  tally : Nat := 255
  flushed : Nat := 0
  enc : Option (Nat × Nat × Nat × Nat) := none
  /-- The operation read an uncorrectable Y word (Y_UE), or lost its encoder data: it fails. -/
  bad : Bool := false
  deriving DecidableEq, Repr

/-- A descriptor queued or running at a mover (R59 to R61): the rows written so far. [DESIGN CHOICE, log entry 46] -/
structure MovOp where
  desc : Nat
  tally : Nat
  bytes : List Byte
  /-- The descriptor's own number, by which the completions of its requests name it. -/
  ser : Nat := 0
  /-- The rows issued so far: rows issue in ascending order (R140). -/
  issued : Nat := 0
  /-- The rows that the mover has been commanded to write, and the pieces read of remote rows. -/
  asked : List Nat := []
  parts : Table (List Byte) := []
  /-- Rows read and not yet written. -/
  got : Table (List Byte) := []
  /-- Pieces of remote rows that no completion has answered yet. -/
  need : Table (List Nat) := []
  written : List Nat := []
  counted : Nat := 0
  deriving DecidableEq, Repr

/-- A mover: its queue, the running descriptor first. -/
structure Mover where
  /-- The descriptors queued so far. -/
  serial : Nat := 0
  q : List MovOp := []
  aborting : Bool := false
  deriving DecidableEq, Repr

/-- An entry of a tile's expect table (R63). -/
structure Expect where
  group : Nat
  seq : Nat
  desc : Nat
  bytes : List Byte
  left : Nat
  tally : Nat
  deriving DecidableEq, Repr

/-- The wait that holds a bundle (R64): the tally, the count, whether TAKE subtracts it, and whether the bundle at the PC holds it
(true) or a sync command of its own (false). [DEDUCED, log entry 37] -/
structure Hold where
  tally : Nat
  n : Nat
  take : Bool
  prog : Bool
  deriving DecidableEq, Repr

/-- A tile. `spn` is SPN_STATE.state: 0 IDLE, 1 RUN, 2 WAIT, 3 MISS, 4 HARVEST, 5 HALTED, 6 ERROR, 7 STOPPING. [DESIGN CHOICE, log entry 8, DESIGN CHOICE, log entry 79] -/
structure Tile where
  ctx : Nat := 0
  gen : Nat := 0
  active : Bool := false
  linkUp : Bool := false
  spn : Nat := 0
  pc : Nat := 0
  waitT : Nat := 0
  hold : Option Hold := none
  /-- The loop stack, innermost first: first bundle of the body and the count (R69). -/
  loops : List (Nat × Nat) := []
  base : Nat := 0
  len : Nat := 0
  /-- Program cache: for each line, the bundle index of its first bundle (R70). -/
  cache : Table Nat := []
  /-- The line being filled was uncorrectable once already (R70). -/
  refill : Bool := false
  tallies : Table Tally := []
  expects : List Expect := []
  y : Table (List W32) := []
  vu : List VRes := []
  /-- The registers that the function pipe wrote in the ACLK cycle in hand (R55). -/
  vs1 : List Nat := []
  /-- The ACLK cycles of this CCLK cycle that commands of the spindle have stood for (R72). -/
  ac : Nat := 0
  movs : Table Mover := []
  deriving DecidableEq, Repr

/-- An array operation (Table 3-2): its kind (1 WLOAD, 2 STREAM, 3 STREAM_CLR, 4 DRAIN), its descriptor and tally, its place in
the array's issue order, and the number of shape changes it comes after (R81). A running STREAM holds what it does to each
accumulator entry of its rows, row by row (R113). [DESIGN CHOICE, log entry 40] -/
structure ArrOp where
  kind : Nat
  desc : Nat
  tally : Nat
  bytes : List Byte
  seq : Nat
  epoch : Nat
  sums : List EntrySum := []
  /-- The granules of 64 B that a running DRAIN has written. -/
  wrote : Nat := 0
  deriving DecidableEq, Repr

/-- A weight set: the class it holds, its format after expansion, and its elements with their scale codes, weight row by weight
row; elements that are not listed are +0. [DESIGN CHOICE, log entry 8] -/
structure WSet where
  cls : Option Nat := none
  fmt : Nat := 1
  elems : List (Nat × Nat) := []
  deriving DecidableEq, Repr

/-- One operation queue of an array: half 0 in F shapes, halves 1 and 2 in S2 (R85). `gate` is 0 gated, 1 streaming, 2 free-spin; `lead` and
`left` are the ACLK cycles until its row window opens, and those in which rows are still to enter (R88). [DESIGN CHOICE, log entry 40, DESIGN CHOICE, log entry 43] -/
structure Half where
  q : List ArrOp := []
  run : List ArrOp := []
  stopped : Bool := false
  nextSet : Nat := 0
  lastSet : Nat := 0
  gate : Nat := 0
  lead : Nat := 0
  left : Nat := 0
  deriving DecidableEq, Repr

/-- A matrix array. `next` holds the shapes still to change to, oldest first (R81); `epoch` counts the changes done, and `seq`
the operations issued. `acc` holds the accumulator entries that are not +0 by half, bank, row and column, packed. -/
structure Arr where
  shape : Nat := 0
  next : List Nat := []
  reconf : Bool := false
  epoch : Nat := 0
  seq : Nat := 0
  halves : Table Half := []
  sets : Table WSet := []
  acc : Table W32 := []
  /-- Marked closing, its teardown not yet reported complete (R96). -/
  tearing : Bool := false
  /-- The 64-cycle harvest clear runs (R97). -/
  clearing : Bool := false
  empty : Bool := true
  deriving DecidableEq, Repr

/-! ## Fabric ports (chapter 07) -/

/-- A lane: off, electrical idle or active (0, 1, 2), its FOM, its clock recovery lock, and its ten trims in the order of
LANE_TRIM (Table 7-11). [DESIGN CHOICE, log entry 8] -/
structure Lane where
  st : Nat := 0
  fom : Nat := 0
  locked : Bool := false
  trims : List Int := []
  /-- The lane table entry in force, empty where there is none, and the CCLK cycle of the last TRIM_LIMIT (R158, R159). -/
  entry : List Byte := []
  limitAt : Option Nat := none
  deriving DecidableEq, Repr

/-- A chunk that a receiver assembles from a ring's pinned positions: the flits received, and their bytes (R195). -/
structure PinRx where
  got : Nat := 0
  bytes : List Byte := []
  deriving DecidableEq, Repr

/-- A packet in an output queue, with the port it arrived on, the CCLK cycle in which its residence began and the flits that waited
ahead of it (R184), its bobbin and the class that holds it (R178, R218), and its place in the queue's order. -/
structure QPkt where
  pkt : Pkt
  frm : Option Nat
  since : Nat
  ahead : Nat := 0
  cls : Nat := 1
  bob : Nat := 0
  ord : Nat := 0
  deriving DecidableEq, Repr

/-- One scheduler node of a port (R205, R206, R208): its list, its tags, and the bytes its bucket lacks of its depth. [DESIGN CHOICE, log entry 69] -/
structure Node where
  q : List QPkt := []
  last : Nat := 0
  base : Nat := 0
  eligible : Bool := false
  used : Nat := 0
  deriving DecidableEq, Repr

/-- A fabric port. `st` is PORT_STATE.state: 0 OFF, 1 TRAINING, 2 HELLO, 3 UP, 4 UP_IDLE, 5 QUARANTINED, 6 HELD_DOWN, 7 ABSENT,
8 UNUSED, 9 RETRAIN. [DEDUCED, log entry 32, DESIGN CHOICE, log entry 79] -/
structure Port where
  st : Nat := 0
  cause : Nat := 0
  attempts : Nat := 0
  /-- RETRAIN: in its HELLO part (true) or its TRAINING part. -/
  trained : Bool := false
  lanes : Table Lane := []
  txSlot : Nat := 0
  rxSlot : Option Nat := none
  /-- Consecutive frames discarded (R163). -/
  lostRun : Nat := 0
  /-- Consecutive identical hellos, and the last of them (R164). -/
  hellos : Nat := 0
  hello : Option Hello := none
  /-- The port's own verdict, and the neighbour's (Table 7-6). -/
  verdict : Option Nat := none
  peer : Option Nat := none
  /-- The verdict UP has been sent since it was computed (R166). -/
  told : Bool := false
  /-- The neighbour's chip and port before the loss (R163). -/
  nbr : Option (Nat × Nat) := none
  /-- Re-evaluating in UP (R169). -/
  reeval : Bool := false
  /-- The default path of the lane table at the group's power-up (R151), and the CCLK cycle from which idle_time counts (R161). -/
  path : Nat := 0
  traffic : Nat := 0
  eiSent : Bool := false
  eiStop : Bool := false
  /-- The exit of R162 is in progress. -/
  exiting : Bool := false
  /-- Control flits that wait for a free position 0. -/
  ctls : List Ctl := []
  rx : Table PinRx := []
  /-- VC buffers by 2 × ring + VC (R190), and the chunk each ring is sending: its VC and the flits sent (R193). -/
  vcs : Table (List Chunk) := []
  tx : Table (Nat × Nat) := []
  /-- Scheduler nodes, and the virtual times of the eight subscriber levels and, at 8, of the service level (R206). -/
  nodes : Table Node := []
  vt : Table Nat := []
  /-- The packet selected that did not fit into the frame (R206). -/
  sel : Option QPkt := none
  deriving DecidableEq, Repr

/-! ## The switch core (chapter 08) -/

/-- What a request's completion goes to: the unit itself, a granule of a host access, which holds a bobbin of class 5 (R363), or a part of a
row of a mover's operation, read or written (R61): tile, mover, the operation's serial number, the row and the part. -/
inductive ReqFor where
  | unit
  | host (tlp gran bob : Nat)
  | row (t m op row part : Nat)
  deriving DecidableEq, Repr

/-- The bobbin of host-window staging. -/
def ReqFor.bob : ReqFor → Option Nat
  | .unit => none
  | .host _ _ b => some b
  | .row _ _ _ _ _ => none

/-- A retransmission record (R186). -/
structure Req where
  unit : Nat
  pkt : Pkt
  tries : Nat := 0
  use : ReqFor := .unit
  deriving DecidableEq, Repr

/-- A head that waits in an ingress stage: where it came from, and how often it was evaluated (R176). -/
structure Stage where
  frm : Option Nat
  pkt : Pkt
  evals : Nat
  since : Nat
  deriving DecidableEq, Repr

/-- An early arrival held under R141, in its bobbin of class REORDER. [DEDUCED, log entry 54] -/
structure Early where
  pkt : Pkt
  bob : Nat
  deriving DecidableEq, Repr

/-- The switch core, the sources and the targets of loose requests. -/
structure Swc where
  /-- The active bank, a pending swap, its last result and the swaps completed (RTE_STATUS). -/
  bank : Nat := 0
  pend : Bool := false
  result : Nat := 0
  swaps : Nat := 0
  heldAt : Option Nat := none
  met : Bool := false
  /-- rate[c], the eighths of a byte each bucket lacks, the SCLK cycle of the last cut, and the classes cut in this interval. -/
  rate : Table Nat := []
  lack : Table Nat := []
  lastCut : Table Nat := []
  cut : List Nat := []
  rcCfg : W64 := 0x0000064000000440
  rcLim : W64 := 0x000000004B000004
  stages : List Stage := []
  reqs : List Req := []
  /-- Requests that wait at their source, in order, with their unit (R189). -/
  waitq : List (Nat × LReq × ReqFor) := []
  tags : Table Nat := []
  /-- Sequence counters by source unit, target chip and context, and expected numbers by source chip, unit and context (R141). -/
  seqs : Table Nat := []
  exps : Table Nat := []
  early : List Early := []
  /-- Requests of movers that have ended in this cycle, with their status and data. -/
  ended : List (ReqFor × Nat × List Byte) := []
  deriving DecidableEq, Repr

/-! ## Collectives and pans (chapters 10 and 11) -/

/-- One chunk slot of an instance (Table 11-4). `st` is the code of PAN_STATES_n. Wide elements are 192-bit codes of the accumulator
(R251); other elements are codes of the chunk's format. -/
structure PSlot where
  st : Nat := 1
  /-- The quarters it takes, numbered in the quadrant (R248). -/
  quarters : List Nat := []
  /-- The chunk, the half and whether the slot serves a gather traversal. -/
  key : Option (Nat × Nat × Bool) := none
  /-- The member at which the traversal began. -/
  origin : Nat := 0
  /-- The local contribution, and whether an element of it overflows (R252). -/
  loc : Option (List Nat) := none
  big : Bool := false
  /-- The arrival: version, limbs received, lowest limb, element codes, confirmed flag, check passed, version that failed, aux. -/
  ver : Nat := 0
  limbs : Table (List Nat) := []
  lo : Nat := 0
  codes : Option (List Nat) := none
  conf : Bool := false
  passed : Bool := false
  failed : Option Nat := none
  aux : Nat := 0
  /-- The version of a CONFIRM that came before its data (R263). -/
  confirmHeld : Option Nat := none
  /-- The CCLK cycle in which the arrival's head came, and the slowest member it names (R236). -/
  came : Nat := 0
  slow : Nat := 0
  slowWait : Nat := 0
  /-- The output: version, chunks formed, chunks that wait for a credit or for room, whether a credit was taken, and what the successor accepted. -/
  ovf : Nat := 0
  out : List Chunk := []
  wait : List Chunk := []
  credited : Bool := false
  /-- The CCLK cycle in which the slot emitted its last wire chunk, and whether its own output has been formed. -/
  sentAt : Option Nat := none
  formed : Bool := false
  dataOk : Bool := false
  acked : Bool := false
  /-- Resends requested, and the most that PAN_CFG allowed when the slot was made (R266). -/
  asked : Nat := 0
  retryMax : Nat := 4
  /-- The VC on which the arrival came (R191). -/
  vc : Nat := 0
  /-- Chunks that came while the restore after a retract ran (R264). -/
  held : List Chunk := []
  /-- The result has been formed from this slot's chunk, and the bytes that an endpoint may write. -/
  done : Bool := false
  result : Option (List Byte) := none
  writtenBy : List Nat := []
  deriving DecidableEq, Repr

/-- A start: the issuing tile, the fabric slot (1 SEND, 2 EXPECT, 3 JOIN), its descriptor and its tally; a crystallizer's start names
its group entry and, for a norm, holds the chunk. `rest` says that an EXPECT's last increment is due (R243). -/
structure Start where
  tile : Nat
  kind : Nat
  bytes : List Byte
  tally : Nat
  cry : Option Nat := none
  data : List Byte := []
  rest : Bool := false
  deriving DecidableEq, Repr

/-- An instance of (group, seq) at this device (R234). -/
structure Inst where
  op : Nat
  operator : Nat
  fmt : Nat
  wbase : Int := 0
  aux : Nat := 0
  starts : List Start := []
  slots : List PSlot := []
  /-- Local chunks (or halves) pulled, those that began a traversal here, chunk slots freed, and slots sent to the successor (R234). -/
  pulled : Nat := 0
  began : Nat := 0
  freed : Nat := 0
  sent : Nat := 0
  /-- Chunk, half and traversal of the slots that were freed. -/
  finished : List (Nat × Nat × Bool) := []
  /-- Slots the successor has freed, as its last CREDIT said. -/
  credit : Nat := 0
  /-- CONFIRMs that came before any chunk of theirs, as chunk, half and version (R263). -/
  confirms : List (Nat × Nat × Nat) := []
  /-- The slowest member among the chunks that ended here (R236). -/
  slow : Option Nat := none
  slowWait : Nat := 0
  /-- Chunks delivered, or bytes (R243). -/
  delivered : Nat := 0
  /-- Broadcast: packets held, as 16 × chunk + part; members that answered; members fenced at the start; resends (R240). -/
  packets : List Nat := []
  answered : List Nat := []
  fenced : List Nat := []
  resends : Nat := 0
  /-- All-to-all: counts received by source; bytes received by source as (offset, length); sources complete; destinations done; resends
  by destination; bytes dropped; whether data has moved (R241). -/
  counts : Table (List Nat) := []
  pieces : Table (List (Nat × Nat)) := []
  srcDone : List Nat := []
  dstDone : List Nat := []
  dstTries : Table Nat := []
  dropped : Nat := 0
  moved : Bool := false
  /-- The bobbin of class COLLECTIVE that stages the data of a destination until its A2A_DONE (Table 9-8). -/
  staged : Table Nat := []
  deriving DecidableEq, Repr

/-- A group's state at this device (GRP_STATE_g). `ended` lists sequences after base that have ended; `failed` the member of the first
failure (R238). [DEDUCED, log entry 60] -/
structure Grp where
  auto : Nat := 0
  base : Nat := 0
  ended : List Nat := []
  failed : Option Nat := none
  prog : Nat := 0
  /-- The bytes received by broadcasts that completed, by harvest number and sequence; the sequences and ports for which FENCE_PRUNE was
  reported (R240). -/
  bcast : Table Nat := []
  pruned : List (Nat × Nat) := []
  deriving DecidableEq, Repr

/-! ## The crystallizer (chapter 12) -/

/-- One owner group in flight: its norm chunk, the norm result or the failure, and its place (R282, R287). `st`: 0 norm pass, 1 norm
collective, 2 norm result landed, 3 decided for update, 4 update pass, 5 multicast, 6 complete. -/
structure CryGrp where
  st : Nat := 0
  /-- Elements processed in the current pass. -/
  at_ : Nat := 0
  /-- Lane sums of w² and u² as binary64 codes. -/
  sw : List Nat := []
  su : List Nat := []
  bad : Bool := false
  /-- The result: status and the four elements used, as FP32 codes. -/
  res : Option (Nat × Nat × Nat × Nat × Nat) := none
  /-- The scalars of the update pass: c1, c2 and s as FP32 codes, r as binary64. -/
  c1 : Nat := 0
  c2 : Nat := 0
  s : Nat := 0
  r : Nat := 0
  /-- η(τ) of the schedule as it was read when the norm pass started (R278), as binary64. -/
  eta : Nat := 0
  /-- The new masters of the forward-copy block that the update pass has begun and not ended, as FP32 codes (R283). -/
  tail : List Nat := []
  flushed : Nat := 0
  ovf : Nat := 0
  deriving DecidableEq, Repr

/-- A crystallizer. `st` is CRY_STATE.state: 0 IDLE, 1 NORM, 2 UPDATE, 3 DONE, 4 STOPPED. -/
structure Cry where
  st : Nat := 0
  cur : Nat := 0
  /-- The harvest runs, with step_failed and skip_on_fail both set (R296). -/
  active : Bool := false
  skip : Bool := false
  nextOwner : Nat := 0
  groups : Table CryGrp := []
  /-- Replica entries that have issued, and those complete. -/
  issued : List Nat := []
  done : List Nat := []
  /-- Step counters and torn bits, by group; an unlisted one is t0 of its entry. -/
  steps : Table (Nat × Bool) := []
  deriving DecidableEq, Repr

/-! ## Memory controllers and CXL ports (chapter 06) -/

/-- An access that awaits its CXL.mem completion (R144), and who asked. [DESIGN CHOICE, log entry 47] -/
structure CxlReq where
  off : Nat
  len : Nat
  data : Option (List Byte)
  host : Option (Nat × Nat) := none
  pkt : Option Pkt := none
  /-- Its bobbin of class CXL, and that of class TARGET of an inbound remote request. -/
  bob : Nat := 0
  tgt : Option Nat := none
  deriving DecidableEq, Repr

/-- A CXL port: link state (0 off, 1 training, 2 up, 3 failed), rate and width, whether Osaux has enumerated it since the link came up,
and the accesses outstanding. -/
structure Cxl where
  st : Nat := 0
  rate : Nat := 0
  width : Nat := 0
  used : Bool := false
  reqs : List CxlReq := []
  deriving DecidableEq, Repr

/-- An HBM stack: trained, above 95 °C, its temperature. [DESIGN CHOICE, log entry 8] -/
structure Hbm where
  trained : Bool := false
  hot : Bool := false
  temp : Nat := 0
  deriving DecidableEq, Repr

/-! ## Contexts and harvest control (chapters 09 and 13) -/

/-- One context (Tables 9-6 and 13-1). -/
structure Ctx where
  /-- 0 FREE, 1 OPEN, 2 CLOSING, 3 STUCK. -/
  st : Nat := 0
  gen : Nat := 0
  harvest : Nat := 0
  stage : Nat := 0
  /-- 1 REQUEST, 2 PROGRAM_FAULT, 3 IMAGE_LOST. -/
  cause : Nat := 0
  tiles : Nat := 0
  priv : Bool := false
  sub : Nat := 64
  /-- The CCLK cycle in which teardown began. -/
  closedAt : Nat := 0
  /-- 0 STEP, 1 DRAIN, 2 CRYSTALLIZE, 3 SETTLE, 4 CLEAR, 5 HOLD. -/
  phase : Nat := 0
  /-- Assigned tiles that have reported step end (HRV_STATE_c). -/
  stepped : Nat := 0
  /-- An instance of the context ended at this device in this step with a status other than OK or PARTIAL (R296). -/
  failedInst : Bool := false
  stepFailed : Bool := false
  timerAt : Nat := 0
  timedOut : Bool := false
  /-- Held for a harvest load or a swap at harvest (R44, R197). -/
  held : Bool := false
  /-- CLEAR found residue (R295). -/
  residue : Bool := false
  deriving DecidableEq, Repr

/-! ## The host port, the boot path and the security block (chapter 17) -/

/-- The firmware Osaux runs: its version, the neighbour versions it accepts, its security version and its SHA-384
(Table 17-3). -/
structure Fw where
  version : Nat
  lowest : Nat
  highest : Nat
  svn : Nat
  hash : List Byte
  deriving DecidableEq, Repr

/-- An installed fabric plan (Table 17-8). -/
structure Plan where
  hash : List Byte
  chip : Nat
  machine : Nat
  key : Nat
  expect : List W64
  deriving DecidableEq, Repr

/-- SPI flash (Table 17-4): the firmware image, the board lane table and the certificate chain. [DESIGN CHOICE, log entry 17] -/
structure Flash where
  fw : List Byte := []
  lane : List Byte := []
  cert : List Byte := []
  deriving DecidableEq, Repr

/-- A BAR2 access in progress (R364): its offset, its length, the granules that are outstanding, what each read granule returned, and the
status of the first that failed. -/
structure HostTlp where
  off : Nat
  n : Nat
  write : Bool
  left : List Nat
  parts : Table (List Byte) := []
  fail : Option Nat := none
  deriving DecidableEq, Repr

/-- The host port, the mailbox, the boot path and the security block. [DESIGN CHOICE, log entry 17, DESIGN CHOICE, log entry 89] -/
structure Hst where
  /-- HST_BOOT_STATUS.state: 0 ROM, 1 VERIFYING, 2 WAITING_HOST, 3 RUNNING. -/
  boot : Nat := 0
  reason : Nat := 0
  fromHost : Bool := false
  staging : Table Byte := []
  fw : Option Fw := none
  svnMin : Nat := 0
  /-- HST_MB_STATUS.state: 0 IDLE, 1 BUSY, 2 DONE. -/
  mb : Nat := 0
  mbResult : Nat := 0
  mbLen : Nat := 0
  mbOut : List QMsg := []
  mbPlaced : Bool := false
  mbDropped : Nat := 0
  mbSerial : Nat := 0
  /-- The HBM range a mailbox command staged, protected until DONE (R370). -/
  mbRange : Option (Nat × Nat) := none
  /-- The owner public keys by slot, uncompressed points of 97 bytes; an empty slot holds none (R372). -/
  keys : Table (List Byte) := []
  /-- The owner key store in flash (R372). -/
  keyFlash : Table (List Byte) := []
  /-- The Malbor firmware key hash in the fuses (R367). -/
  fwKey : List Byte := Config.fwKeyHash
  debug : Bool := false
  debugSecs : Nat := 0
  nonce : Nat := 0
  plan : Option Plan := none
  flash : Flash := {}
  /-- BAR2 accesses in progress, by serial number. -/
  tlps : Table HostTlp := []
  tlpNext : Nat := 0
  /-- The board lane table that Osaux holds (R158). -/
  lane : List Byte := []
  deriving DecidableEq, Repr

/-! ## The device global block and the loader (chapters 01, 02 and 15) -/

/-- A self-test that is pending or running, and the result of the last (Table 15-12, DEV_TEST_STATUS). -/
structure SelfTest where
  code : Nat := 0
  inst : Nat := 0
  ctx : Nat := 0
  /-- 0 idle, 1 pending harvest, 2 running, 3 ended. -/
  state : Nat := 0
  /-- 0 PASS, 1 FAIL, 2 BUSY, 3 NOT_TAGGABLE, 4 ABANDONED, 5 BAD_TARGET. -/
  status : Nat := 0
  /-- It runs at a harvest (R346). -/
  tagged : Bool := false
  elem : Nat := 0
  deriving DecidableEq, Repr

/-- The device global block. `phase` is the device reset phase of Table 15-6, 0 outside one. -/
structure Dev where
  down : Bool := false
  phase : Nat := 0
  s4At : Nat := 0
  romRestart : Bool := false
  osaux : Bool := false
  /-- Device resets since SYS_RESET_N (Table 17-9). -/
  resets : Nat := 0
  test : SelfTest := {}
  deriving DecidableEq, Repr

/-- A section of a structure image: its type, its instance and its body, section header included (R32, R34). -/
structure Section where
  typ : Nat
  inst : Nat
  body : List Byte
  deriving DecidableEq, Repr

/-- A structure image: its header, its sections in directory order and its SHA-384 (R30, R32, R43). -/
structure Image where
  hdr : List Byte := []
  secs : List Section := []
  hash : List Byte := []
  deriving DecidableEq, Repr

/-- The loader (Table 2-5). `stage`, `reason`, `section` and `index` are the fields of DEV_LOAD_STATUS. [DESIGN CHOICE, log entry 79] -/
structure Loader where
  /-- 0 IDLE, 1 CHECKING, 2 PENDING_HARVEST, 3 COMMITTING, 4 LOADED, 5 REFUSED. -/
  state : Nat := 0
  stage : Nat := 0
  reason : Nat := 0
  sect : Nat := 0
  index : Nat := 0
  value : Nat := 0
  limit : Nat := 0
  /-- The request is a harvest load. -/
  atHarvest : Bool := false
  cancel : Bool := false
  img : Option Image := none
  /-- The container as stage 1 read it. -/
  raw : List Byte := []
  /-- The V0 votes to restore after the commit, by domain (R316). -/
  v0 : List (Nat × Nat) := []
  /-- The context that the request names has been held (R44). -/
  met : Bool := false
  /-- No image is in force, while the structure of the last one stands until every context is FREE (R399). -/
  gone : Bool := false
  /-- The commit copy runs (the domains of R316 are ON). -/
  copying : Bool := false
  /-- The CCLK cycle of the first hold. -/
  heldAt : Option Nat := none
  deriving DecidableEq, Repr

/-! ## Pins, clocks and what leaves the device -/

/-- The pins and clocks (Tables 18-3, 14-1, 14-13). `rst` is 0 while SYS_RESET_N is low, 1 once it is high with the root PLL
not yet locked, 2 once the root PLL has locked and the ROM has started. [DESIGN CHOICE, log entry 9] -/
structure Pins where
  pwrEn : Bool := true
  pwrGood : Bool := true
  /-- The PD_MGMT rails failed while PWR_EN was high: off until PWR_EN goes low (R390). -/
  railFailed : Bool := false
  rst : Nat := 1
  /-- PERST_N is low. -/
  perst : Bool := true
  /-- WAKE_N is low. -/
  wakeLow : Bool := false
  /-- DEV_CHIP.rack_pos as sampled (R389). -/
  rack : Nat := 63
  refclk : Bool := false
  /-- Bit i: PLL i locked (CLK_STATUS, R326). -/
  pll : Nat := 0
  /-- The hottest sensor stands at or above the warning level (R323). -/
  tempWarn : Bool := false
  /-- temp_warn is held by an injection for one power interval (Table 15-8). -/
  warnInj : Bool := false
  /-- The throttle duty in force up to the end of run `dutyRun` of 64 ACLK cycles, and the duty from the next run on (R322). -/
  duty : Nat := 0
  dutySet : Nat := 0
  dutyRun : Nat := 0
  deriving DecidableEq, Repr

/-- What leaves the device, or is answered to whoever asked. [DESIGN CHOICE, log entry 78] -/
inductive Out where
  /-- A frame that a fabric port sends (R155). -/
  | frame (p : Nat) (f : Frame)
  /-- A loose or tree packet that a port's scheduler sends (R206). -/
  | packet (p : Nat) (k : Pkt)
  /-- A training burst on a port (R162, R168). -/
  | burst (p : Nat)
  /-- A management message delivered to Osaux. -/
  | message (k : Pkt)
  /-- The data of a register read. -/
  | readData (src : Src) (off : Nat) (v : W64)
  /-- The completion of a context's own access to the register block: its status and, for a read, its data (R20). -/
  | regDone (ctx off st : Nat) (v : W64)
  /-- A BAR0 read answered with Completer Abort (R361). -/
  | abort (off : Nat)
  /-- An MSI-X message. -/
  | msix (vec : Nat)
  /-- A message placed in HST_MB_OUT, with the count of messages dropped before it (R370). -/
  | quilan (m : QMsg) (dropped : Nat)
  /-- Registers that Osaux writes to the BMC over I3C (R377), and the PMBus writes of R378: command code and raw value. -/
  | i3c (code : Nat) (v : Nat)
  /-- A BAR2 read's data, or none for Completer Abort (R363, R364). -/
  | bar2 (off : Nat) (data : Option (List Byte))
  deriving DecidableEq, Repr

/-! ## The state -/

/-- The CX96. [DESIGN CHOICE, log entry 2, DESIGN CHOICE, log entry 79] -/
structure State where
  /-- The commands that wait, first in first out. -/
  pending : List Instr := []
  /-- What the device has sent: read data, completions, packets, frames, messages. Newest last. -/
  out : List Out := []
  /-- The number of values the model has drawn where the spec leaves a value open. The model's own field. -/
  free : Nat := 0
  /-- CCLK cycles since the root PLL locked: REC_TIME.time. -/
  cclk : Nat := 0
  pins : Pins := {}
  /-- Registers by BAR0 offset; an unlisted register holds its reset value (Regs.lean). -/
  regs : Table W64 := []
  /-- Counters counted in the current CCLK cycle: what each held before, and what the cycle has counted since it was last read (R9). -/
  cyc : Table (W64 × W64) := []
  /-- W1C bits that hardware set in the current CCLK cycle, by register offset (R9). -/
  newBits : Table W64 := []
  blks : Table Blk := []
  doms : Table Dom := []
  /-- The CCLK cycle in which the last ramp of any domain started (R318). -/
  lastRamp : Option Nat := none
  rcd : Rec := {}
  /-- Events captured, vectors requested and ladder steps due in the current cycle (R328, R350, R336). -/
  newEvts : List Evt := []
  newVecs : List Nat := []
  newSteps : List (Nat × Nat) := []
  /-- Domain transitions of the current cycle whose effects are due: the domain and what happened to it (Power.lean). -/
  newDoms : List (Nat × DEvt) := []
  /-- The domain or context that the last report of a detector of Table 15-5 concerned, by 64 × block + detector. -/
  faultOf : Table Nat := []
  dev : Dev := {}
  ld : Loader := {}
  /-- The structure image in force (R29). -/
  img : Option Image := none
  hst : Hst := {}
  tiles : Table Tile := []
  arrs : Table Arr := []
  ctxs : Table Ctx := []
  ports : Table Port := []
  /-- The paths that the last committed image selected, bit g for group g; none since power-up (R151). -/
  paths : Option Nat := none
  swc : Swc := {}
  /-- Shapers changed at run time: in force, and taking effect at the next refill, by node (R209). -/
  shapes : Table (Nat × Nat) := []
  newShapes : Table (Nat × Nat) := []
  /-- Bobbins retired, those of the reserved VC buffers, and the bitmap's failure (R220, R221). -/
  retired : List Nat := []
  vcBobs : List Nat := []
  bitmapBad : Bool := false
  /-- Bobbins a word of which changed since it was written, with what the next read of it finds (R221). -/
  bobUps : Table Ecc := []
  insts : Table Inst := []
  grps : Table Grp := []
  crys : Table Cry := []
  cxls : Table Cxl := []
  hbms : Table Hbm := []
  /-- The words of memory with bits in error, by the device offset of the word (R135). -/
  upsets : Table Upset := []
  /-- Memory by device offset; a byte that is not listed lies in a word that reads as uncorrectable (R130, R134). -/
  mem : List Host.Cell := []
  /-- Stacks whose unlisted bytes hold an undefined value, with the epoch of the interleave change (R133). -/
  undef : Table Nat := []
  /-- The interleave in force: striped, or local (R131). -/
  striped : Bool := false
  deriving DecidableEq, Repr

/-- The votes at SYS_RESET_N deassertion: V0 holds ON for domains 1 to 5 and 20 to 83 (R321). [DESIGN CHOICE, log entry 9] -/
def Dom.reset (d : Nat) : Dom :=
  if d = 0 then { st := .on } else if d < 6 || (20 ≤ d && d ≤ 83) then { votes := 3 } else {}

/-- The device at the deassertion of SYS_RESET_N: every table at its reset record. [DESIGN CHOICE, log entry 8, DESIGN CHOICE, log entry 9] -/
def State.reset : State := {}

end Sys2Proof.Machine
end

