-- ==== Sys2Proof/Machine/Flags.lean ====
section
/-!
DEFINITION. Registers as stored, counters (R10, Table 16-5), the state of a domain and of a block, the capture of recorder
events (R350), MSI-X vectors (R365), and the report of a detector with its escalation (R24, R328 to R332).
-/
namespace Sys2Proof.Machine

/-! ## Registers as stored -/

/-- The stored value of a register. -/
def State.rg (s : State) (off : Nat) : W64 := (s.regs.find off).getD (resetVal off)

/-- A register set to a value. -/
def State.setRg (s : State) (off : Nat) (v : W64) : State := { s with regs := s.regs.set off v }

/-- Hardware counts in a register: it takes what `f` makes of it, and the cycle remembers what it held before and what was counted in
the cycle alone (R9). -/
def State.count (s : State) (off : Nat) (f : W64 → W64) : State :=
  let x := s.cyc.get (s.rg off, 0) off
  { s.setRg off (f (s.rg off)) with cyc := s.cyc.set off (x.1, f x.2) }

/-- Add to a saturating counter of `w` bits at bit `lo` of a register. -/
def State.sat (s : State) (off lo w n : Nat) : State :=
  s.count off fun x =>
    let c := fld x.toNat lo w
    BitVec.ofNat 64 (x.toNat - c * 2 ^ lo + satAdd w c n * 2 ^ lo)

/-- Add to a wrapping counter of `w` bits at bit 0 of a register. -/
def State.wrap (s : State) (off w n : Nat) : State :=
  s.count off fun x => BitVec.ofNat 64 (wrapAdd w x.toNat n)

/-- A high-water register (Table 16-5, class peak). -/
def State.peak (s : State) (off n : Nat) : State :=
  s.count off fun x => if x.toNat < n then BitVec.ofNat 64 n else x

/-- Hardware sets bits of a W1C register in this cycle (R9). -/
def State.setsBits (s : State) (off : Nat) (v : W64) : State :=
  { s with newBits := s.newBits.set off (s.newBits.get 0 off ||| v) }

/-- The bits of a W1C register that a write of 1 clears: those that hardware has not set in this cycle (R9). -/
def State.clearable (s : State) (off : Nat) (v : W64) : W64 := v &&& ~~~(s.newBits.get 0 off)

/-- The BAR0 offset of a register of the device global page. -/
def devR (r : Nat) : Nat := r

/-- The BAR0 offset of a register in a block's page. -/
def blkR (b r : Nat) : Nat := (pageOf b).base + r

/-- Send something out. [DESIGN CHOICE, log entry 78] -/
def State.emit (s : State) (o : Out) : State := { s with out := s.out ++ [o] }

/-- Draw a value that the spec leaves open. [DESIGN CHOICE, log entry 10] -/
def State.draw (s : State) : W64 × State := (Config.freeWord s.free, { s with free := s.free + 1 })

/-! ## Domains and blocks -/

/-- The record of a domain. -/
def State.dom (s : State) (d : Nat) : Dom := (s.doms.find d).getD (Dom.reset d)

/-- A domain's record replaced. -/
def State.setDom (s : State) (d : Nat) (x : Dom) : State := { s with doms := s.doms.set d x }

/-- The domain is ON. Domain 0 never leaves ON (Table 14-2). -/
def State.domOn (s : State) (d : Nat) : Bool := d == 0 || (s.dom d).st == .on

/-- The domain is in a CCLK cycle c to c + 2 of an entry, before its detector outputs are clamped (R332). -/
def State.domLeaving (s : State) (d : Nat) : Bool :=
  match (s.dom d).st with
  | .entering _ _ c _ => decide (s.cclk ≤ c + 2)
  | _ => false

/-- The record of a block. -/
def State.blk (s : State) (b : Nat) : Blk := s.blks.get {} b

/-- A block's record replaced. -/
def State.setBlk (s : State) (b : Nat) (x : Blk) : State := { s with blks := s.blks.set b x }

/-- BLK_STATUS.in_reset (Table 1-12, R336, R347): a ladder step or a test of the block is in progress. [DEDUCED, log entry 24] -/
def State.inReset (s : State) (b : Nat) : Bool := (s.blk b).step != .idle || (s.blk b).testing

/-- The highest effective severity among set fault bits (Table 1-12). -/
def Blk.severity (k : Blk) (n : Nat) : Nat :=
  maxOf ((List.range n).map fun d => if k.fault.bit d then k.eff.get 0 d else 0)

/-- A block at effective S3 or hung. [DEDUCED, log entry 24] -/
def State.inS3 (s : State) (b : Nat) : Bool := (s.blk b).hung || decide (3 ≤ (s.blk b).severity (detCount b))

/-- A block that works: its domain is ON, it is in no reset, and the device is not down or the block lies in PD_MGMT
(Table 15-6, phase 1). [DEDUCED, log entry 24] -/
def State.up (s : State) (b : Nat) : Bool :=
  s.domOn (blkDom b) && !s.inReset b && (!s.dev.down || blkDom b == 0)

/-- Which ladder step a detector that reached S3 starts, and on which block (Table 15-5). -/
def s3Step (b d : Nat) : Option (Nat × Nat) :=
  if b = 0 ∧ d = 8 then none
  else if b = 4 ∧ d = 1 then none
  else if b = 2 ∧ (d = 0 ∨ d = 1) then none
  else if b = 6 ∧ d = 2 then some (b, 2)
  else if b = 1 ∧ d = 4 then some (8, 1)
  else some (b, 1)

/-- A block that is down and has not been reset since (Table 15-1): it hangs, or an S3 fault of its own waits for the ladder. [DEDUCED, log entry 24] -/
def State.broken (s : State) (b : Nat) : Bool :=
  let k := s.blk b
  k.hung || (List.range (detCount b)).any fun d =>
    k.fault.bit d && decide (3 ≤ k.eff.get 0 d) && !k.mended.bit d && (match s3Step b d with | some (j, _) => j == b | none => false)

/-- A block that works: an array is down as long as it is in S3 (R95), any other block until its reset. [DEDUCED, log entry 24] -/
def State.ok (s : State) (b : Nat) : Bool :=
  s.up b && !(if (pageOf b).kind == .arr then s.inS3 b else s.broken b)

/-- One unit of work completed (Table 1-14): 32 bits, wraps. -/
def State.progress (s : State) (b : Nat) : State :=
  s.setBlk b { s.blk b with progress := wrapAdd 32 (s.blk b).progress 1 }

/-- The device is powered and out of reset, so that it acts at all (R386, R391). [DESIGN CHOICE, log entry 9] -/
def State.alive (s : State) : Bool := s.pins.pwrGood && s.pins.rst != 0

/-- A context's record. -/
def State.ctx (s : State) (c : Nat) : Ctx := s.ctxs.get {} c

/-- A context's record replaced. -/
def State.setCtx (s : State) (c : Nat) (x : Ctx) : State := { s with ctxs := s.ctxs.set c x }

/-- The image in force (R29): none while a lost image's structure still stands (R399). -/
def State.inForce (s : State) : Option Image := if s.ld.gone then none else s.img

/-- Every context is FREE. -/
def State.allFree (s : State) : Bool := s.ctxs.all fun c => c.2.st == 0

/-- DEV_STATE.quiescent (Table 1-17, R213). -/
def State.quiescent (s : State) : Bool := s.dev.osaux && s.allFree

/-- DEV_CHIP.chip_number (R126). -/
def State.chip (s : State) : Nat := match s.hst.plan with | some p => p.chip | none => 0

/-- DEV_MODE.deterministic. -/
def State.deterministic (s : State) : Bool := (s.rg (devR 0x050)).bit 0

/-! ## MSI-X (R365) -/

/-- The vector is masked in the MSI-X table. [PRESUMED, log entry 16] -/
def State.vecMasked (s : State) (v : Nat) : Bool := (s.rg (blkR 8 (0x100000 + 16 * v + 8))).bit 32

/-- Signal a vector: send it, or set its PBA bit where it is masked. [PRESUMED, log entry 16, DEDUCED, log entry 84] -/
def State.msix (s : State) (v : Nat) : State :=
  if s.vecMasked v then
    let o := blkR 8 (0x102000 + 8 * (v / 64))
    s.setRg o (s.rg o ||| bitMask (v % 64))
  else s.emit (.msix v)

/-- Request a block's vector in this cycle; a block sends at most one message a cycle (R328). [DEDUCED, log entry 21] -/
def State.wantVec (s : State) (v : Nat) : State :=
  if s.newVecs.contains v then s else { s with newVecs := s.newVecs ++ [v] }

/-! ## Events and reports -/

/-- Capture an event (R350). -/
def State.capture (s : State) (e : Evt) : State :=
  { s with newEvts := s.newEvts ++ [{ e with inst := (if e.kind = 4 ∧ e.code = 5 then e.inst else (pageOf e.blk).inst),
                                              time := s.cclk % 2 ^ 56, epoch := s.rcd.epoch }] }

/-- A state-change entry (kind 4, Table 16-2). [DESIGN CHOICE, log entry 22] -/
def State.note (s : State) (b code : Nat) (detail : W64) : State :=
  s.capture { kind := 4, code := code, blk := b, inst := 0, sev := 0, detail := detail, live := false }

/-- What a report carries beside its detector. -/
structure Rpt where
  injected : Bool := false
  ctx : Option Nat := none
  detail : W64 := 0

/-- The context of a report with its harvest number (Table 16-1). -/
def State.evtCtx (s : State) (c : Option Nat) : Option (Nat × Nat) := c.map fun k => (k, (s.ctx k).harvest)

/-- What a report of a detector of Table 15-5 concerns: its domain, or its context. -/
def State.faultNames (s : State) (b d n : Nat) : State := { s with faultOf := s.faultOf.set (64 * b + d) n }

/-- A ladder step is due on a block (R336): 1 or 2; 0 is an engine reset that no new S3 of the block asks for. -/
def State.wantStep (s : State) (b step : Nat) : State := { s with newSteps := s.newSteps ++ [(b, step)] }

/-- An S4 takes the device down in the same cycle (Table 15-6, phase 1 and the start of phase 2). -/
def State.s4 (s : State) (b d : Nat) (software : Bool) : State :=
  if s.dev.down then s
  else
    let cause : W64 := putBit 63 true ||| putBit 40 software ||| put 8 b ||| put 0 d
    let rom := (b == 0 && d == 11) || (b == 1 && (d == 0 || d == 1))
    let s := { s with dev := { s.dev with down := true, phase := 2, s4At := s.cclk, romRestart := rom } }
    let s := (s.setRg (devR 0x168) cause).note 0 6 cause
    if s.dev.osaux then { s with hst := { s.hst with mbOut := s.hst.mbOut ++ [.deviceDown s.chip cause], mb := 0 } } else s

/-- The report of detector `d` of block `b` (R24, R328, R330, R332). [DEDUCED, log entry 20] -/
def State.flag (s : State) (b d : Nat) (r : Rpt := {}) : State :=
  let base := detBase b d
  let evt : Evt := { kind := 0, code := d, blk := b, inst := 0, sev := base, injected := r.injected,
                     ctx := s.evtCtx r.ctx, detail := r.detail, live := false }
  if s.dev.down then s.capture evt
  else if s.domLeaving (blkDom b) then s.capture evt
  else if !s.domOn (blkDom b) then s
  else
    let k := s.blk b
    let outstanding := k.fault.bit d && !k.ack.bit d
    let eff := if outstanding then min 4 (k.eff.get base d + 1) else base
    let s := s.setBlk b { k with fault := k.fault ||| bitMask d, ack := k.ack &&& ~~~(bitMask d), last := d,
                                 eff := k.eff.set d eff, mended := k.mended &&& ~~~(bitMask d) }
    let s := s.setsBits (blkR b 0x010) (bitMask d)
    let s := s.capture { evt with sev := eff, escalated := decide (base < eff), live := true }
    let s := if (s.rg (blkR b 0x018)).bit d then s else s.wantVec b
    if eff = 4 then s.s4 b d false
    else if eff = 3 then
      match s3Step b d with
      | some (k, n) => s.wantStep k n
      | none => s
    else s

/-- Take one injected failure of a detector, if any is pending (R26, R344). [DESIGN CHOICE, log entry 23] -/
def State.takeInject (s : State) (b d : Nat) : Bool × State :=
  match (s.blk b).inject.get 0 d with
  | 0 => (false, s)
  | n + 1 => (true, s.setBlk b { s.blk b with inject := (s.blk b).inject.set d n })

/-- A detector tests its condition: `real` is whether it holds, and a pending injection makes it hold (R344). When it holds, the
detector reports. Answers whether it failed. [DESIGN CHOICE, log entry 23] -/
def State.detect (s : State) (b d : Nat) (real : Bool) (r : Rpt := {}) : Bool × State :=
  let (inj, s) := s.takeInject b d
  if real || inj then (true, s.flag b d { r with injected := inj && !real }) else (false, s)

/-- A register-access fault or an Osaux note (R329): a recorder entry, and for ACCESS_SIZE a count. -/
def State.regFault (s : State) (b code kind sev : Nat) (detail : W64) : State :=
  s.capture { kind := kind, code := code, blk := b, inst := 0, sev := sev, detail := detail, live := false }

/-- ACCESS_SIZE on a block's behalf (R6, R170, R329): an S1 entry whose detail is the BAR0 offset with bit 63 for the fabric. -/
def State.sizeFault (s : State) (b off : Nat) (fabric : Bool := false) : State :=
  (s.regFault b 1 2 1 (putBit 63 fabric ||| put 0 off)).sat (devR 0x198) 0 32 1

/-! ## Messages to Quilan -/

/-- Osaux queues a message for Quilan: up to 64, more are dropped and counted (R370). -/
def State.tell (s : State) (m : QMsg) : State :=
  if !s.dev.osaux then s
  else if 64 ≤ s.hst.mbOut.length then { s with hst := { s.hst with mbDropped := s.hst.mbDropped + 1 } }
  else { s with hst := { s.hst with mbOut := s.hst.mbOut ++ [m] } }

/-- Place the next message in HST_MB_OUT where none stands there, and signal vector 257 (R370). [DESIGN CHOICE, log entry 14] -/
def State.placeOut (s : State) : State :=
  match s.hst.mbPlaced, s.hst.mbOut with
  | false, m :: rest =>
    let s' := s.emit (.quilan m s.hst.mbDropped)
    { s' with hst := { s'.hst with mbOut := rest, mbPlaced := true, mbDropped := 0, mbSerial := s'.hst.mbSerial + 1 } }.msix 257
  | _, _ => s

/-- The FAULT_REPORT of an event at or above min_sev, at most one a block an interval (R342). [DEDUCED, log entry 21] -/
def State.notify (s : State) (e : Evt) (seq : Nat) : State :=
  let cfg := s.rg (devR 0x170)
  if !e.live || e.sev < cfg.fld 32 3 || !s.dev.osaux then s
  else
    let k := s.blk e.blk
    let fresh := match k.notified with
      | none => true
      | some t => decide (t + cfg.fld 0 32 ≤ s.cclk)
    if fresh then
      (s.setBlk e.blk { k with notified := some s.cclk }).tell
        (.faultReport s.chip e.blk e.code e.sev seq e.ctx)
    else s.sat (devR 0x178) 0 32 1

/-- Hardware acknowledges an S0 or S1 report whose DEV_AUTO_ACK bit is set (R331). [DEDUCED, log entry 20] -/
def State.autoAck (s : State) (e : Evt) : State :=
  if e.live && e.kind == 0 && e.sev < 2 && (s.rg (devR 0x140)).bit e.sev then
    let k := s.blk e.blk
    s.setBlk e.blk { k with ack := k.ack ||| (k.fault &&& bitMask e.code) }
  else s

/-- The order of the events of one cycle: block, then kind, then code (R350). [DEDUCED, log entry 21] -/
def Evt.before (a b : Evt) : Bool :=
  if a.blk ≠ b.blk then decide (a.blk < b.blk)
  else if a.kind ≠ b.kind then decide (a.kind < b.kind)
  else decide (a.code < b.code)

/-- Insert an event in the order of R350, after its equals. -/
def Evt.insert (e : Evt) : List Evt → List Evt
  | [] => [e]
  | x :: xs => if e.before x then e :: x :: xs else x :: Evt.insert e xs

/-- One captured event enters the recorder's input queue, or is dropped where 1,024 wait (R350). [DEDUCED, log entry 21] -/
def State.enqueue (s : State) (e : Evt) : State :=
  if s.rcd.q.length < 1024 then { s with rcd := { s.rcd with q := s.rcd.q ++ [e] } }
  else ((s.sat (blkR 7 0x068) 0 32 1).notify e 0).autoAck e

/-- The events and vectors of the cycle leave their blocks (R328, R350). [DEDUCED, log entry 21] -/
def State.flush (s : State) : State :=
  let es := s.newEvts.foldl (fun l e => Evt.insert e l) []
  let vs := s.newVecs
  let s := { s with newEvts := [], newVecs := [] }
  let s := es.foldl State.enqueue s
  (vs.foldl State.msix s).placeOut

end Sys2Proof.Machine
end

