-- ==== Sys2Proof/Machine/Tally.lean ====
section
/-!
DEFINITION. Tallies, failed operations and the spindle's ERROR state (R64 to R67, R72), which every engine of a tile uses.
-/
namespace Sys2Proof.Machine

/-- A tile's record. -/
def State.tile (s : State) (t : Nat) : Tile := s.tiles.get {} t

/-- A tile's record replaced. -/
def State.setTile (s : State) (t : Nat) (x : Tile) : State := { s with tiles := s.tiles.set t x }

/-- Change a tile's record. -/
def State.modTile (s : State) (t : Nat) (f : Tile → Tile) : State := s.setTile t (f (s.tile t))

/-- A tally of a tile. -/
def State.tally (s : State) (t k : Nat) : Tally := (s.tile t).tallies.get {} k

/-- A tally replaced. -/
def State.setTally (s : State) (t k : Nat) (x : Tally) : State := s.modTile t fun y => { y with tallies := y.tallies.set k x }

/-- Block indices of a tile (Table 1-9). -/
def spnBlk (t : Nat) : Nat := 73 + 10 * t
/-- The tile common block. -/
def tileBlk (t : Nat) : Nat := 72 + 10 * t
/-- The vector unit's block. -/
def vuBlk (t : Nat) : Nat := 78 + 10 * t
/-- The movers' block. -/
def movBlk (t : Nat) : Nat := 79 + 10 * t
/-- The encoder's block. -/
def encBlk (t : Nat) : Nat := 80 + 10 * t
/-- The crystallizer's block. -/
def cryBlk (t : Nat) : Nat := 81 + 10 * t

/-- Write SPN_FAULT_PC and SPN_FAULT_CAUSE (Table 3-15). -/
def State.spnCause (s : State) (t cause tally : Nat) : State :=
  (s.setRg (blkR (spnBlk t) 0x080) (put 0 ((s.tile t).pc % 2 ^ 24))).setRg (blkR (spnBlk t) 0x088) (put 8 cause ||| put 0 tally)

/-- The detail of a spindle report (Table 16-3). -/
def State.spnDetail (s : State) (t : Nat) : W64 :=
  put 32 ((s.rg (blkR (spnBlk t) 0x088)).fld 0 12) ||| put 0 ((s.rg (blkR (spnBlk t) 0x080)).fld 0 24)

/-- A spindle detector reports with its cause written. -/
def State.spnReport (s : State) (t det cause tally : Nat) (inj : Bool := false) : State :=
  let s := s.spnCause t cause tally
  s.flag (spnBlk t) det { injected := inj, ctx := some (s.tile t).ctx, detail := s.spnDetail t }

/-- The states from which a fault sends the spindle to ERROR (Table 3-11). [DEDUCED, log entry 39] -/
def Tile.canFail (x : Tile) : Bool := x.spn == 1 || x.spn == 2 || x.spn == 3 || x.spn == 4

/-- The spindle enters ERROR: cause and report, and vector 259 + c (Table 17-2). -/
def State.spnError (s : State) (t det cause tally : Nat) (inj : Bool := false) : State :=
  if (s.tile t).canFail then
    let s := s.spnReport t det cause tally inj
    (s.modTile t fun x => { x with spn := 6 }).msix (259 + (s.tile t).ctx)
  else s

/-- Increment a tally (R64, R65). [DEDUCED, log entry 39] -/
def State.tallyAdd (s : State) (t k n : Nat) : State :=
  let x := s.tally t k
  let (inj, s) := s.takeInject (spnBlk t) 4
  if x.count + n < 2 ^ 32 && !inj then s.setTally t k { x with count := x.count + n }
  else (s.setTally t k { count := min (x.count + n) (2 ^ 32 - 1), err := true }).spnReport t 4 3 k inj

/-- An operation completes: its tally increments, unless it names none or the teardown has begun (R73). [DEDUCED, log entry 39] -/
def State.opDone (s : State) (t k : Nat) : State := if k = 255 || (s.tile t).spn == 7 then s else s.tallyAdd t k 1

/-- An operation fails (R66): error flag and increment, or ERROR where it names no tally. [DEDUCED, log entry 39] -/
def State.opFail (s : State) (t k : Nat) : State :=
  if (s.tile t).spn = 7 then s
  else
    let (inj, s) := s.takeInject (spnBlk t) 6
    if k = 255 || inj then s.spnError t 6 6 255 (k != 255)
    else (s.setTally t k { s.tally t k with err := true }).tallyAdd t k 1

end Sys2Proof.Machine
end

