-- ==== Sys2Proof/Machine/Mem.lean ====
section
/-!
DEFINITION. Memory: the offset map (R125), the interleave (R131), reads and writes of bytes with the words that read as
uncorrectable (R130, R134, R137), the loss of a memory's contents, and the reports and counters of reads (R136, R137, R138).
-/
namespace Sys2Proof.Machine

/-- The offset of a device address (R125). -/
def addrOff (a : Nat) : Nat := a % 2 ^ 50

/-- The chip of a device address (R125). -/
def addrChip (a : Nat) : Nat := a / 2 ^ 50

/-- Where an offset lies (Table 6-1). -/
inductive Place where
  | hbm (stack loc : Nat)
  | store (t off : Nat)
  | cxl (c off : Nat)
  | regs (off : Nat)
  | unmapped
  deriving DecidableEq, Repr

/-- 48 GiB, the size of one stack. -/
def stackSize : Nat := 0xC00000000

/-- The stack and location of an HBM offset (R131). -/
def stackOf (striped : Bool) (o : Nat) : Nat × Nat :=
  if striped then (o / 4096 % 8, o / 32768 * 4096 + o % 4096) else (o / stackSize, o % stackSize)

/-- The base of tile store t in the offset map. -/
def storeBase (t : Nat) : Nat := 0x8000000000 + t * 0x80000000

/-- The place of an offset (Table 6-1). -/
def State.place_ (s : State) (o : Nat) : Place :=
  if o < 0x6000000000 then let p := stackOf s.striped o; .hbm p.1 p.2
  else if o < 0x8000000000 then .unmapped
  else if o < 0x8400000000 then .store ((o - 0x8000000000) / 0x80000000) ((o - 0x8000000000) % 0x80000000)
  else if o < 0x100000000000 then .unmapped
  else if o < 0x180000000000 then .cxl 0 (o - 0x100000000000)
  else if o < 0x200000000000 then .cxl 1 (o - 0x180000000000)
  else if o < 0x3FFFFFC000000 then .unmapped
  else if o < 0x4000000000000 then .regs (o - 0x3FFFFFC000000)
  else .unmapped

/-- The byte at an offset as it was written: none where its word has never been written. Unlisted bytes of the CXL tier, and of an
HBM stack after the interleave changed (R133), hold a value that the spec leaves open. [DESIGN CHOICE, log entry 7, DESIGN CHOICE, log entry 15] -/
def State.rawByte (s : State) (o : Nat) : Option Byte :=
  match Table.find s.mem o with
  | some b => some b
  | none => match s.place_ o with
    | .cxl _ _ => some (Config.undefByte 0 o)
    | .hbm k _ => match s.undef.get 0 k with
      | 0 => none
      | e => some (Config.undefByte e o)
    | _ => none

/-- The word of an offset. -/
def wordOf (o : Nat) : Nat := o / 8 * 8

/-- The byte at an offset as a read delivers it: none where it lies in a word that reads as uncorrectable (R130, R135, R137). [DESIGN CHOICE, log entry 7] -/
def State.byteAt (s : State) (o : Nat) : Option Byte :=
  match s.upsets.find (wordOf o) with
  | some .uncorrectable => none
  | some .late => none
  | some (.wrong x) => (s.rawByte o).map fun b => b ^^^ BitVec.ofNat 8 (x.fld (8 * (o % 8)) 8)
  | _ => s.rawByte o

/-- `n` bytes from an offset, or none where one of them is uncorrectable. [DESIGN CHOICE, log entry 7] -/
def State.rd (s : State) (o : Nat) : Nat → Option (List Byte)
  | 0 => some []
  | n + 1 => match s.byteAt o, s.rd (o + 1) n with
    | some b, some bs => some (b :: bs)
    | _, _ => none

/-- The 64-bit word of an offset reads as correctable. [DESIGN CHOICE, log entry 7] -/
def State.wordOk (s : State) (o : Nat) : Bool := (s.rd (o / 8 * 8) 8).isSome

/-- One byte stored. [DESIGN CHOICE, log entry 7] -/
def memSet (m : List Host.Cell) (o : Nat) (b : Byte) : List Host.Cell := Table.set m o b

/-- Bytes stored from an offset on. [DESIGN CHOICE, log entry 7] -/
def memPut : List Host.Cell → Nat → List Byte → List Host.Cell
  | m, _, [] => m
  | m, o, b :: bs => memPut (memSet m o b) (o + 1) bs

/-- The pieces of a write within one 64-bit word each. -/
def wordPieces (o : Nat) (bs : List Byte) : Nat → List (Nat × List Byte)
  | 0 => []
  | f + 1 =>
    if bs.isEmpty then []
    else
      let n := 8 - o % 8
      (o, bs.take n) :: wordPieces (o + n) (bs.drop n) f

/-- Words change (R135). [DESIGN CHOICE, log entry 6] -/
def State.upset (s : State) (l : Upsets) : State := l.foldl (fun s x => { s with upsets := s.upsets.set (wordOf x.1) x.2 }) s

/-- A word's upset is gone. -/
def State.calm (s : State) (w : Nat) : State := { s with upsets := s.upsets.drop fun k => k == w }

/-- The word as a read delivered it is written back (R136); one that reads as uncorrectable stays as it is (R137). -/
def State.heal (s : State) (w : Nat) : State :=
  match s.upsets.find w, s.rd w 8 with
  | some (.wrong _), some bs => { s.calm w with mem := memPut s.mem w bs }
  | _, some _ => s.calm w
  | _, none => s

/-- A piece of a write is performed unless it is shorter than a word and the word reads as uncorrectable (R137). A write of a whole word
replaces it; a shorter one is made in the word that a read delivers. -/
def State.wrPiece (s : State) (p : Nat × List Byte) : State :=
  if p.2.length = 8 then { s.calm p.1 with mem := memPut s.mem p.1 p.2 }
  else if s.wordOk p.1 then let s := s.heal (wordOf p.1); { s with mem := memPut s.mem p.1 p.2 }
  else s

/-- A write, word by word. [DESIGN CHOICE, log entry 7] -/
def State.wr (s : State) (o : Nat) (bs : List Byte) : State :=
  (wordPieces o bs (bs.length + 1)).foldl State.wrPiece s

/-- The words of the pieces of a write that are shorter than a word. [DESIGN CHOICE, log entry 7] -/
def partWords (o : Nat) (bs : List Byte) : List Nat :=
  ((wordPieces o bs (bs.length + 1)).filter fun p => p.2.length != 8).map fun p => wordOf p.1

/-- The contents of a range of offsets are lost. [DESIGN CHOICE, log entry 7] -/
def State.forget (s : State) (p : Nat → Bool) : State :=
  { s with mem := s.mem.filter (fun c => !p c.1), upsets := s.upsets.drop p }

/-- Tile store t loses its contents (R130). -/
def State.forgetStore (s : State) (t : Nat) : State :=
  s.forget fun o => storeBase t ≤ o && o < storeBase t + 0x80000000

/-- HBM stack n loses its contents: its words read as uncorrectable (R134). -/
def State.forgetStack (s : State) (n : Nat) : State :=
  let s := { s with undef := s.undef.drop fun k => k == n }
  let st := s.striped
  s.forget fun o => o < 0x6000000000 && (stackOf st o).1 == n

/-- The block and domain that serve an offset, where one does. -/
def Place.blk : Place → Option Nat
  | .hbm k _ => some (16 + k)
  | .store t _ => some (tileBlk t)
  | .cxl c _ => some (14 + c)
  | _ => none

/-- The granules of 64 B that an access touches (R139). -/
def granules (o n : Nat) : List Nat :=
  if n = 0 then [] else (List.range ((o + n - 1) / 64 - o / 64 + 1)).map fun i => (o / 64 + i) * 64

/-- The 64-bit words that an access touches. -/
def wordsOf (o n : Nat) : List Nat :=
  if n = 0 then [] else (List.range ((o + n - 1) / 8 - o / 8 + 1)).map fun i => (o / 8 + i) * 8

/-- The blocks that serve an access, in the order of its granules. -/
def State.servers (s : State) (o n : Nat) : List Nat := ((granules o n).filterMap fun g => (s.place_ g).blk).eraseDups

/-- The part of an access that falls in one granule counts in the volume counters of Tables 6-8, 6-10 and 6-12, and as one access of
64 B (R146, R147). -/
def State.volume1 (write : Bool) (o n : Nat) (s : State) (g : Nat) : State :=
  let k := min (g + 64) (o + n) - max g o
  match s.place_ g with
  | .store t _ => s.wrap (blkR (tileBlk t) (if write then 0x0A8 else 0x0A0)) 64 k
  | .hbm c _ => (s.wrap (blkR (16 + c) (if write then 0x080 else 0x078)) 64 k).progress (16 + c)
  | .cxl c _ => (s.wrap (blkR (14 + c) (if write then 0x080 else 0x078)) 64 k).progress (14 + c)
  | _ => s

/-- An access counts granule by granule. -/
def State.volume (s : State) (o n : Nat) (write : Bool) : State := (granules o n).foldl (State.volume1 write o n) s

/-- Write an error-address register, unless it holds an uncorrectable record and this is a corrected one (R136). [DESIGN CHOICE, log entry 50] -/
def State.errAddr (s : State) (r : Nat) (unc : Bool) (v : Nat) : State :=
  if !unc && (s.rg r).bit 63 && (s.rg r).bit 62 then s
  else s.count r fun _ => putBit 63 true ||| putBit 62 unc ||| put 0 v

/-- The registers of a memory's errors: its block, its CE and UE counters, its error-address register, and the place of a word in it. -/
def State.errRegs (s : State) (o : Nat) : Option (Nat × Nat × Nat × Nat × Nat) :=
  match s.place_ o with
  | .store t w => some (tileBlk t, blkR (tileBlk t) 0x050, blkR (tileBlk t) 0x058, blkR (tileBlk t) 0x088, wordOf w)
  | .hbm k w => some (16 + k, blkR (16 + k) 0x048, blkR (16 + k) 0x050, blkR (16 + k) 0x058, wordOf w)
  | _ => none

/-- One corrected word (R136): it counts, its address is written, and it is written back. -/
def State.wordCe (s : State) (w : Nat) : State :=
  match s.errRegs w with
  | some (_, ce, _, ea, v) => ((s.sat ce 0 32 1).errAddr ea false v).heal w
  | none => s

/-- One uncorrectable word (R137): it counts, its address is written, and it stays as it is. -/
def State.wordUe (s : State) (w : Nat) : State :=
  match s.errRegs w with
  | some (_, _, ue, ea, v) => (s.sat ue 0 32 1).errAddr ea true v
  | none => s

/-- The corrected words of one access to one memory: each counts, and the detector reports once (R136, Table 6-5). [DESIGN CHOICE, log entry 50] -/
def State.memCe (s : State) (ws : List Nat) (inj : Bool := false) : State :=
  match ws.getLast? with
  | none => s
  | some w => match s.errRegs w with
    | some (b, _, _, _, v) => (ws.foldl State.wordCe s).flag b 0 { detail := putBit 63 true ||| put 0 v, injected := inj }
    | none => s

/-- The uncorrectable words of one access to one memory: each counts, and the detector `det` reports once, 1 for a read and 2 for the
scrub (R137, R138). [DESIGN CHOICE, log entry 50] -/
def State.memUe (s : State) (ws : List Nat) (det : Nat) (inj : Bool := false) : State :=
  match ws.getLast? with
  | none => s
  | some w => match s.errRegs w with
    | some (b, _, _, _, v) =>
      (ws.foldl State.wordUe s).flag b det { detail := putBit 63 true ||| putBit 62 true ||| put 0 v, injected := inj }
    | none => s

/-- CXL_ERR_ADDR (Table 6-12). -/
def cxlErr (timeout : Bool) (off : Nat) : W64 := putBit 63 true ||| putBit 62 timeout ||| put 0 (off % 2 ^ 43)

/-- A poisoned response at port c (R144). -/
def State.cxlPoison (s : State) (c o : Nat) (inj : Bool := false) : State :=
  let v := cxlErr false o
  ((s.sat (blkR (14 + c) 0x060) 0 32 1).setRg (blkR (14 + c) 0x070) v).flag (14 + c) 1 { detail := v, injected := inj }

/-- An access at port c that no completion answered (R144). -/
def State.cxlTimeout (s : State) (c o : Nat) (inj : Bool := false) : State :=
  let v := cxlErr true o
  ((s.sat (blkR (14 + c) 0x068) 0 32 1).setRg (blkR (14 + c) 0x070) v).flag (14 + c) 2 { detail := v, injected := inj }

/-- A flit that the link layer of port c replayed (Table 6-13). -/
def State.cxlRetry (s : State) (c : Nat) (inj : Bool := false) : State :=
  (s.sat (blkR (14 + c) 0x058) 0 32 1).flag (14 + c) 0 { injected := inj }

/-- The controllers of an access's memory work: a read issued to a block at S3 or in reset fails, and a write is not performed (R336). [DEDUCED, log entry 49] -/
def State.memOk (s : State) (o n : Nat) : Bool := (s.servers o n).all fun b => b == 14 || b == 15 || s.ok b

/-- The words of an access that a block serves. -/
def State.wordsAt (s : State) (o n b : Nat) : List Nat := (wordsOf o n).filter fun w => (s.place_ w).blk == some b

/-- What one memory answers to a read of the words `ws` in it: 0, READ_UE (3), or REMOTE_FAIL (2) where the CXL tier gives no completion. -/
def State.readBlk (s : State) (ws : List Nat) (b : Nat) : Nat × State :=
  let first := ws.take 1
  if b = 14 ∨ b = 15 then
    let c := b - 14
    let at_ := ws.headD 0
    let is := fun (u : Upset) => ws.find? fun w => s.upsets.find w == some u
    let (jr, s) := s.takeInject b 0
    let (jp, s) := s.takeInject b 1
    let (jt, s) := s.takeInject b 2
    let s := match is .corrected with
      | some w => (s.calm w).cxlRetry c
      | none => if jr then s.cxlRetry c true else s
    match is .late, is .uncorrectable with
    | some w, _ => (2, (s.calm w).cxlTimeout c w)
    | none, some w => (3, s.cxlPoison c w)
    | none, none => if jt then (2, s.cxlTimeout c at_ true) else if jp then (3, s.cxlPoison c at_ true) else (0, s)
  else
    let (ju, s) := s.takeInject b 1
    let (jc, s) := s.takeInject b 0
    let bad := ws.filter fun w => !s.wordOk w
    let mended := ws.filter fun w => s.wordOk w && (s.upsets.find w).isSome
    let s := if mended.isEmpty && jc then s.memCe first true else s.memCe mended
    if bad.isEmpty then (if ju then (3, s.memUe first 1 true) else (0, s)) else (3, s.memUe bad 1)

/-- Several statuses: the first that is not 0. -/
def firstSt (a b : Nat) : Nat := if a = 0 then b else a

/-- A read with its counters and reports: a status, 0 or READ_UE or REMOTE_FAIL, and the data (R136, R137, R144). -/
def State.load (s : State) (o n : Nat) : (Nat × List Byte) × State :=
  if !s.memOk o n then ((3, []), s)
  else
    let s := s.volume o n false
    let bs := (s.rd o n).getD []
    let (st, s) := (s.servers o n).foldl (fun (x : Nat × State) b =>
      let (st, s) := x.2.readBlk (x.2.wordsAt o n b) b
      (firstSt x.1 st, s)) (0, s)
    ((st, if st = 0 then bs else []), s)

/-- What one memory answers to a write whose pieces shorter than a word lie in the words `ws` of it: READ_UE where one of them is not
performed (R137), REMOTE_FAIL where the CXL tier gives no completion. A corrected word is reported as a read of it is. -/
def State.partBlk (s : State) (all ws : List Nat) (b : Nat) : Nat × State :=
  if b = 14 ∨ b = 15 then
    let (jt, s) := s.takeInject b 2
    let is := fun (l : List Nat) (u : Upset) => l.find? fun w => s.upsets.find w == some u
    match is all .late, is ws .uncorrectable with
    | some w, _ => (2, (s.calm w).cxlTimeout (b - 14) w)
    | none, some w => (3, s.cxlPoison (b - 14) w)
    | none, none => if jt then (2, s.cxlTimeout (b - 14) (all.headD 0) true) else (0, s)
  else
    let bad := ws.filter fun w => !s.wordOk w
    let s := s.memCe (ws.filter fun w => s.wordOk w && (s.upsets.find w).isSome)
    if bad.isEmpty then (0, s) else (3, s.memUe bad 1)

/-- A write with its counters and reports: its status (R137, R144). -/
def State.save (s : State) (o : Nat) (bs : List Byte) : Nat × State :=
  let n := bs.length
  if !s.memOk o n then (3, s)
  else
    let s := s.volume o n true
    let ps := partWords o bs
    let (st, s) := (s.servers o n).foldl (fun (x : Nat × State) b =>
      let (st, s) := x.2.partBlk (x.2.wordsAt o n b) (ps.filter fun w => (x.2.place_ w).blk == some b) b
      (firstSt x.1 st, s)) (0, s)
    (st, if st = 2 then s else s.wr o bs)

/-- A write of which no requester hears. -/
def State.saved (s : State) (o : Nat) (bs : List Byte) : State := (s.save o bs).2

end Sys2Proof.Machine
end

