-- ==== Sys2Proof/Machine/Img.lean ====
section
/-!
DEFINITION. The structure image as its consumers read it: sections and entries (R32, R34), and the parts of TILE_PROG (R75).
-/
namespace Sys2Proof.Machine

/-- A section of an image. -/
def Image.sec (i : Image) (typ inst : Nat) : Option Section := i.secs.find? fun x => x.typ == typ && x.inst == inst

/-- The section types of Table 2-2: code, instance count, entry size. OWNER_SIG has no entries. -/
def secTypes : List (Nat × Bool × Nat) :=
  [(0x01, true, 64), (0x02, true, 16), (0x03, false, 64), (0x04, false, 2), (0x05, false, 32), (0x06, false, 2), (0x07, false, 32),
   (0x08, false, 16), (0x09, true, 64), (0x0A, false, 16), (0x0B, false, 4), (0x0C, false, 32), (0x0D, false, 4), (0x0E, false, 32)]

/-- The entry size of a section type. -/
def entrySize (typ : Nat) : Nat := match secTypes.find? (fun x => x.1 == typ) with | some x => x.2.2 | none => 1

/-- The instance of a section type that is not per tile. [DESIGN CHOICE, log entry 35] -/
def noInst : Nat := 0xFFFF

/-- The number of entries of a section. -/
def Section.count (x : Section) : Nat := u x.body 0 4

/-- Entry `i` of a section. -/
def Section.entry (x : Section) (i : Nat) : List Byte := slice x.body (16 + i * entrySize x.typ) (entrySize x.typ)

/-- Entries `i` to `i + n - 1` as one byte string. -/
def Section.entries (x : Section) (i n : Nat) : List Byte := slice x.body (16 + i * entrySize x.typ) (n * entrySize x.typ)

/-- Every entry of a section of an image; none without one. -/
def Image.all (i : Image) (typ inst : Nat) : List (List Byte) :=
  match i.sec typ inst with
  | some x => (List.range x.count).map x.entry
  | none => []

/-- The sections' entries of the image in force; none without an image. [DEDUCED, log entry 86] -/
def State.entries (s : State) (typ inst : Nat) : List (List Byte) := match s.img with | some i => i.all typ inst | none => []

/-- Entry `k` of a section of the image in force. -/
def State.entryAt (s : State) (typ inst k : Nat) : Option (List Byte) :=
  match s.img with
  | none => none
  | some i => match i.sec typ inst with
    | some x => if k < x.count then some (x.entry k) else none
    | none => none

/-! ## TILE_PROG (Tables 3-18 to 3-20) -/

/-- The sizes in a TILE_PROG header entry (Table 3-19). -/
structure ProgHdr where
  bundles : Nat
  arrDescs : Nat
  movDescs : Nat
  fabDescs : Nat
  regions : Nat
  progBase : Nat
  descBase : Nat
  deriving DecidableEq, Repr

/-- The header entry. -/
def progHdr (x : Section) : ProgHdr :=
  let h := x.entry 0
  ⟨u h 0 4, u h 4 4, u h 8 4, u h 12 4, u h 16 4, u h 20 4, u h 24 4⟩

/-- The first entry of each part: regions, bundles, array, mover and fabric descriptors, and the end. -/
def ProgHdr.regAt (_ : ProgHdr) : Nat := 4
/-- The first bundle's entry. -/
def ProgHdr.bunAt (h : ProgHdr) : Nat := h.regAt + ceilDiv h.regions 4
/-- The first array descriptor's entry. -/
def ProgHdr.arrAt (h : ProgHdr) : Nat := h.bunAt + h.bundles
/-- The first mover descriptor's entry. -/
def ProgHdr.movAt (h : ProgHdr) : Nat := h.arrAt + 2 * h.arrDescs
/-- The first fabric descriptor's entry. -/
def ProgHdr.fabAt (h : ProgHdr) : Nat := h.movAt + h.movDescs
/-- The number of entries. -/
def ProgHdr.total (h : ProgHdr) : Nat := h.fabAt + h.fabDescs

/-- The TILE_PROG section of a tile in force. -/
def State.prog (s : State) (t : Nat) : Option Section := match s.img with | some i => i.sec 0x01 t | none => none

/-- Bundle `k` of a tile's program. -/
def progBundle (x : Section) (k : Nat) : Nat := leNat (x.entry ((progHdr x).bunAt + k))

/-- Array descriptor `d`. [DESIGN CHOICE, log entry 41] -/
def progArr (x : Section) (d : Nat) : List Byte := x.entries ((progHdr x).arrAt + 2 * d) 2

/-- Mover descriptor `d`. [DESIGN CHOICE, log entry 41] -/
def progMov (x : Section) (d : Nat) : List Byte := x.entry ((progHdr x).movAt + d)

/-- Fabric descriptor `d`. [DESIGN CHOICE, log entry 41] -/
def progFab (x : Section) (d : Nat) : List Byte := x.entry ((progHdr x).fabAt + d)

/-- Region declaration `r`: base, length, kind (Table 3-20). -/
def progRegion (x : Section) (r : Nat) : Nat × Nat × Nat :=
  let e := slice (x.entry ((progHdr x).regAt + r / 4)) (16 * (r % 4)) 16
  (u e 0 4, u e 4 4, u e 8 1)

/-- Every region declaration. -/
def progRegions (x : Section) : List (Nat × Nat × Nat) := (List.range (progHdr x).regions).map (progRegion x)

/-- The tally map (R75). -/
def progTallyMap (x : Section) : Nat := leNat ((x.entry 1).take 32)

/-- Encoder profile `n`. -/
def progProfile (x : Section) (n : Nat) : W64 := BitVec.ofNat 64 (u (x.entries 2 2) (8 * n) 8)

/-! ## Contexts of the image (Table 9-4) -/

/-- The CONTEXTS entry of a context: privileged, tiles, subscriber. -/
def Image.ctxEntry (i : Image) (c : Nat) : Option (Bool × Nat × Nat) :=
  ((i.all 0x0E noInst).find? fun e => u e 0 1 == c).map fun e => (bitOf (u e 1 1) 0, u e 2 1, u e 3 1)

/-- The CONTEXTS entry in force. -/
def State.ctxEntry (s : State) (c : Nat) : Option (Bool × Nat × Nat) := match s.img with | some i => i.ctxEntry c | none => none

/-- The tiles of a bit set. -/
def tilesOf (m : Nat) : List Nat := (List.range 8).filter fun t => bitOf m t

/-- The context of a tile (R47). -/
def State.tileCtx (s : State) (t : Nat) : Nat := (s.tile t).ctx

end Sys2Proof.Machine
end

