-- ==== Sys2Proof/Machine/Power.lean ====
section
/-!
DEFINITION. Votes and their resolution (R313, R314), the applied state of every domain (R311, R317, R318), wakes (R319), the
power cap and temperature (R322, R323), and the loss of supply, reference and PLLs (R307, R326).
-/
namespace Sys2Proof.Machine

/-- The vote in a slot: 0 none, 1 OFF, 2 RET, 3 ON (R313). -/
def Dom.vote (x : Dom) (k : Nat) : Nat := fld x.votes (2 * k) 2

/-- A slot's vote replaced. -/
def Dom.setVote (x : Dom) (k v : Nat) : Dom := { x with votes := x.votes - x.vote k * 4 ^ k + v * 4 ^ k }

/-- The state a vote asks for; none counts as OFF. -/
def voteLvl (v : Nat) : Lvl := if v = 3 then .on else if v = 2 then .ret else .off

/-- The highest vote held in any slot. -/
def Dom.top (x : Dom) : Nat := maxOf ((List.range 8).map x.vote)

/-- The resolved state of a domain (R313). Domain 0 stays ON whatever its slots hold. -/
def State.resolved (s : State) (d : Nat) : Lvl := if d = 0 then .on else voteLvl (s.dom d).top

/-- The lowest-numbered slot that holds the highest vote (R314). -/
def Dom.topSlot (x : Dom) : Nat := (findIdxOpt (fun k => x.vote k == x.top) (List.range 8) 0).getD 0

/-- The state a domain stands at, as its children see it (R311): an entry counts as its target, a ramp as where it began. -/
def DSt.lvl : DSt → Lvl
  | .off => .off
  | .ret => .ret
  | .on => .on
  | .entering frm dest _ aborted => if aborted then frm else dest
  | .ramping frm _ => frm

/-- The state the votes of a domain and the state of its parent ask for (R311). -/
def State.target (s : State) (d : Nat) : Lvl :=
  match domParent d with
  | some p => Lvl.min (s.resolved d) (s.dom p).st.lvl
  | none => s.resolved d

/-- A domain power cycle of the ladder holds the domain or its parent: its entry cannot be aborted (R336). -/
def State.cycling (s : State) (d : Nat) : Bool :=
  let has := fun d => (domBlks d).any fun b => match (s.blk b).step with | .cycle _ => true | _ => false
  has d || (match domParent d with | some p => has p | none => false)

/-- Start an entry toward a lower state in the next cycle (R317). [DEDUCED, log entry 73] -/
def State.enter (s : State) (d : Nat) (frm dest : Lvl) : State :=
  let s := s.setDom d { s.dom d with st := .entering frm dest (s.cclk + 1) false }
  if frm = .on then { s with newDoms := s.newDoms ++ [(d, .leftOn)] } else s

/-- Bring one domain's applied state in line with its target: start an entry, or abort one before its point of no return;
`slot` is the slot that a rise came from (R314, R317). -/
def State.settleDom (slot : Nat) (s : State) (d : Nat) : State :=
  let x := s.dom d
  let t := s.target d
  match x.st with
  | .on => if t.rank < 2 then s.enter d .on t else s
  | .ret => if t.rank < 1 then s.enter d .ret t else s
  | .entering frm dest c false =>
    if frm.rank ≤ t.rank && s.cclk < c + 12 && !s.cycling d then
      (s.setDom d { x with st := .entering frm dest c true, lastSlot := slot, lastAbort := true }).sat (blkR 2 (0x1400 + 8 * d)) 32 32 1
    else s
  | _ => s

/-- Bring every domain in line, parents before children. -/
def State.settlePower (s : State) (slot : Nat) : State := (List.range 84).foldl (State.settleDom slot) s

/-- Write a vote slot of one domain, counting a refused entry (R314). -/
def State.voteOne (slot v : Nat) (s : State) (d : Nat) : State :=
  let x := s.dom d
  let y := x.setVote slot v
  let s := s.setDom d y
  let applied := x.st.lvl.rank
  if v < x.vote slot && (voteLvl v).rank < applied && applied ≤ (s.resolved d).rank then
    (s.setDom d { y with lastSlot := y.topSlot, lastAbort := false }).sat (blkR 2 (0x1400 + 8 * d)) 0 32 1
  else s

/-- Write a vote slot of some domains and let every domain follow. -/
def State.vote (s : State) (slot v : Nat) (ds : List Nat) : State :=
  (ds.foldl (State.voteOne slot v) s).settlePower slot

/-- Clear a slot of every domain. -/
def State.clearSlot (s : State) (slot : Nat) : State :=
  ((List.range 84).foldl (fun s d => s.setDom d ((s.dom d).setVote slot 0)) s).settlePower slot

/-- Who may write a vote slot (Table 14-5). JTAG has the host's rights while debug is enabled (R375). [DEDUCED, log entry 51] -/
def State.mayVote (s : State) (src : Src) (slot : Nat) : Bool :=
  let host := src == .host || (src == .jtag && s.hst.debug)
  match slot with
  | 0 => src == .osaux
  | 1 => host
  | 3 => src == .osaux
  | 4 => host || src == .osaux
  | 5 => host && s.hst.debug
  | _ => false

/-- PWR_VOTE_CTRL (R313, Table 14-11). -/
def State.voteCtrl (s : State) (src : Src) (v : W64) : State :=
  let slot := v.fld 16 3
  let d := v.fld 0 7
  let ds := if v.bit 24 then (List.range 84).drop 1 else [d]
  if !s.mayVote src slot || (!v.bit 24 && (d = 0 || 83 < d)) then s.flag 2 7
  else s.vote slot (v.fld 8 2) ds

/-! ## Wakes (R319) -/

/-- Source 2 acts only on tile, HBM and CXL domains. -/
def wake2Dom (d : Nat) : Bool := (18 ≤ d && d ≤ 27) || (44 ≤ d && d ≤ 51)

/-- The domains set in a source's mask. -/
def State.wakeMask (s : State) (src : Nat) : List Nat :=
  let lo := s.rg (blkR 2 (0x100 + 16 * src))
  let hi := s.rg (blkR 2 (0x108 + 16 * src))
  ((List.range 84).drop 1).filter fun d =>
    (if d < 64 then lo.bit d else hi.bit (d - 64)) && (src != 2 || wake2Dom d)

/-- An edge wake is lost for a domain in cycles c + 4 to c + 11 of an entry. -/
def State.edgeLost (s : State) (d : Nat) : Bool :=
  match (s.dom d).st with
  | .entering _ _ c false => decide (c + 4 ≤ s.cclk) && decide (s.cclk ≤ c + 11)
  | _ => false

/-- A wake writes V0 = ON on the domains given, and sets its source's status bit. -/
def State.wake (s : State) (src : Nat) (ds : List Nat) : State :=
  if ds.isEmpty then s
  else
    let o := blkR 2 0x080
    ((s.setRg o (s.rg o ||| bitMask src)).setsBits o (bitMask src)).vote 0 3 ds

/-- An edge wake of a source, on the domains of its mask that satisfy `p`. -/
def State.edgeWake (s : State) (src : Nat) (p : Nat → Bool) : State :=
  s.wake src ((s.wakeMask src).filter fun d => p d && !s.edgeLost d)

/-- The level wakes write their votes in every cycle in which they are asserted. -/
def State.levelWakes (s : State) : State :=
  let s := if s.pins.wakeLow then s.wake 0 (s.wakeMask 0) else s
  if (s.rg (blkR 2 0x078)).bit 0 then s.wake 1 (s.wakeMask 1) else s

/-! ## Exits (R318) -/

/-- A domain waits to ramp (PWR_DOM_d.applied 5): OFF or RET below its resolved state. [DEDUCED, log entry 73] -/
def State.waiting (s : State) (d : Nat) : Bool :=
  match (s.dom d).st with
  | .off => decide (0 < (s.resolved d).rank)
  | .ret => decide (1 < (s.resolved d).rank)
  | _ => false

/-- The conditions of R318 hold for a waiting domain, but for the order among waiting domains. [DESIGN CHOICE, log entry 3] -/
def State.mayRamp (s : State) (d : Nat) : Bool :=
  let stagger := max 400 ((s.rg (blkR 2 0x048)).fld 0 24)
  let ramping := fun e => match (s.dom e).st with | .ramping _ _ => true | _ => false
  s.waiting d &&
  (match domParent d with | some p => s.domOn p | none => true) &&
  (match s.lastRamp with | some t => decide (t + stagger ≤ s.cclk) | none => true) &&
  !(domIsArray d && (List.range 84).any fun e => domIsArray e && ramping e)

/-- A ramp starts (R318). [DEDUCED, log entry 73] -/
def State.rampStart (s : State) (d : Nat) : State :=
  if s.mayRamp d && !((List.range d).any fun e => s.mayRamp e) then
    let x := s.dom d
    { s.setDom d { x with st := .ramping x.st.lvl (s.resolved d) } with lastRamp := some s.cclk }
  else s

/-- PWR_DOM_d (Table 14-11). -/
def State.pwrDom (s : State) (d : Nat) : W64 :=
  let x := s.dom d
  let a := match x.st with
    | .entering _ _ _ _ => 3
    | .ramping _ _ => 4
    | st => if s.waiting d then 5 else st.lvl.rank
  put 16 x.votes ||| put 8 x.lastSlot ||| putBit 7 x.lastAbort ||| put 4 (s.resolved d).rank ||| put 0 a

/-- A domain transition completes: the power block's progress advances, and its effects are due. -/
def State.arrive (s : State) (d : Nat) (st : DSt) (e : DEvt) : State :=
  let s := s.setDom d { s.dom d with st := st }
  ({ s with newDoms := s.newDoms ++ [(d, e)] }).progress 2

/-- The ramp of a domain is complete (R318, Table 14-7). -/
def State.rampDone (s : State) (d : Nat) : State :=
  match (s.dom d).st with
  | .ramping frm dest =>
    let s := if dest = .on then s.arrive d .on (if frm = .off then .onFromOff else .onFromRet) else s.arrive d .ret .reachedRet
    let s := if dest = .on then
        s.capture { kind := 4, code := 5, blk := 2, inst := d, sev := 0, detail := s.pwrDom d, live := false } else s
    s.settlePower 0
  | _ => s

/-- An entry reaches RET or OFF (Table 14-6). -/
def State.entryDone (s : State) (d : Nat) : State :=
  match (s.dom d).st with
  | .entering _ dest _ false =>
    let s := if dest = .ret then s.arrive d .ret .reachedRet else s.arrive d .off .reachedOff
    s.settlePower 0
  | _ => s

/-- An aborted entry returns to the state it left (R317). [DEDUCED, log entry 73] -/
def State.abortReturn (s : State) (d : Nat) : State :=
  match (s.dom d).st with
  | .entering frm _ _ true =>
    let s := if frm = .on then s.arrive d .on .returned else s.arrive d .ret .reachedRet
    s.settlePower 0
  | _ => s

/-- The first block of a domain, on which the ladder works for the whole domain. -/
def domBlk (d : Nat) : Nat := (domBlks d).headD 0

/-- A domain goes to OFF without an entry sequence (Table 14-7, R400). -/
def State.dropOff (s : State) (d : Nat) : State :=
  let wasOn := (s.dom d).st == .on
  let s := s.setDom d { s.dom d with st := .off }
  let s := { s with newDoms := s.newDoms ++ (if wasOn then [(d, DEvt.leftOn)] else []) ++ [(d, DEvt.reachedOff)] }
  s.settlePower 0

/-- RAMP_FAIL and CONVERTER_FAULT: the domain is OFF, the detector reports, and step 2 runs on the domain (Table 15-5). -/
def State.domFault (s : State) (d det : Nat) (injected : Bool) : State :=
  (((s.faultNames 2 det d).flag 2 det { injected := injected }).dropOff d).wantStep (domBlk d) 2

/-- Rails not good within twice the exit time. [DEDUCED, log entry 25] -/
def State.rampFail (s : State) (d : Nat) : State :=
  match (s.dom d).st with
  | .ramping _ _ => s.domFault d 0 false
  | _ => s

/-- A converter fault of a domain that is ON. -/
def State.converterFault (s : State) (d : Nat) : State :=
  if d ≠ 0 && s.domOn d then s.domFault d 1 false else s

/-! ## Power cap and temperature -/

/-- The duty of the next interval (R322). [DEDUCED, log entry 72] -/
def nextDuty (duty dutyMax p cap hyst : Nat) (warn : Bool) : Nat :=
  if warn then min dutyMax (duty + 4)
  else if cap = 0 then 0
  else if cap < p then min dutyMax (duty + ceilDiv (p - cap) 25)
  else if p + hyst < cap then duty - 1
  else duty

/-- The throttle duty in force in ACLK cycle `a`: a new duty takes effect at the next run boundary (R322). [DEDUCED, log entry 72] -/
def State.dutyAt (s : State) (a : Nat) : Nat := if s.pins.dutyRun < a / 64 then s.pins.dutySet else s.pins.duty

/-- One interval of the power cap controller (R322, R325). [DEDUCED, log entry 72] -/
def State.capInterval (s : State) (p volts amps : Nat) : State :=
  let cfg := s.rg (blkR 2 0x050)
  let cap := match cfg.fld 0 16 with | 0 => 0 | n => max 1000 n
  let duty := nextDuty s.pins.dutySet (cfg.fld 24 8) p cap (4 * cfg.fld 16 8) (s.pins.tempWarn || s.pins.warnInj)
  let s := { s with pins := { s.pins with duty := s.dutyAt (3 * s.cclk), dutySet := duty, dutyRun := 3 * s.cclk / 64, warnInj := false } }
  let s := (s.setRg (blkR 2 0x060) (put 32 p ||| put 16 amps ||| put 0 volts)).peak (blkR 2 0x068) p
  (s.detect 2 4 (decide (2800 < p))).2

/-- PWR_CAP_STATE (Table 14-11). -/
def State.capState (s : State) : W64 :=
  putBit 40 (s.pins.tempWarn || s.pins.warnInj) ||| put 32 (s.dutyAt (3 * s.cclk) % 64) ||| put 0 ((s.rg (blkR 2 0x060)).fld 32 16)

/-- The hottest sensor is read into PWR_TEMP. [DEDUCED, log entry 72] -/
def State.setTemp (s : State) (sensor temp : Nat) : State := s.setRg (blkR 2 0x070) (put 8 sensor ||| put 0 temp)

/-- 100 °C or above: TEMP_WARN, THERM_ALERT_N and temp_warn (R323). -/
def State.tempHot (s : State) (sensor temp : Nat) : State :=
  let s := s.setTemp sensor temp
  if 100 ≤ temp && !s.pins.tempWarn then
    ({ s with pins := { s.pins with tempWarn := true } }).flag 2 5
  else s

/-- Below 95 °C both are cleared (R323). -/
def State.tempCool (s : State) (sensor temp : Nat) : State :=
  let s := s.setTemp sensor temp
  if temp < 95 then { s with pins := { s.pins with tempWarn := false } } else s

/-- 105 °C: TEMP_CRIT (R323). -/
def State.tempCrit (s : State) (sensor temp : Nat) : State :=
  let s := s.tempHot sensor temp
  if 105 ≤ temp then s.flag 2 6 else s

/-! ## Clocks (R326) -/

/-- A PLL loses lock: its bit clears, the loss counts and is recorded. [DEDUCED, log entry 29] -/
def State.pllLoss (s : State) (i : Nat) : State :=
  let s := { s with pins := { s.pins with pll := s.pins.pll - (if bitOf s.pins.pll i then 2 ^ i else 0) } }
  (s.sat (blkR 1 0x048) 0 32 1).setRg (blkR 1 0x050) (putBit 63 true ||| put 0 i)

/-- A PLL locks. [DEDUCED, log entry 29] -/
def State.pllLock (s : State) (i : Nat) : State :=
  { s with pins := { s.pins with pll := if bitOf s.pins.pll i then s.pins.pll else s.pins.pll + 2 ^ i } }

/-- CLK_STATUS (Table 14-13). -/
def State.clkStatus (s : State) : W64 := putBit 32 s.pins.refclk ||| put 0 s.pins.pll

end Sys2Proof.Machine
end

