-- ==== Sys2Proof/Machine/Rights.lean ====
section
/-!
DEFINITION. Who may touch what: what an offset reaches (R127), the regions that TILE_PROG and HBM_LAYOUT declare, the access rights of
Table 6-2 (R128), the staged range (R39), and the reports of a refused access.
-/
namespace Sys2Proof.Machine

/-- Status codes of an access (R364). -/
abbrev stOk : Nat := 0
/-- ACCESS_DENIED. -/
abbrev stDenied : Nat := 1
/-- REMOTE_FAIL. [DEDUCED, log entry 49] -/
abbrev stRemote : Nat := 2
/-- READ_UE. [DEDUCED, log entry 49] -/
abbrev stReadUe : Nat := 3
/-- NO_ROUTE. -/
abbrev stNoRoute : Nat := 4
/-- BOB_QUOTA_EMPTY. -/
abbrev stQuota : Nat := 5
/-- BOB_POOL_EMPTY. -/
abbrev stPool : Nat := 6

/-- Who makes a memory access: a context, with its privileged attribute, the host and Osaux (Table 6-2), or a pan, the collective engine,
a crystallizer or the loader, whose rights no one checks (R128). -/
inductive Who where
  | ctx (c : Nat) (priv : Bool)
  | sys
  | engine
  deriving DecidableEq, Repr

/-- CXL_HDM_h (Table 6-12). -/
def State.hdm (s : State) (c h : Nat) : W64 := s.rg (blkR (14 + c) (0x100 + 8 * h))

/-- 256 MiB, the unit of a decoder. -/
def hdmUnit : Nat := 0x10000000

/-- An enabled decoder of port c covers an offset of its half (R143). -/
def State.hdmCovers (s : State) (c off : Nat) : Bool := (List.range 8).any fun h =>
  let v := s.hdm c h
  v.bit 63 && v.fld 0 16 * hdmUnit ≤ off && off < (v.fld 0 16 + v.fld 32 16) * hdmUnit

/-- An offset reaches a tier whose domain is ON (R127). -/
def State.reaches (s : State) (o : Nat) : Bool :=
  match s.place_ o with
  | .hbm k _ => s.domOn (44 + k)
  | .store t _ => s.domOn (20 + t)
  | .cxl c off => s.hdmCovers c off && s.domOn (18 + c)
  | .regs _ => true
  | .unmapped => false

/-- What an offset belongs to (Table 6-2). -/
inductive Region where
  | code (owner : Option Nat)
  | data (owner : Option Nat)
  | shared
  | none
  deriving DecidableEq, Repr

/-- The context that CONTEXTS assigns to a tile. -/
def State.tileOwner (s : State) (t : Nat) : Option Nat :=
  ((s.entries 0x0E noInst).find? fun e => bitOf (u e 2 1) t).map fun e => u e 0 1

/-- The region of an offset (Tables 3-20 and 6-4). -/
def State.region (s : State) (o : Nat) : Region :=
  match s.place_ o with
  | .store t w =>
    match s.prog t with
    | some p => match (progRegions p).find? fun r => r.1 ≤ w && w < r.1 + r.2.1 with
      | some r => if r.2.2 = 2 then .data (s.tileOwner t) else .code (s.tileOwner t)
      | none => .none
    | none => .none
  | _ =>
    match ((s.entries 0x0C noInst).drop 1).find? fun e => u e 0 8 ≤ o && o < u e 0 8 + u e 8 8 with
    | some e => if u e 0x10 1 = 255 then .shared else .data (some (u e 0x10 1))
    | none => .none

/-- Table 6-2. -/
def allowed (r : Region) (w : Who) (write : Bool) : Bool :=
  let owns := fun (o : Option Nat) => match w with
    | .ctx c p => p || o == some c
    | _ => true
  match r with
  | .code o => !write && owns o
  | .data o => owns o
  | .shared => true
  | .none => match w with
    | .ctx _ p => p
    | _ => true

/-- The `n` bytes at `o` meet the range that the loader protects (R39), or the range that a mailbox command staged (R370). -/
def State.protected (s : State) (o n : Nat) : Bool :=
  let meets := fun (a m : Nat) => a < o + n && o < a + m
  (1 ≤ s.ld.state && s.ld.state ≤ 3 && meets ((s.rg (devR 0x070)).fld 0 50) ((s.rg (devR 0x078)).fld 0 33)) ||
  (match s.hst.mbRange with | some (b, m) => meets b m | none => false)

/-- The domain of the tier that an offset reaches, where it has one. -/
def State.tierDom (s : State) (o : Nat) : Option Nat :=
  match s.place_ o with
  | .hbm k _ => some (44 + k)
  | .store t _ => some (20 + t)
  | .cxl c _ => some (18 + c)
  | _ => none

/-- A request refused because its domain is not ON wakes the domain (R319, source 2). -/
def State.accessWake (s : State) (gs : List Nat) : State :=
  let ds := (gs.filterMap fun g => s.tierDom g).eraseDups.filter fun d => !s.domOn d
  ds.foldl (fun s d => s.edgeWake 2 fun e => e == d) s

/-- The check of a local access (R127, R128, R39): its status, with ADDR_UNMAPPED or OWNER_DENIED reported where it is refused. The engines
that R128 exempts meet the first only. -/
def State.access (s : State) (w : Who) (o n : Nat) (write : Bool) : Nat × State :=
  let gs := granules o n
  let ctx := match w with | .ctx c _ => some c | _ => none
  let r : Rpt := { ctx := ctx }
  if gs.any fun g => !s.reaches g then (stDenied, (s.flag 0 5 r).accessWake gs)
  else if w == .engine then (stOk, s)
  else if (write && s.protected o n) || gs.any fun g => !allowed (s.region g) w write then (stDenied, s.flag 0 6 r)
  else (stOk, s)

/-- A CXL port whose half fails with REMOTE_FAIL: its link is not up, or is not used before Osaux enumerates it (R143, R144). -/
def State.cxlFails (s : State) (c : Nat) : Bool :=
  let x := s.cxls.get {} c
  x.st != 2 || !x.used || !s.ok (14 + c)

/-- An offset lies in a CXL half that fails. -/
def State.cxlDown (s : State) (o : Nat) : Bool :=
  match s.place_ o with
  | .cxl c _ => s.cxlFails c
  | _ => false

end Sys2Proof.Machine
end

