-- ==== Sys2Proof/Machine/Arrays.lean ====
section
/-!
DEFINITION. The matrix arrays: shapes (R77), element and scale reading (R103 to R109), exact products and sixteen-product groups
(R110 to R115), FP32 passes (R117), accumulation (R112, R113), drains (R118), the operation queues and engines (R85 to R89),
failures (R93 to R95), shape changes (R81), teardown and harvest (R96, R97).
-/
namespace Sys2Proof.Machine

/-! ## Shapes and formats -/

/-- The logical depth of a shape (Table 4-1). -/
def shapeKs (c : Nat) : Nat := if c < 5 then 256 / 2 ^ c else 256

/-- The logical width of a shape (Table 4-1). -/
def shapeNs (c : Nat) : Nat := if c < 5 then 256 * 2 ^ c else 128

/-- The halves that a shape has queues for (R85). -/
def shapeHalves (c : Nat) : List Nat := if c < 5 then [0] else [1, 2]

/-- The class of a format code: 0 W, 1 H, 2 K (Table 4-4). -/
def fmtClass (f : Nat) : Nat := if f = 0 then 0 else if f < 3 then 1 else 2

/-- The bits an element of a format code takes (R103). -/
def elemBits (f : Nat) : Nat := if f = 0 then 32 else if f < 3 then 16 else if f = 5 ∨ f = 7 then 4 else 8

/-- The bytes of `n` elements. -/
def rowBytes (f n : Nat) : Nat := elemBits f * n / 8

/-- Element `i` of packed bytes (R103). -/
def elemAt (f : Nat) (bs : List Byte) (i : Nat) : Nat :=
  match elemBits f with
  | 32 => u bs (4 * i) 4
  | 16 => u bs (2 * i) 2
  | 8 => u bs i 1
  | _ => fld (u bs (i / 2) 1) (4 * (i % 2)) 4

/-- The block length of a size code; 0 means no block scales (Table 4-3). -/
def blockLen (size : Nat) : Nat := if size = 0 then 0 else 8 * 2 ^ (size - 1)

/-- The number of the scale of element (r, c) of an R by C operand whose blocks of B run along its columns' index or along its
rows' index (Table 5-5). -/
def scaleIx (along : Bool) (B C r c : Nat) : Nat := if along then r * ceilDiv C B + c / B else (r / B) * C + c

/-- How many scales an operand has. -/
def scaleCount (along : Bool) (B R C : Nat) : Nat := if along then R * ceilDiv C B else ceilDiv R B * C

/-! ## Products and groups -/

/-- An element with its scale code: the reserved codes of R104 give +0 and NaN at unit scale. -/
def operand (f code sc : Nat) : Fp × Nat :=
  if sc = 0 then (.zero, 127) else if sc = 255 then (.nan, 127) else ((fmtOf f).decode code, sc)

/-- What one product is (R110, R113 to R115). -/
inductive Term where
  | nan
  | inf (neg : Bool)
  /-- Non-zero and finite with a scale sum above 127. -/
  | ovf (neg : Bool)
  /-- Non-zero and finite with a scale sum below -126. -/
  | flush
  | zero
  | fin (neg : Bool) (m : Nat) (e : Int)
  deriving DecidableEq, Repr

/-- A product (R110): the scale sum acts on finite products only. -/
def term (x w : Fp × Nat) : Term :=
  let es : Int := (x.2 : Int) + w.2 - 254
  match x.1.mul w.1 with
  | .nan => .nan
  | .inf s => .inf s
  | .fin s m e =>
    if m = 0 then .zero
    else if es < -126 then .flush
    else if 127 < es then .ovf s
    else .fin s m (e + es)

/-- The significand bits of a class (R111). -/
def classBits (cls : Nat) : Int := if cls = 2 then 8 else 22

/-- The binary exponents of the finite products of a group. -/
def termExpos : List Term → List Int
  | [] => []
  | .fin _ m e :: ts => ((Nat.log2 m : Int) + e) :: termExpos ts
  | _ :: ts => termExpos ts

/-- A product truncated toward zero to a multiple of 2^q, in units of 2^q (R111). -/
def truncTerm (q : Int) : Term → Int
  | .fin s m e => sm s (if q ≤ e then m * 2 ^ (e - q).toNat else m / 2 ^ (q - e).toNat)
  | _ => 0

/-- The group sum (R111). -/
def groupSum (cls : Nat) (ts : List Term) : Fp :=
  match termExpos ts with
  | [] => .zero
  | e :: es =>
    let q := es.foldl max e - classBits cls - 2
    ofInt false (ts.foldl (fun a t => a + truncTerm q t) 0) q

/-- The terms in groups of sixteen (R111). -/
def groups16 : Nat → List Term → List (List Term)
  | 0, _ => []
  | n + 1, ts => if ts.isEmpty then [] else ts.take 16 :: groups16 n (ts.drop 16)

/-- The hi part of an FP32 operand (R117). -/
def hiPart (x : Fp) : Fp :=
  let r := bf16.round false x
  if r.ovf then bf16.decode (bf16.signBit x.sign + bf16.maxCode) else bf16.decode r.code

/-- The lo part of an FP32 operand (R117). -/
def loPart (x : Fp) : Fp := if x.nonFinite then .zero else bf16.rnd (x.add (hiPart x).neg)

/-- The products of the second and third passes: one with an infinite or NaN factor contributes nothing (R117). -/
def passTerm (x w : Fp) : Term := if x.nonFinite || w.nonFinite then .zero else term (x, 127) (w, 127)

/-- The group sums of one entry, in the order in which they are added (R79, R117). -/
def entryGroups (cls : Nat) (xs ws : List (Fp × Nat)) : List Fp :=
  let sums := fun (ts : List Term) => (groups16 16 ts).map (groupSum cls)
  if cls = 0 then
    let xh := xs.map fun x => hiPart x.1
    let xl := xs.map fun x => loPart x.1
    let wh := ws.map fun w => hiPart w.1
    let wl := ws.map fun w => loPart w.1
    let p1 := sums (List.zipWith (fun x w => term (x, 127) (w, 127)) xh wh)
    let p2 := sums (List.zipWith passTerm xh wl)
    let p3 := sums (List.zipWith passTerm xl wh)
    (List.range p1.length).flatMap fun g => [p1.getD g .zero, p2.getD g .zero, p3.getD g .zero]
  else sums (List.zipWith term xs ws)

/-- The products that decide an entry's special cases: those of the first pass for FP32 (R113, R117). -/
def entryTerms (cls : Nat) (xs ws : List (Fp × Nat)) : List Term :=
  if cls = 0 then List.zipWith (fun x w => term (hiPart x.1, 127) (hiPart w.1, 127)) xs ws else List.zipWith term xs ws

/-- A term has an infinite product, or an overflowing scale sum, of the given sign. -/
def Term.big (neg : Bool) : Term → Bool
  | .inf s => s == neg
  | .ovf s => s == neg
  | _ => false

/-- What one STREAM does to one entry (R113 to R115): row `xs` of the operand against column `ws`. [DEDUCED, log entry 44] -/
def entrySum (cls : Nat) (xs ws : List (Fp × Nat)) : EntrySum :=
  let ts := entryTerms cls xs ws
  let sat := ts.any fun t => t == .ovf true || t == .ovf false
  if ts.any (· == .nan) || (ts.any (Term.big true) && ts.any (Term.big false)) then .nan sat
  else if ts.any (· == .inf true) then .inf true sat
  else if ts.any (· == .inf false) then .inf false sat
  else if sat then .sat (ts.any (Term.big true))
  else .sums (entryGroups cls xs ws) (ts.any (· == .flush))

/-- An accumulator entry after a STREAM (R112, R113, R115). -/
def EntrySum.apply (x : EntrySum) (old : W32) : W32 :=
  let v := fp32.decode old.toNat
  let code := fun (n : Nat) => BitVec.ofNat 32 n
  match x with
  | .nan _ => 0x7FC00000
  | .inf neg _ => code (fp32.enc (v.add (.inf neg)))
  | .sat neg => if v.isNan then 0x7FC00000 else code (fp32.signBit neg + fp32.maxCode)
  | .sums gs _ => code (fp32.enc (gs.foldl (fun a g => fp32.rnd (a.add g)) v))

/-- The entry counts in ARR_SCALE_SAT_CNT (R115). [DEDUCED, log entry 44] -/
def EntrySum.isSat : EntrySum → Bool
  | .nan b => b
  | .inf _ b => b
  | .sat _ => true
  | .sums _ _ => false

/-- The entry counts in ARR_SCALE_FLUSH_CNT (R114). [DEDUCED, log entry 44] -/
def EntrySum.isFlush : EntrySum → Bool
  | .sums _ b => b
  | _ => false

/-! ## Descriptors (Table 4-3) -/

/-- The block settings of a 2-byte field: block length, direction bit, nan_on_overflow. -/
def blkSet (v : Nat) : Nat × Bool × Bool := (blockLen (fld v 0 3), bitOf v 3, bitOf v 4)

/-- The accumulator bank a descriptor names. -/
def descBank (d : List Byte) : Nat := fld (u d 0x43 1) 0 1

/-- Read a run of bytes of the tile store (R127, R135): none where a word is uncorrectable or the store is not reached. -/
def readRun (base n : Nat) (s : State) : Option (List Byte) × State :=
  match s.access .engine base n false with
  | (0, s) => match s.load base n with
    | ((0, bs), s) => (some bs, s)
    | (_, s) => (none, s)
  | (_, s) => (none, s)

/-- Read the rows of an operand; none where a word is uncorrectable. -/
def readRows (base stride n : Nat) : Nat → State → Option (List (List Byte)) × State
  | 0, s => (some [], s)
  | k + 1, s =>
    match readRun base n s with
    | (none, s) => (none, s)
    | (some r, s) => match readRows (base + stride) stride n k s with
      | (some rs, s) => (some (r :: rs), s)
      | (none, s) => (none, s)

/-- The streamed rows with their scale codes (R103 to R106). -/
def readX (d : List Byte) (ks : Nat) (s : State) : Option (List (List (Fp × Nat))) × State :=
  let m := u d 0x3C 2
  let f := u d 0x40 1
  let (B, alongM, _) := blkSet (u d 0x44 2)
  match readRows (addrOff (u d 0 8)) (u d 0x30 4) (rowBytes f ks) m s with
  | (none, s) => (none, s)
  | (some rows, s) =>
    match readRun (addrOff (u d 8 8)) (if B = 0 then 0 else scaleCount (!alongM) B m ks) s with
    | (none, s) => (none, s)
    | (some sc, s) =>
      let at_ := fun (i k : Nat) => if B = 0 then 127 else u sc (scaleIx (!alongM) B ks i k) 1
      (some (((List.range m).zip rows).map fun r => (List.range ks).map fun k => operand f (elemAt f r.2 k) (at_ r.1 k)), s)

/-- An INT8 or INT4 weight expanded under scale and zero point (R108): the code in the target, and whether it overflowed. -/
def expandZp (f target : Nat) (nanOver : Bool) (q pair : Nat) : Rounded :=
  let q := signed (elemBits f) q
  let z := signed 8 (fld pair 16 8)
  (fmtOf target).round nanOver ((ofInt false (q - z) 0).mul (bf16.decode (pair % 65536)))

/-- The weight rows of a WLOAD: its set, and how many expanded weights overflowed (R107 to R109). -/
def readW (d : List Byte) (ks ns : Nat) (s : State) : Option (WSet × Nat) × State :=
  let f := u d 0x41 1
  let mode := fld (u d 0x48 1) 0 2
  let target := fld (u d 0x48 1) 4 4
  let (B, alongN, nanOver) := blkSet (u d 0x46 2)
  let unit := if mode = 2 then 4 else 1
  let nsc := if B = 0 then (if mode = 2 then 1 else 0) else scaleCount alongN B ks ns
  match readRows (addrOff (u d 0x10 8)) (u d 0x34 4) (rowBytes f ns) ks s with
  | (none, s) => (none, s)
  | (some rows, s) =>
    match readRun (addrOff (u d 0x18 8)) (unit * nsc) s with
    | (none, s) => (none, s)
    | (some sc, s) =>
      match readRun (addrOff (u d 0x20 8)) (if mode = 1 then rowBytes target 16 else 0) s with
      | (none, s) => (none, s)
      | (some tbl, s) =>
        let ix := fun (k n : Nat) => if B = 0 then 0 else scaleIx alongN B ns k n
        let s8 := fun (k n : Nat) => if B = 0 then 127 else u sc (ix k n) 1
        let cell := fun (k : Nat) (row : List Byte) (n : Nat) =>
          let q := elemAt f row n
          if mode = 0 then (q, s8 k n, false)
          else if mode = 1 then (elemAt target tbl q, s8 k n, false)
          else
            let r := expandZp f target nanOver q (u sc (4 * ix k n) 4)
            (r.code, 127, r.ovf)
        let cells := ((List.range ks).zip rows).flatMap fun r => (List.range ns).map fun n => cell r.1 r.2 n
        let fmt := if mode = 0 then f else target
        (some ({ cls := some (fmtClass fmt), fmt := fmt, elems := cells.map fun c => (c.1, c.2.1) },
          (cells.filter fun c => c.2.2).length), s)

/-! ## Array state -/

/-- An array's record; arrays are numbered 4t + a (Table 1-11). -/
def State.arr (s : State) (i : Nat) : Arr := s.arrs.get {} i

/-- An array's record replaced. -/
def State.setArr (s : State) (i : Nat) (x : Arr) : State := { s with arrs := s.arrs.set i x }

/-- Change an array's record. -/
def State.modArr (s : State) (i : Nat) (f : Arr → Arr) : State := s.setArr i (f (s.arr i))

/-- A half's record. -/
def Arr.half (x : Arr) (h : Nat) : Half := x.halves.get {} h

/-- A half's record replaced. -/
def Arr.setHalf (x : Arr) (h : Nat) (y : Half) : Arr := { x with halves := x.halves.set h y }

/-- Change a half's record. -/
def State.modHalf (s : State) (i h : Nat) (f : Half → Half) : State := s.modArr i fun x => x.setHalf h (f (x.half h))

/-- The number of a weight set of a half. -/
def setKey (h k : Nat) : Nat := 2 * h + k

/-- The number of an accumulator entry. -/
def accKey (h bank row col : Nat) : Nat := ((h * 2 + bank) * 256 + row) * 4096 + col

/-- An accumulator entry. -/
def Arr.entry (x : Arr) (h bank row col : Nat) : W32 := x.acc.get 0 (accKey h bank row col)

/-- An accumulator entry replaced; +0 is not listed. -/
def accPut (m : Table W32) (k : Nat) (v : W32) : Table W32 := if v = 0 then m.drop (· == k) else m.set k v

/-- The block index of array i. -/
def arrBlk (i : Nat) : Nat := 74 + 10 * (i / 4) + i % 4

/-- Weights, accumulators and set alternation at their reset values (R81, R96, R97, R336); queues, stops and shape stay. [DESIGN CHOICE, log entry 8] -/
def Arr.wipe (x : Arr) : Arr :=
  { x with sets := [], acc := [], halves := x.halves.map fun h => (h.1, { h.2 with nextSet := 0, lastSet := 0 }) }

/-- The shape that an operation issued now will run under. -/
def Arr.newest (x : Arr) : Nat := x.next.getLastD x.shape

/-- Every operation that the array holds. -/
def Arr.ops (x : Arr) : List ArrOp := x.halves.flatMap fun h => h.2.q ++ h.2.run

/-! ## Failures (R93 to R95) -/

/-- ARR_FAULT_INFO at an S2 report (Table 4-11). [DEDUCED, log entry 42] -/
def State.arrInfo (s : State) (i det h : Nat) (op : ArrOp) : State :=
  s.setRg (blkR (arrBlk i) 0x0A0) (put 24 op.desc ||| put 16 h ||| put 8 det ||| put 0 op.tally)

/-- A report of an array detector that concerns an operation. [DEDUCED, log entry 42] -/
def State.arrReport (s : State) (i det h : Nat) (op : ArrOp) (inj : Bool := false) : State :=
  let s := s.arrInfo i det h op
  let s := if det = 1 then s.sat (blkR (arrBlk i) 0x088) 0 32 1 else if det = 2 then s.sat (blkR (arrBlk i) 0x090) 0 32 1 else s
  s.flag (arrBlk i) det { injected := inj, ctx := some (s.tile (i / 4)).ctx, detail := s.rg (blkR (arrBlk i) 0x0A0) }

/-- One operation of an array ends: it counts, and progress advances. -/
def State.arrCount (s : State) (i : Nat) : State := (s.wrap (blkR (arrBlk i) 0x060) 48 1).progress (arrBlk i)

/-- One operation fails (R66, R94). -/
def State.arrFail (s : State) (i : Nat) (op : ArrOp) : State :=
  ((s.arrCount i).sat (blkR (arrBlk i) 0x098) 0 32 1).opFail (i / 4) op.tally

/-- A scope stops: its engine gates, and every operation it holds fails (R94). -/
def State.stopScope (s : State) (i h : Nat) : State :=
  let y := (s.arr i).half h
  let s := s.modHalf i h fun y => { y with q := [], run := [], stopped := true, gate := 0, lead := 0, left := 0 }
  (y.run ++ y.q).foldl (fun s op => s.arrFail i op) s

/-- A detector that stops reports on an operation (R94). What a running DRAIN of the scope has written stays written. While the array is torn down it fails nothing (R96). -/
def State.arrStop (s : State) (i det h : Nat) (op : ArrOp) (inj : Bool := false) : State :=
  let s := s.arrReport i det h op inj
  if (s.arr i).tearing then s else s.stopScope i h

/-! ## Issue (R85, R52) -/

/-- Issue an array operation: it fails where its array does not work or its scope is stopped, or meets a full queue; otherwise it
waits in its queue. A half that the shape does not have issues nothing (R52). [DESIGN CHOICE, log entry 41] -/
def State.arrIssue (s : State) (t a kind h desc tally : Nat) : State :=
  let i := 4 * t + a
  let x := s.arr i
  if !(shapeHalves x.newest).contains h then s
  else
    let bytes := match s.prog t with | some p => progArr p desc | none => []
    let op : ArrOp := { kind := kind, desc := desc, tally := tally, bytes := bytes, seq := x.seq, epoch := x.epoch + x.next.length }
    let s := s.modArr i fun x => { x with seq := x.seq + 1, empty := false }
    if !s.ok (arrBlk i) || (x.half h).stopped then s.arrFail i op
    else
      let (full, s) := s.detect (arrBlk i) 5 (decide (4 ≤ (x.half h).q.length)) { ctx := some (s.tile t).ctx, detail := put 24 desc ||| put 16 h ||| put 8 5 ||| put 0 tally }
      if full then (s.arrInfo i 5 h op).arrFail i op
      else s.modHalf i h fun y => { y with q := y.q ++ [op] }

/-! ## Starts -/

/-- The operation at the head of a queue, when it may start: it belongs to the shape in force and no reconfiguration runs. -/
def State.arrHead (s : State) (i h : Nat) : Option ArrOp :=
  let x := s.arr i
  if !s.ok (arrBlk i) || x.reconf || x.tearing then none
  else match (x.half h).q with
    | op :: _ => if op.epoch = x.epoch then some op else none
    | [] => none

/-- Is the operation a stream? -/
def ArrOp.isStream (op : ArrOp) : Bool := op.kind == 2 || op.kind == 3

/-- No operation of the same engine was issued earlier and waits in another half's queue (R85). -/
def Arr.engineTurn (x : Arr) (op : ArrOp) : Bool :=
  x.halves.all fun h => h.2.q.all fun o => o.kind != op.kind || op.seq ≤ o.seq

/-- An operation leaves its queue and runs. -/
def State.arrLaunch (s : State) (i h : Nat) (op : ArrOp) : State :=
  s.modHalf i h fun y => { y with q := y.q.drop 1, run := y.run ++ [op] }

/-- A WLOAD starts (R87): it reads and expands its weights into the next set of its half (R86, R107 to R109). [DESIGN CHOICE, log entry 40] -/
def State.wloadStart (s : State) (t a h : Nat) : State :=
  let i := 4 * t + a
  match s.arrHead i h with
  | none => s
  | some op =>
    let x := s.arr i
    if op.kind ≠ 1 || !x.engineTurn op then s
    else
      let s := s.arrLaunch i h op
      let (chk, s) := s.takeInject (arrBlk i) 3
      let (ue, s) := s.takeInject (arrBlk i) 4
      let k := (x.half h).nextSet
      let turn := fun (s : State) => s.modHalf i h fun y => { y with nextSet := 1 - k, lastSet := k }
      if chk then (turn s).arrStop i 3 h op true
      else match readW op.bytes (shapeKs x.shape) (shapeNs x.shape) s with
        | (none, s) => (turn s).arrStop i 4 h op
        | (some (w, ovf), s) =>
          if ue then (turn s).arrStop i 4 h op true
          else
            let s := s.sat (blkR (encBlk t) 0x060) 0 32 ovf
            turn (s.modArr i fun x => { x with sets := x.sets.set (setKey h k) w })

/-- The cycles in which the rows of a STREAM enter: ⌈ρ × M⌉ (R83, Table 4-4). A weight set that no WLOAD has written since it was cleared has
no format: a K4 row then takes one cycle. [DESIGN CHOICE, log entry 40] -/
def streamCycles (m xf wf : Nat) : Nat :=
  match fmtClass xf with
  | 0 => 6 * m
  | 1 => 2 * m
  | _ => if xf = 5 ∧ wf = 5 then (m + 1) / 2 else m

/-- The columns of a weight set with their scale codes, for a shape. -/
def WSet.columns (w : WSet) (ks ns : Nat) : List (List (Fp × Nat)) :=
  (List.range ns).map fun n => (List.range ks).map fun k =>
    match w.elems[k * ns + n]? with
    | some (c, sc) => operand w.fmt c sc
    | none => (.zero, 127)

/-- A row window during `k` ACLK cycles: where its rows have all entered, its gap begins with the state `spin` (R92). -/
def Half.pass (k spin : Nat) (y : Half) : Half :=
  let left := y.left - (k - y.lead)
  { y with lead := y.lead - k, left := left, gate := if y.gate = 1 && 0 < y.left && left = 0 then spin else y.gate }

/-- The cycles of the next `k` in which rows of a window enter: from the first number up to the second. -/
def Half.span (k : Nat) (y : Half) : Nat × Nat := (min k y.lead, min k (y.lead + y.left))

/-- The cycles that lie in one of the spans of at most two halves. -/
def spanUnion : List (Nat × Nat) → Nat
  | [] => 0
  | [a] => a.2 - a.1
  | a :: b :: _ => (a.2 - a.1) + (b.2 - b.1) - (min a.2 b.2 - max a.1 b.1)

/-- `k` ACLK cycles pass at the edge of an array: rows enter and count in ARR_ROW_CNT, in either half (Table 4-11), and a window that ends
begins a gap (R92). [DESIGN CHOICE, log entry 43] -/
def State.rowsEnter (s : State) (i k : Nat) : State :=
  let open_ := (s.arr i).halves.filter fun h => 0 < h.2.left
  if open_.isEmpty then s
  else
    let spin := if (s.rg (blkR (arrBlk i) 0x050)).toNat = 0 then 0 else 2
    let s := s.wrap (blkR (arrBlk i) 0x068) 48 (spanUnion (open_.map fun h => h.2.span k))
    s.modArr i fun x => { x with halves := x.halves.map fun h => (h.1, h.2.pass k spin) }

/-- The row window of a half has ended: time catches up with the command that says so. [DESIGN CHOICE, log entry 43] -/
def State.windowOver (s : State) (i h : Nat) : State := let y := (s.arr i).half h; s.rowsEnter i (y.lead + y.left)

/-- A STREAM starts (R88), nine cycles ahead of its row window: the class check of R83, then its rows against the weight set of the latest WLOAD (R86). [DESIGN CHOICE, log entry 40] -/
def State.streamStart (s : State) (t a h : Nat) : State :=
  let i := 4 * t + a
  match s.arrHead i h with
  | none => s
  | some op =>
    let x := s.arr i
    let y := x.half h
    let busy := y.run.any fun o => o.kind == 4 && descBank o.bytes == descBank op.bytes
    if !op.isStream || busy then s
    else
      let w := x.sets.get {} (setKey h y.lastSet)
      let cls := fmtClass (u op.bytes 0x40 1)
      let (mis, s) := s.detect (arrBlk i) 6 (decide (w.cls.getD cls ≠ cls))
        { ctx := some (s.tile t).ctx, detail := put 24 op.desc ||| put 16 h ||| put 8 6 ||| put 0 op.tally }
      if mis then
        ((s.modHalf i h fun y => { y with q := y.q.drop 1 }).arrInfo i 6 h op).arrFail i op
      else
        let ks := shapeKs x.shape
        let s := s.arrLaunch i h op
        let (chk, s) := s.takeInject (arrBlk i) 3
        let (ue, s) := s.takeInject (arrBlk i) 4
        if chk then s.arrStop i 3 h op true
        else match readX op.bytes ks s with
          | (none, s) => s.arrStop i 4 h op
          | (some rows, s) =>
            if ue then s.arrStop i 4 h op true
            else
              let cols := w.columns ks (shapeNs x.shape)
              let sums := rows.flatMap fun r => cols.map (entrySum cls r)
              let s := s.modArr i fun x => { x with sets := x.sets.set (setKey h y.lastSet) { w with cls := some cls } }
              (s.windowOver i h).modHalf i h fun y =>
                { y with gate := 1, lead := 9, left := streamCycles (u op.bytes 0x3C 2) (u op.bytes 0x40 1) w.fmt,
                         run := y.run.map fun o => if o.seq = op.seq then { o with sums := sums } else o }

/-- A DRAIN starts (R89). [DESIGN CHOICE, log entry 40] -/
def State.drainStart (s : State) (t a h : Nat) : State :=
  let i := 4 * t + a
  match s.arrHead i h with
  | none => s
  | some op =>
    let x := s.arr i
    let free := x.halves.all fun p => p.2.run.all fun o =>
      !(o.kind == 4 || (p.1 == h && o.isStream && descBank o.bytes == descBank op.bytes))
    if op.kind ≠ 4 || !free || !x.engineTurn op then s else s.arrLaunch i h op

/-! ## Completions -/

/-- The oldest running operation of a half that satisfies `p`; none while the array is torn down, when no engine runs (R96). -/
def State.arrRunning (s : State) (i h : Nat) (p : ArrOp → Bool) : Option ArrOp :=
  if (s.arr i).tearing then none else ((s.arr i).half h).run.find? p

/-- An operation leaves its half. -/
def State.arrRetire (s : State) (i h : Nat) (op : ArrOp) : State :=
  s.modHalf i h fun y => { y with run := y.run.filter fun o => o.seq != op.seq }

/-- An operation completes: it counts, and its tally increments. [DESIGN CHOICE, log entry 76] -/
def State.arrDone (s : State) (i h : Nat) (op : ArrOp) : State := ((s.arrRetire i h op).arrCount i).opDone (i / 4) op.tally

/-- A WLOAD completes (R87). [DESIGN CHOICE, log entry 4] -/
def State.wloadDone (s : State) (t a h : Nat) : State :=
  match s.arrRunning (4 * t + a) h (·.kind == 1) with
  | some op => s.arrDone (4 * t + a) h op
  | none => s

/-- The accumulator after a STREAM (R78, R112). -/
def accStream (clr : Bool) (h bank ns base : Nat) (acc : Table W32) (sums : List EntrySum) : Table W32 :=
  ((List.range sums.length).zip sums).foldl (fun m e =>
    let k := accKey h bank (base + e.1 / ns) (e.1 % ns)
    accPut m k (e.2.apply (if clr then 0 else m.get 0 k))) acc

/-- What the SECDED of the accumulator banks said of the words an operation read (R93): the `ce` corrected words count and report, and
ARR_FAULT_INFO holds a report that escalation raised to S2; the answer is whether a word is uncorrectable, and whether that was injected. [DEDUCED, log entry 42] -/
def State.accEcc (s : State) (i h : Nat) (op : ArrOp) (ce : Nat) (ue : Bool) : (Bool × Bool) × State :=
  let (hit, s) := s.detect (arrBlk i) 0 (decide (0 < ce))
    { ctx := some (s.tile (i / 4)).ctx, detail := put 24 op.desc ||| put 16 h ||| put 0 op.tally }
  let s := if hit then s.sat (blkR (arrBlk i) 0x080) 0 32 (max ce 1) else s
  let s := if hit && 2 ≤ (s.blk (arrBlk i)).eff.get 0 0 then s.arrInfo i 0 h op else s
  let (inj, s) := s.takeInject (arrBlk i) 1
  ((ue || inj, inj && !ue), s)

/-- A STREAM completes (R88): its entries, its scale events (R114 to R116) and its tally. [DESIGN CHOICE, log entry 40, DEDUCED, log entry 44] -/
def State.streamDone (s : State) (t a h ce : Nat) (ue : Bool) : State :=
  let i := 4 * t + a
  match s.arrRunning i h ArrOp.isStream with
  | none => s
  | some op =>
    let s := s.windowOver i h
    let x := s.arr i
    let ((ue, inj), s) := s.accEcc i h op ce ue
    let (res, s) := s.takeInject (arrBlk i) 2
    if ue then s.arrStop i 1 h op inj
    else if res then s.arrStop i 2 h op true
    else
      let acc := accStream (op.kind == 3) h (descBank op.bytes) (shapeNs x.shape) (u op.bytes 0x3E 2) x.acc op.sums
      let sat := (op.sums.filter EntrySum.isSat).length
      let fl := (op.sums.filter EntrySum.isFlush).length
      let s := s.modArr i fun x => { x with acc := acc }
      let s := (s.sat (blkR (arrBlk i) 0x0A8) 0 32 sat).sat (blkR (arrBlk i) 0x0B0) 0 32 fl
      let s := if 0 < sat + fl then s.setRg (blkR (arrBlk i) 0x0B8) (putBit 63 true ||| put 16 h ||| put 0 op.desc) else s
      s.arrDone i h op

/-- One drained row (R118). -/
def drainRow (x : Arr) (h bank row ns fmt : Nat) : List Byte :=
  (List.range ns).flatMap fun n =>
    let c := (x.entry h bank row n).toNat
    if fmt = 0 then leBytes 4 c else leBytes 2 ((fmtOf fmt).enc (fp32.decode c))

/-- The drained rows with the offsets they go to (R118). -/
def drainRows (x : Arr) (h : Nat) (d : List Byte) : List (Nat × List Byte) :=
  (List.range (u d 0x3C 2)).map fun r =>
    (addrOff (u d 0x28 8) + r * u d 0x38 4, drainRow x h (descBank d) (u d 0x3E 2 + r) (shapeNs x.shape) (u d 0x42 1))

/-- The 64 B granules that a DRAIN writes, with the offsets they go to. -/
def drainGrains (x : Arr) (h : Nat) (d : List Byte) : List (Nat × List Byte) :=
  (drainRows x h d).flatMap fun (r : Nat × List Byte) => (List.range (r.2.length / 64)).map fun g => (r.1 + 64 * g, slice r.2 (64 * g) 64)

/-- Result writes (R89): whole granules, which are never refused and never fail. -/
def State.drainPut (s : State) (l : List (Nat × List Byte)) : State := l.foldl (fun s r => (s.volume r.1 r.2.length true).wr r.1 r.2) s

/-- The running DRAIN of a half writes the granules that bring it to `upTo` (R89). -/
def State.drainTo (s : State) (i h upTo : Nat) : State :=
  match s.arrRunning i h (·.kind == 4) with
  | none => s
  | some op =>
    let gs := ((drainGrains (s.arr i) h op.bytes).take upTo).drop op.wrote
    if gs.isEmpty then s
    else (s.drainPut gs).modHalf i h fun y =>
      { y with run := y.run.map fun o => if o.seq = op.seq then { o with wrote := op.wrote + gs.length } else o }

/-- The running DRAIN of a half writes `k` granules more. [DESIGN CHOICE, log entry 40] -/
def State.drainOn (s : State) (i h k : Nat) : State :=
  match s.arrRunning i h (·.kind == 4) with
  | some op => s.drainTo i h (op.wrote + k)
  | none => s

/-- A DRAIN completes (R89, R118): what it has not yet written is written. -/
def State.drainDone (s : State) (t a h ce : Nat) (ue : Bool) : State :=
  let i := 4 * t + a
  match s.arrRunning i h (·.kind == 4) with
  | none => s
  | some op =>
    let ((ue, inj), s) := s.accEcc i h op ce ue
    if ue then s.arrStop i 1 h op inj
    else (s.drainPut ((drainGrains (s.arr i) h op.bytes).drop op.wrote)).arrDone i h op

/-- The operations of an engine: 0 is the load engine, 1 the stream engine, 2 the drain engine. -/
def ofEngine (eng : Nat) (o : ArrOp) : Bool := if eng = 0 then o.kind == 1 else if eng = 1 then o.isStream else o.kind == 4

/-- The engines on whose operations a stopping detector can report (Table 4-9). -/
def canStop (eng det : Nat) : Bool := det == 1 && eng != 0 || det == 2 && eng == 1 || det == 3 && eng != 2 || det == 4 && eng != 2

/-- A stopping detector of an engine reports on its `k`th running operation, the oldest first. A DRAIN of the scope has written at least `upTo`
of its 64 B granules (R94). While the array is torn down the report is made on what ran at the closing (R96). -/
def State.scopeStop (s : State) (t a h eng det k upTo : Nat) : State :=
  let i := 4 * t + a
  match (((s.arr i).half h).run.filter (ofEngine eng))[k]? with
  | none => s
  | some op => if canStop eng det then (s.drainTo i h upTo).arrStop i det h op else s

/-! ## Shapes, gates, teardown and harvest -/

/-- An issued bundle starts a region of the tile's program (R53, R81): FREE_SPIN_MAX applies, and a differing shape waits. -/
def State.applyShapes (s : State) (t pc : Nat) : State :=
  match (s.entries 0x02 t).find? fun e => u e 0 3 == pc with
  | none => s
  | some e => (List.range 4).foldl (fun s a =>
      let i := 4 * t + a
      let s := s.setRg (blkR (arrBlk i) 0x050) (put 0 (u e 8 4))
      let c := u e (4 + a) 1
      if (s.arr i).newest = c then s else s.modArr i fun x => { x with next := x.next ++ [c] }) s

/-- The array starts to reconfigure once every operation issued before the region has completed (R81). -/
def State.shapeChange (s : State) (t a : Nat) : State :=
  let i := 4 * t + a
  let x := s.arr i
  if x.next.isEmpty || x.reconf || x.tearing || x.ops.any (fun o => o.epoch == x.epoch) || !s.up (arrBlk i) then s
  else s.modArr i fun x => { x with reconf := true, halves := x.halves.map fun h => (h.1, { h.2 with gate := 0 }) }

/-- The reconfiguration ends: weights and accumulators clear, and a stop is carried into every scope (R81, R95). The cells stay gated until
the next STREAM. [DESIGN CHOICE, log entry 43] -/
def State.shapeDone (s : State) (t a : Nat) : State :=
  let i := 4 * t + a
  let x := s.arr i
  match x.reconf, x.next with
  | true, c :: rest =>
    let stopped := x.halves.any fun h => h.2.stopped
    let stale := if stopped then x.ops else []
    let hs := (shapeHalves c).map fun h => (h, { q := if stopped then [] else (x.half h).q, stopped := stopped : Half })
    let later := x.halves.filter fun h => !stopped && !(shapeHalves c).contains h.1 && !h.2.q.isEmpty
    let keep := (hs ++ later).foldl (fun (m : Table Half) h => m.set h.1 h.2) []
    let s := s.modArr i fun x => { x.wipe with shape := c, next := rest, reconf := false, epoch := x.epoch + 1, halves := keep }
    stale.foldl (fun s op => s.arrFail i op) s
  | _, _ => s

/-- FREE_SPIN_MAX cycles of a gap have passed: the cells' clocks gate (R92), also while the last STREAM still passes through the array. [DESIGN CHOICE, log entry 43] -/
def State.clockGate (s : State) (t a h : Nat) : State :=
  let s := s.windowOver (4 * t + a) h
  if ((s.arr (4 * t + a)).half h).gate = 2 then s.modHalf (4 * t + a) h fun y => { y with gate := 0 } else s

/-- The context of the tile is marked closing (R96): queues empty, engines stop, and what runs is invalid; it stays listed for a detector that
reports during this work. A change of shape that waits or runs is dropped, and the shape in force stays. [DESIGN CHOICE, log entry 91] -/
def State.arrClose (s : State) (i : Nat) : State :=
  s.modArr i fun x => { x with tearing := true, reconf := false, next := [], clearing := false,
                               halves := x.halves.map fun h => (h.1, { h.2 with q := [], gate := 0, lead := 0, left := 0 }) }

/-- The array reports its teardown complete, or holds nothing since its domain is not ON: weights, accumulators, alternation, stops and ARR_SCALE_LAST are clear (R96, R116). -/
def State.arrTornDown (s : State) (t a : Nat) : State :=
  let i := 4 * t + a
  if (s.arr i).tearing && (s.ok (arrBlk i) || !s.domOn (52 + i)) then
    (s.modArr i fun x => { shape := x.shape, epoch := x.epoch, seq := x.seq }).setRg (blkR (arrBlk i) 0x0B8) 0
  else s

/-- After STEP_END, with every issued operation complete, the harvest clear starts (R97). -/
def State.arrHarvest (s : State) (t a : Nat) : State :=
  let i := 4 * t + a
  let x := s.arr i
  if (s.tile t).spn = 4 && x.ops.isEmpty && !x.tearing && !x.clearing && !x.empty && x.next.isEmpty then
    s.modArr i fun x => { x.wipe with clearing := true, halves := x.wipe.halves.map fun h => (h.1, { h.2 with gate := 0 }) }
  else s

/-- The harvest clear ends: the array reports empty (R97). -/
def State.arrEmpty (s : State) (t a : Nat) : State :=
  if (s.arr (4 * t + a)).clearing then s.modArr (4 * t + a) fun x => { x with clearing := false, empty := true } else s

/-! ## Register views (Table 4-11) -/

/-- ARR_SHAPE. -/
def State.arrShape (s : State) (i : Nat) : W64 :=
  let x := s.arr i
  let h1 := if x.shape < 5 then 0 else 1
  putBit 18 (decide (5 ≤ x.shape) && (x.half 2).nextSet == 1) ||| putBit 17 ((x.half h1).nextSet == 1) ||| putBit 16 x.reconf ||| put 0 x.shape

/-- The state code of a half. -/
def Half.code (y : Half) : Nat := if y.stopped then 3 else y.gate

/-- ARR_STATE. -/
def State.arrState (s : State) (i : Nat) : W64 :=
  let x := s.arr i
  let y1 := x.half (if x.shape < 5 then 0 else 1)
  let y2 := if x.shape < 5 then {} else x.half 2
  put 12 y2.q.length ||| put 8 y1.q.length ||| put 4 y2.code ||| put 0 y1.code

end Sys2Proof.Machine
end

