-- ==== Sys2Proof/Machine/Sched.lean ====
section
/-!
DEFINITION. The creel's quotas (R218 to R221), the scheduler's nodes (R204, R205, R209), the queues of every port, and the choice of the
next packet (R206 to R208).
-/
namespace Sys2Proof.Machine

/-- A port's record. -/
def State.port (s : State) (p : Nat) : Port := s.ports.get {} p

/-- A port's record replaced. -/
def State.setPort (s : State) (p : Nat) (x : Port) : State := { s with ports := s.ports.set p x }

/-- Change a port's record. -/
def State.modPort (s : State) (p : Nat) (f : Port → Port) : State := s.setPort p (f (s.port p))

/-- Change the switch core's record. -/
def State.modSwc (s : State) (f : Swc → Swc) : State := { s with swc := f s.swc }

/-! ## Queues -/

/-- The packets that a port holds. -/
def Port.held (x : Port) : List QPkt := x.nodes.flatMap (fun n => n.2.q) ++ x.sel.toList

/-- Queue occupancy in flits (R178, R205). -/
def Port.occ (x : Port) : Nat := x.held.foldl (fun n k => n + k.pkt.flits) 0

/-- Is the packet a tree packet? -/
def isTree (k : Pkt) : Bool := k.kind == 5

/-! ## The creel -/

/-- The quota of a requester class before the first image (Table 9-8). [DESIGN CHOICE, log entry 36] -/
def quota0 (k : Nat) : Nat :=
  match k with
  | 0 => 4096
  | 1 => 262144
  | 4 => 65536
  | 5 => 65536
  | 6 => 65536
  | _ => 0

/-- The quota in force (R220, R221). [DESIGN CHOICE, log entry 36] -/
def State.quota (s : State) (k : Nat) : Nat :=
  if k = 0 then 4096 - s.retired.length
  else if (s.img.bind fun i => i.sec 0x08 noInst).isSome then match s.entryAt 0x08 noInst (k - 1) with | some e => u e 4 4 | none => 0
  else quota0 k

/-- The bobbins that a class holds (Table 9-8): 0 control packets, 1 loose packets, 2 VC buffers, 3 tree packets, 4 inbound requests
that await memory, 5 host-window staging, 6 CXL.mem staging, 7 early arrivals. -/
def State.bobHeld (s : State) (k : Nat) : List Nat :=
  match k with
  | 2 => s.vcBobs
  | 4 => s.cxls.flatMap fun (c : Nat × Cxl) => c.2.reqs.filterMap fun r => r.tgt
  | 5 => (s.swc.reqs.filterMap fun r => r.use.bob) ++ s.swc.waitq.filterMap fun (w : Nat × LReq × ReqFor) => w.2.2.bob
  | 6 => s.cxls.flatMap fun (c : Nat × Cxl) => c.2.reqs.map fun r => r.bob
  | 7 => s.swc.early.map fun e => e.bob
  | 3 => (s.ports.flatMap fun (x : Nat × Port) => (x.2.held.filter fun q => q.cls == k).map fun q => q.bob) ++
      s.insts.flatMap fun (x : Nat × Inst) => x.2.staged.map fun c => c.2
  | _ => s.ports.flatMap fun (x : Nat × Port) => (x.2.held.filter fun q => q.cls == k).map fun q => q.bob

/-- BOB_USED_k. -/
def State.bobUsed (s : State) (k : Nat) : Nat := (s.bobHeld k).length

/-- Every bobbin that is not free. -/
def State.bobBusy (s : State) : List Nat := s.retired ++ (List.range 8).flatMap s.bobHeld

/-- The free bobbins: BOB_FREE (R218). A bobbin retired while it is held counts once (R221). -/
def State.bobFree (s : State) : Nat := 524288 - s.bobBusy.eraseDups.length

/-- The lowest-numbered bobbin from `k` on that is not in the list; `f` bounds the search. -/
def lowestFree (busy : List Nat) : Nat → Nat → Nat
  | 0, k => k
  | f + 1, k => if busy.contains k then lowestFree busy f (k + 1) else k

/-- A request for one bobbin (R218, R219): its status, the bobbin, and the failure's count. [DEDUCED, log entry 85] -/
def State.bobTake (s : State) (k : Nat) : Nat × Nat × State :=
  let (bad, s) := s.detect 6 3 false
  let s := if bad then { s with bitmapBad := true } else s
  if s.bitmapBad || !s.up 6 then (stPool, 0, s.sat (blkR 6 (0x1C0 + 8 * k)) 32 32 1)
  else if s.quota k ≤ s.bobUsed k then (stQuota, 0, s.sat (blkR 6 (0x1C0 + 8 * k)) 0 32 1)
  else if s.bobFree = 0 then (stPool, 0, s.sat (blkR 6 (0x1C0 + 8 * k)) 32 32 1)
  else
    let b := lowestFree s.bobBusy s.bobBusy.length 0
    (stOk, b, { s with bobUps := s.bobUps.drop fun j => j == b }.peak (blkR 6 (0x180 + 8 * k)) (s.bobUsed k + 1))

/-- `n` bobbins at once for the VC buffers (R220): the lowest free ones. -/
def State.bobReserve (s : State) (n : Nat) : State :=
  let s := { s with vcBobs := [] }
  let busy := s.bobBusy
  let got := ((List.range (n + busy.length)).filter fun k => !busy.contains k).take n
  ({ s with vcBobs := got }).peak (blkR 6 (0x180 + 16)) n

/-- A corrected bobbin word (R221). -/
def State.bobCe (s : State) (k : Nat) (inj : Bool) : State :=
  let v : W64 := putBit 63 true ||| put 0 k
  ((s.sat (blkR 6 0x058) 0 32 1).setRg (blkR 6 0x050) v).flag 6 0 { detail := v, injected := inj }

/-- An uncorrectable bobbin word: the bobbin is retired when its holder frees it, and one of a reserved VC buffer is replaced at once by the
lowest free bobbin (R221). -/
def State.bobUe (s : State) (k : Nat) (inj : Bool) : State :=
  let v : W64 := putBit 63 true ||| putBit 62 true ||| put 0 k
  let s := ((s.sat (blkR 6 0x060) 0 32 1).setRg (blkR 6 0x050) v).flag 6 1 { detail := v, injected := inj }
  if s.retired.contains k then s
  else
    let s := { s with retired := s.retired ++ [k] }
    let s := if s.vcBobs.contains k then
        let b := lowestFree s.bobBusy s.bobBusy.length 0
        { s with vcBobs := s.vcBobs.map fun j => if j = k then b else j }
      else s
    (s.detect 6 2 (s.retired.length == 3072)).2

/-- A bobbin is read (R221): whether its holder's packet or chunk survives. -/
def State.readBob (s : State) (b : Nat) : Bool × State :=
  let e := s.bobUps.get .clean b
  let s := { s with bobUps := s.bobUps.drop fun j => j == b }
  let (ji, s) := s.takeInject 6 1
  let (jc, s) := s.takeInject 6 0
  if e = .uncorrectable || ji then (false, s.bobUe b (e != .uncorrectable))
  else if e = .corrected || jc then (true, s.bobCe b (e != .corrected))
  else (true, s)

/-- Words of bobbins change (R221). [DESIGN CHOICE, log entry 6] -/
def State.bobUpset (s : State) (l : List (Nat × Ecc)) : State := { s with bobUps := l.foldl (fun m x => m.set x.1 x.2) s.bobUps }

/-! ## Scheduler nodes -/

/-- A node of the tree (Table 9-2). -/
structure NodeCfg where
  svc : Bool
  service : Nat
  sub : Nat
  weight : Nat
  rate : Nat
  burst : Nat
  adj : Bool
  deriving DecidableEq, Repr

/-- The tree before the first image (R205). [DESIGN CHOICE, log entry 36] -/
def nodes0 : List NodeCfg :=
  (List.range 8).map (fun v => ⟨true, v, 255, 1, 0, 0, false⟩) ++ (List.range 8).map fun v => ⟨false, v, 64, 1, 0, 0, false⟩

/-- A SCHED_TREE entry. -/
def nodeOfEntry (e : List Byte) : NodeCfg :=
  ⟨u e 0 1 == 0, u e 1 1, u e 2 1, u e 3 1, u e 4 2, u e 8 4, bitOf (u e 0xC 1) 0⟩

/-- The tree in force. [DESIGN CHOICE, log entry 36] -/
def State.nodeCfgs (s : State) : List NodeCfg :=
  if (s.img.bind fun i => i.sec 0x07 noInst).isSome then (s.entries 0x07 noInst).map nodeOfEntry else nodes0

/-- The rate and burst in force at a node (R209). -/
def State.shape (s : State) (n : Nat) (c : NodeCfg) : Nat × Nat := (s.shapes.find n).getD (c.rate, c.burst)

/-- The subscriber of a packet (R203). -/
def State.subscriber (s : State) (k : Pkt) : Nat :=
  if k.unit = 8 || k.unit = 9 || k.service = 0 then 64
  else match s.ctxEntry k.ctx with
    | some (_, _, sub) => sub
    | none => 64

/-- The subscriber node of a service and a subscriber. -/
def State.nodeFor (s : State) (service sub : Nat) : Nat :=
  let cs := s.nodeCfgs
  let at_ := fun (b : Nat) => findIdxOpt (fun (c : NodeCfg) => !c.svc && c.service == service && c.sub == b) cs 0
  match at_ sub with
  | some n => n
  | none => (at_ 64).getD (8 + service)

/-- 1 in 4,096 flits by weight (R206). -/
def NodeCfg.cost (c : NodeCfg) : Nat := if c.weight = 0 then 4096 else 4096 / c.weight

/-- `a` lies below `b` by the sign of their 32-bit difference (R207). -/
def tagLt (a b : Nat) : Bool := let d := (a + 2 ^ 32 - b) % 2 ^ 32; 2 ^ 31 ≤ d

/-- The later of two tags. -/
def tagMax (a b : Nat) : Nat := if tagLt a b then b else a

/-- Of candidates (node, tag, x) in index order, the one with the lowest tag, ties to the lower node (R206). -/
def lowest {α : Type} : List (Nat × Nat × α) → Option (Nat × Nat × α)
  | [] => none
  | c :: cs => match lowest cs with
    | none => some c
    | some d => if tagLt d.2.1 c.2.1 then some d else some c

/-- The shaper of a node lets a packet of some flits pass (R208). -/
def State.shaperOk (s : State) (x : Port) (n : Nat) (c : NodeCfg) (flits : Nat) : Bool :=
  let (rate, burst) := s.shape n c
  rate = 0 || flits * 64 + (x.nodes.get {} n).used ≤ burst

/-- The base of a node that is eligible now (R206). -/
def nodeBase (nd : Node) (v : Nat) : Nat := if nd.eligible then nd.base else tagMax v nd.last

/-- The subscriber nodes of a service that hold a packet: node, configuration and head. -/
def State.subHeads (s : State) (x : Port) (service : Nat) : List (Nat × NodeCfg × QPkt) :=
  let cs := s.nodeCfgs
  ((List.range cs.length).zip cs).filterMap fun c =>
    if c.2.svc || c.2.service != service then none
    else (x.nodes.get {} c.1).q.head?.map fun h => (c.1, c.2, h)

/-- What the subscriber level of a service would choose: node, tag and packet. -/
def State.subChoice (s : State) (x : Port) (service : Nat) : Option (Nat × Nat × QPkt) :=
  lowest (((s.subHeads x service).filter fun h => s.shaperOk x h.1 h.2.1 h.2.2.pkt.flits).map fun h =>
    (h.1, (nodeBase (x.nodes.get {} h.1) (x.vt.get 0 service) + h.2.2.pkt.flits * h.2.1.cost) % 2 ^ 32, h.2.2))

/-- What the service level would choose: service, tag, and the subscriber's choice. -/
def State.svcChoice (s : State) (x : Port) : Option (Nat × Nat × (Nat × Nat × QPkt)) :=
  lowest ((List.range 8).filterMap fun v =>
    match s.subChoice x v, s.nodeCfgs[v]? with
    | some b, some c =>
      if s.shaperOk x v c b.2.2.pkt.flits then
        some (v, (nodeBase (x.nodes.get {} v) (x.vt.get 0 8) + b.2.2.pkt.flits * c.cost) % 2 ^ 32, b)
      else none
    | _, _ => none)

/-- The nodes of a port with their bases and eligibility as a selection finds them (R206). -/
def State.freshen (s : State) (x : Port) : Port :=
  let cs := s.nodeCfgs
  let ns := ((List.range cs.length).zip cs).foldl (fun (m : Table Node) c =>
    let nd := m.get {} c.1
    let el : Bool := if c.2.svc then
        (match s.subChoice x c.2.service with
          | some b => s.shaperOk x c.1 c.2 b.2.2.pkt.flits
          | none => false)
      else (match nd.q.head? with
          | some h => s.shaperOk x c.1 c.2 h.pkt.flits
          | none => false)
    let v := x.vt.get 0 (if c.2.svc then 8 else c.2.service)
    if el then m.set c.1 { nd with base := nodeBase nd v, eligible := true }
    else if nd.eligible then m.set c.1 { nd with eligible := false } else m) x.nodes
  { x with nodes := ns }

/-- The services at which a shaper refused a node at this selection (SCH_SHAPED_CNT_s). -/
def State.refusedAt (s : State) (x : Port) : List Nat :=
  (List.range 8).filter fun v =>
    (s.subHeads x v).any (fun h => !s.shaperOk x h.1 h.2.1 h.2.2.pkt.flits) ||
    (match s.subChoice x v, s.nodeCfgs[v]? with
      | some b, some c => !s.shaperOk x v c b.2.2.pkt.flits
      | _, _ => false)

/-- One selection at a port (R206, R207, R208): the packet leaves its list, and its path is charged. [DESIGN CHOICE, log entry 69] -/
def State.select (s : State) (p : Nat) : Option QPkt × State :=
  let x := s.freshen (s.port p)
  let s := (s.refusedAt x).foldl (fun s v => s.sat (blkR 4 (0x140 + 8 * v)) 0 32 1) s
  match s.svcChoice x with
  | none => (none, s.setPort p x)
  | some (v, tv, n, tn, k) =>
    let debit := fun (i : Nat) (nd : Node) => match s.nodeCfgs[i]? with
      | some c => if (s.shape i c).1 = 0 then nd else { nd with used := nd.used + k.pkt.flits * 64 }
      | none => nd
    let sn := debit v { x.nodes.get {} v with last := tv, base := tv }
    let un := debit n { x.nodes.get {} n with last := tn, base := tn, q := (x.nodes.get {} n).q.drop 1 }
    let x := { x with nodes := (x.nodes.set v sn).set n un, vt := (x.vt.set 8 tv).set v tn }
    (some k, (s.setPort p x).progress 4)

/-- When a port's queue becomes empty, every tag of the port is 0 (R207). -/
def State.restIfEmpty (s : State) (p : Nat) : State :=
  let x := s.port p
  if x.held.isEmpty then
    s.setPort p { x with vt := [], nodes := x.nodes.map fun (n : Nat × Node) => (n.1, { n.2 with last := 0, base := 0, eligible := false }) }
  else s

/-- One refill of every shaped bucket (R208), at which changed shapes take effect (R209). [DESIGN CHOICE, log entry 69] -/
def State.refill (s : State) : State :=
  let old := s.shapes
  let changed := s.newShapes.map fun (c : Nat × Nat × Nat) => c.1
  let s := { s with shapes := s.newShapes.foldl (fun (m : Table (Nat × Nat)) (c : Nat × Nat × Nat) => m.set c.1 c.2) s.shapes, newShapes := [] }
  let period := max 1 ((s.rg (blkR 4 0x040)).fld 0 5)
  let s := ((List.range 48).flatMap fun p => changed.map fun n => (p, n)).foldl (fun (s : State) (c : Nat × Nat) =>
    s.modPort c.1 fun x => { x with nodes := x.nodes.set c.2 (x.nodes.get {} c.2) }) s
  let cs := s.nodeCfgs
  let step := fun (n : Nat) (nd : Node) => match cs[n]? with
    | none => nd
    | some c =>
      let (rate, burst) := s.shape n c
      let was := ((old.find n).getD (c.rate, c.burst)).2
      let tokens := min burst (was - nd.used + 5 * rate * period)
      { nd with used := burst - tokens }
  { s with ports := s.ports.map fun (x : Nat × Port) => (x.1, { x.2 with nodes := x.2.nodes.map fun (n : Nat × Node) => (n.1, step n.1 n.2) }) }

/-- SCH_SHAPE_CTRL (R209); ignored while the domain is not ON (R18). [DESIGN CHOICE, log entry 69] -/
def State.shapeCtrl (s : State) (v : W64) : State :=
  if !s.domOn 1 then s else
  let n := v.fld 48 10
  let rate := v.fld 32 16
  let burst := v.fld 0 24
  match s.nodeCfgs[n]? with
  | some c =>
    if !c.adj || rate = 0 || c.rate < rate || burst < 320 || c.burst < burst then s.flag 4 0
    else { s with newShapes := s.newShapes.set n (rate, burst) }
  | none => s.flag 4 0

/-- SCH_NODE_n (Table 9-9). [DEDUCED, log entry 86] -/
def State.schNode (s : State) (n : Nat) : W64 :=
  match s.nodeCfgs[n]? with
  | some c => let (r, b) := s.shape n c; putBit 63 c.adj ||| put 32 r ||| put 0 (b % 2 ^ 24)
  | none => 0

/-- A port whose queue is emptied: its tags are 0 (R207), and its buckets stay as they are (R208). [DESIGN CHOICE, log entry 69] -/
def Port.drained (x : Port) : Port :=
  { x with nodes := x.nodes.map fun (n : Nat × Node) => (n.1, { used := n.2.used }), vt := [], sel := none }

/-- STATE_PARITY of the scheduler: every queued packet is discarded (Table 9-10). -/
def State.dropQueues (s : State) : State := { s with ports := s.ports.map fun (x : Nat × Port) => (x.1, x.2.drained) }

end Sys2Proof.Machine
end

