-- ==== Sys2Proof/Machine/Reach.lean ====
section
/-!
DEFINITION. An access of a unit of this device to local memory, whatever the tier: the package links on its way (R12), the check of the map
and of the rights (R127, R128), the staging of a CXL access (R219), and the read or the write itself (R136, R137, R144).
-/
namespace Sys2Proof.Machine

/-- An access of tile t cannot reach an offset: it leaves the tile while its package link is down, or goes to the store or the stack of a tile
whose link is down (R12, PKG_LINK_DOWN). An access of the fabric die (`none`) needs the second only. -/
def State.linkBars (s : State) (t : Option Nat) (o n : Nat) : Bool := (granules o n).any fun g =>
  let own := match s.place_ g with
    | .store u _ => some u == t
    | .hbm k _ => some k == t
    | _ => false
  !own && ((match t with | some x => !(s.tile x).linkUp | none => false) ||
    (match s.place_ g with | .store u _ => !(s.tile u).linkUp | .hbm k _ => !(s.tile k).linkUp | _ => false))

/-- The access touches a CXL half that fails (R143, R144). -/
def State.cxlBars (s : State) (o n : Nat) : Bool := (granules o n).any s.cxlDown

/-- The access touches the CXL tier. -/
def State.inCxl (s : State) (o n : Nat) : Bool := (s.servers o n).any fun b => b == 14 || b == 15

/-- The way to the memory is free: the checks in order, and a bobbin of class CXL for the time of the access (Table 9-8). -/
def State.way (s : State) (t : Option Nat) (w : Who) (o n : Nat) (write : Bool) : Nat × State :=
  match s.access w o n write with
  | (0, s) =>
    if s.linkBars t o n || s.cxlBars o n then (stRemote, s)
    else if s.inCxl o n then (let (st, _, s) := s.bobTake 6; (st, s))
    else (stOk, s)
  | (st, s) => (st, s)

/-- A read of `n` bytes by a unit of tile `t`, or of the fabric die: a status and the data. -/
def State.fetch (s : State) (t : Option Nat) (w : Who) (o n : Nat) : (Nat × List Byte) × State :=
  match s.way t w o n false with
  | (0, s) => s.load o n
  | (st, s) => ((st, []), s)

/-- A write by a unit of tile `t`, or of the fabric die: its status. -/
def State.put_ (s : State) (t : Option Nat) (w : Who) (o : Nat) (bs : List Byte) : Nat × State :=
  match s.way t w o bs.length true with
  | (0, s) => s.save o bs
  | (st, s) => (st, s)

end Sys2Proof.Machine
end

