-- ==== Sys2Proof/Machine/Wire.lean ====
section
/-!
DEFINITION. What goes over a fabric link, byte by byte: loose and tree packets with their CRC-32C (Tables 8-3 and 10-6), wire chunks
with theirs (Tables 10-5 and 11-2), control flits (Tables 7-3 and 7-4), frames (Table 7-2), and what the FEC makes of the symbols that
arrive in error (R154).
-/
namespace Sys2Proof.Machine

/-- A flag at a bit of a number. -/
def flagBit (i : Nat) (b : Bool) : Nat := if b then 2 ^ i else 0

/-- A byte string cut or filled with zeros to `n` bytes. -/
def sized (n : Nat) (bs : List Byte) : List Byte := bs.take n ++ List.replicate (n - bs.length) 0

/-- A flit's first 60 bytes with their CRC-32C in bytes 0x3C to 0x3F. -/
def withCrc (bs : List Byte) : List Byte := bs ++ leBytes 4 (crc32c bs)

/-- A signed number of `w` bits as two's complement. -/
def unsigned (w : Nat) (v : Int) : Nat := (v % (2 ^ w : Nat)).toNat

/-! ## Loose and tree packets (R177) -/

/-- Byte 0x03 of a head. -/
def pktFlags (k : Pkt) : Nat :=
  flagBit 0 k.mark + flagBit 1 k.echo + flagBit 2 k.deflected + flagBit 3 k.seqValid + flagBit 4 k.priv + flagBit 5 k.retx

/-- The fields of Table 10-6, in bytes 0x21 to 0x3B of kinds 5 and 6; bytes 0x34 to 0x3B carry what no table gives a place. [DESIGN CHOICE, log entry 65] -/
def pktGroup (k : Pkt) : List Byte :=
  leBytes 1 k.sub ++ leBytes 2 (k.group % 16384) ++ leBytes 2 k.gseq ++ leBytes 2 k.srcMember ++ leBytes 2 k.dstMember ++ leBytes 1 k.part ++
  leBytes 1 k.stat ++ leBytes 4 k.value ++ leBytes 4 k.harvest ++ leBytes 1 (k.half % 2 + flagBit 1 k.gath) ++ leBytes 3 0 ++ leBytes 4 k.total

/-- Bytes 0x00 to 0x3B of a head (Table 8-3). -/
def pktHead (k : Pkt) : List Byte :=
  leBytes 1 k.kind ++ leBytes 1 k.service ++ leBytes 1 k.flits ++ leBytes 1 (pktFlags k) ++ leBytes 2 (k.dst % 16384) ++ leBytes 2 (k.src % 16384) ++
  leBytes 1 (k.ctx % 64) ++ leBytes 1 (k.unit % 16) ++ leBytes 2 k.gen ++ leBytes 2 k.age ++ leBytes 1 k.hops ++ leBytes 1 k.dclass ++
  leBytes 2 k.tag ++ leBytes 2 k.seq ++ leBytes 4 k.length ++ leBytes 8 k.address ++ leBytes 1 k.status ++
  (if k.kind = 5 ∨ k.kind = 6 then pktGroup k else List.replicate 27 0)

/-- The payload flits of a packet. -/
def pktBody (k : Pkt) : List Byte := sized (64 * (k.flits - 1)) k.data

/-- The CRC-32C of a packet: bytes 0x03, 0x0C to 0x0E and 0x3C to 0x3F count as zero (R177). -/
def pktCrc (k : Pkt) : Nat :=
  crc32c (pktHead { k with mark := false, echo := false, deflected := false, seqValid := false, priv := false, retx := false, age := 0, hops := 0 } ++
    List.replicate 4 0 ++ pktBody k)

/-- The check of a packet at its destination passes. -/
def pktOk (k : Pkt) : Bool := k.crc == pktCrc k

/-- A packet with the CRC that its source computes. -/
def pktSeal (k : Pkt) : Pkt := { k with crc := pktCrc k }

/-- A packet as flits of 64 B. -/
def pktBytes (k : Pkt) : List Byte := pktHead k ++ leBytes 4 k.crc ++ pktBody k

/-- The packet that a head flit and its payload flits are. -/
def pktOf (h body : List Byte) : Pkt :=
  let f := u h 3 1
  { kind := u h 0 1, service := u h 1 1, flits := u h 2 1, mark := bitOf f 0, echo := bitOf f 1, deflected := bitOf f 2, seqValid := bitOf f 3,
    priv := bitOf f 4, retx := bitOf f 5, dst := u h 4 2 % 16384, src := u h 6 2 % 16384, ctx := u h 8 1 % 64, unit := u h 9 1 % 16, gen := u h 0xA 2,
    age := u h 0xC 2, hops := u h 0xE 1, dclass := u h 0xF 1, tag := u h 0x10 2, seq := u h 0x12 2, length := u h 0x14 4, address := u h 0x18 8,
    status := u h 0x20 1, sub := u h 0x21 1, group := u h 0x22 2 % 16384, gseq := u h 0x24 2, srcMember := u h 0x26 2, dstMember := u h 0x28 2,
    part := u h 0x2A 1, stat := u h 0x2B 1, value := u h 0x2C 4, harvest := u h 0x30 4, half := u h 0x34 1 % 2, gath := bitOf (u h 0x34 1) 1,
    total := u h 0x38 4, data := body.take (u h 0x14 4), crc := u h 0x3C 4 }

/-- The loose flits of a frame as packets: each head says how many flits its packet has. -/
def pktsOf : Nat → List (List Byte) → List Pkt
  | 0, _ => []
  | _, [] => []
  | n + 1, h :: rest =>
    let m := u h 2 1 - 1
    pktOf h (rest.take m).flatten :: pktsOf n (rest.drop m)

/-! ## Wire chunks (R233, R260) -/

/-- Bytes 0x00 to 0x3B of a chunk's head (Tables 10-5 and 11-2). -/
def chunkHead (c : Chunk) : List Byte :=
  leBytes 1 (flagBit 0 c.gather) ++ leBytes 1 (flagBit 0 c.confirmed + flagBit 1 c.wide + 4 * (c.half % 2)) ++ leBytes 2 0 ++
  leBytes 2 (c.ring % 4096 + 32768 * (c.vc % 2)) ++ leBytes 2 (c.group % 16384) ++ leBytes 2 c.seq ++ leBytes 1 (c.ctx % 64) ++
  leBytes 1 (16 * (c.operator % 16) + c.op % 16) ++ leBytes 2 c.gen ++ leBytes 2 c.origin ++ leBytes 4 c.chunk ++ leBytes 2 (unsigned 16 c.wbase) ++
  leBytes 1 c.fmt ++ leBytes 1 0 ++ leBytes 4 c.harvest ++ leBytes 2 c.slow ++ leBytes 2 0 ++ leBytes 4 c.slowWait ++ leBytes 4 c.aux ++
  leBytes 1 c.version ++ leBytes 1 c.limb ++ leBytes 1 c.lo ++ List.replicate 17 0

/-- The CRC-32C of a chunk: bytes 0x04 to 0x05 and 0x1C to 0x23 count as zero (R260). -/
def chunkCrc (c : Chunk) : Nat :=
  crc32c (chunkHead { c with ring := 0, vc := 0, slow := 0, slowWait := 0 } ++ List.replicate 4 0 ++ sized 4096 c.data)

/-- A chunk's check passes: the CRC is that of the chunk as received. -/
def chunkOk (c : Chunk) : Bool := c.crc == chunkCrc c

/-- A chunk with a fresh CRC. -/
def chunkSeal (c : Chunk) : Chunk := { c with crc := chunkCrc c }

/-- A chunk as its 65 flits' bytes. -/
def chunkBytes (c : Chunk) : List Byte := chunkHead c ++ leBytes 4 c.crc ++ sized 4096 c.data

/-- The chunk that 65 flits are. -/
def chunkOf (h : List Byte) : Chunk :=
  let f := u h 1 1
  let r := u h 4 2
  { gather := u h 0 1 == 1, confirmed := bitOf f 0, wide := bitOf f 1, half := fld f 2 1, ring := fld r 0 12, vc := fld r 15 1, group := u h 6 2 % 16384,
    seq := u h 8 2, ctx := u h 0xA 1 % 64, op := fld (u h 0xB 1) 0 4, operator := fld (u h 0xB 1) 4 4, gen := u h 0xC 2, origin := u h 0xE 2,
    chunk := u h 0x10 4, wbase := signed 16 (u h 0x14 2), fmt := u h 0x16 1, harvest := u h 0x18 4, slow := u h 0x1C 2, slowWait := u h 0x20 4,
    aux := u h 0x24 4, version := u h 0x28 1, limb := u h 0x29 1, lo := u h 0x2A 1, data := slice h 64 4096, crc := u h 0x3C 4 }

/-! ## Control flits (R157, R164) -/

/-- Bytes 0x03 to 0x3B of a hello (Table 7-4). -/
def helloBytes (h : Hello) : List Byte :=
  leBytes 1 (flagBit 0 h.chipValid + flagBit 1 h.planValid + flagBit 2 h.variantH + 8 * (h.flags % 32)) ++ leBytes 2 h.chip ++ leBytes 1 h.port ++
  leBytes 1 h.rack ++ leBytes 8 h.plan.toNat ++ leBytes 4 h.fw ++ leBytes 4 h.lowest ++ leBytes 4 h.highest ++ leBytes 2 h.part ++ sized 30 h.rest

/-- The hello that bytes 0x03 to 0x3B are: every bit of them is kept, since R164 compares them all. -/
def helloOf (t : List Byte) : Hello :=
  let f := u t 3 1
  { chipValid := bitOf f 0, planValid := bitOf f 1, variantH := bitOf f 2, flags := fld f 3 5, chip := u t 4 2, port := u t 6 1, rack := u t 7 1,
    plan := BitVec.ofNat 64 (u t 8 8), fw := u t 0x10 4, lowest := u t 0x14 4, highest := u t 0x18 4, part := u t 0x1C 2, rest := slice t 0x1E 30 }

/-- A control flit's type and its content from byte 3 (Table 7-3). -/
def ctlBody : Ctl → Nat × List Byte
  | .idle => (0, [])
  | .hello h => (1, helloBytes h)
  | .verdict v => (2, leBytes 1 v)
  | .eiReq => (3, [])
  | .eiAck => (4, [])
  | .eiNak => (5, [])
  | .trim l k up => (6, [BitVec.ofNat 8 l, BitVec.ofNat 8 k, if up then 1 else 0xFF])
  | .pinned r off => (7, leBytes 2 (r % 4096) ++ leBytes 1 off)

/-- A control flit, 64 B (R157). -/
def ctlFlit (slot : Nat) (c : Ctl) : List Byte :=
  withCrc (leBytes 1 (ctlBody c).1 ++ leBytes 2 (slot % 1024) ++ sized 57 (ctlBody c).2)

/-- The control flit that 64 bytes are: none where its CRC fails or its type is unknown (R157). A TRIM's third byte is +1 or −1; any other is
no request that a transmitter performs. [DEDUCED, log entry 30] -/
def ctlOf (t : List Byte) : Option Ctl :=
  if u t 60 4 ≠ crc32c (sized 60 t) then none
  else match u t 0 1 with
    | 0 => some .idle
    | 1 => some (.hello (helloOf t))
    | 2 => some (.verdict (u t 3 1))
    | 3 => some .eiReq
    | 4 => some .eiAck
    | 5 => some .eiNak
    | 6 => if u t 5 1 = 1 then some (.trim (u t 3 1) (u t 4 1) true)
           else if u t 5 1 = 255 then some (.trim (u t 3 1) (u t 4 1) false) else some .idle
    | 7 => some (.pinned (fld (u t 3 2) 0 12) (u t 5 1))
    | _ => none

/-! ## Frames (R155) -/

/-- The type of a flit position (Table 7-2): 0 empty, 1 pinned, 2 loose, 3 control. -/
def frameType (f : Frame) (j : Nat) : Nat := fld (u f.bytes 0 5) (2 * j) 2

/-- The 64 B of a flit position. -/
def frameFlit (f : Frame) (j : Nat) : List Byte := slice f.bytes (5 + 64 * j) 64

/-- The flits of positions 1 to 19 of a type, in order. -/
def frameFlits (f : Frame) (typ : Nat) : List (List Byte) :=
  ((List.range 19).filter fun i => frameType f (i + 1) == typ).map fun i => frameFlit f (i + 1)

/-- The control flit of a frame, where it has a valid one. -/
def frameCtl (f : Frame) : Option Ctl := if frameType f 0 = 3 then ctlOf (frameFlit f 0) else none

/-- The slot number of a frame: bytes 1 and 2 of its control flit. -/
def frameSlotNo (f : Frame) : Nat := fld (u (frameFlit f 0) 1 2) 0 10

/-- The pinned flits of a frame. -/
def framePinned (f : Frame) : List (List Byte) := frameFlits f 1

/-- The loose and tree packets of a frame. -/
def frameLoose (f : Frame) : List Pkt := pktsOf 19 (frameFlits f 2)

/-- The frame of a slot: its control flit, its pinned flits, then its packets, and empty positions (Table 7-2). -/
def mkFrame (slot : Nat) (c : Ctl) (pinned : List (List Byte)) (loose : List Pkt) : Frame :=
  let body := loose.flatMap pktBytes
  let n := pinned.length
  let m := body.length / 64
  let types := 3 :: (List.replicate n 1 ++ List.replicate m 2)
  let map_ := ((List.range 20).zip types).foldl (fun a x => a + x.2 * 4 ^ x.1) 0
  { bytes := leBytes 5 map_ ++ ctlFlit slot c ++ sized 1216 (pinned.flatMap (sized 64) ++ body) }

/-! ## FEC (R154) -/

/-- The symbols of a codeword that arrived in error. -/
def cwErrors (f : Frame) (k : Nat) : List Nat := ((f.errs.getD k []).filter fun i => decide (i < 544)).eraseDups

/-- A codeword with more than 15 symbol errors is uncorrectable; a lane that fails outright spoils 136 of its symbols. -/
def cwBad (f : Frame) (k : Nat) : Bool := decide (15 < (cwErrors f k).length)

/-- The symbols of a lane that the decoder corrects in a codeword: symbol i travels on lane i mod 4. -/
def cwFixed (f : Frame) (k lane : Nat) : Nat := if cwBad f k then 0 else ((cwErrors f k).filter fun i => i % 4 == lane).length

end Sys2Proof.Machine
end

