-- ==== Sys2Proof/Machine/Switch.lean ====
section
/-!
DEFINITION. The parts of a host access (R363, R364) and what hears of the end of a request; the switch core's loose and tree paths (chapter 08): lookup, the deflection order (R179 to R183), age and hops (R184,
R185), the bobbin of each queued packet (R178), egress (R175, R206), and the bank of the destination table.
-/
namespace Sys2Proof.Machine

/-! ## The end of a request -/

/-- A host access is complete (R364): a read is answered, and a failure counts. -/
def State.hostEnd (s : State) (t : HostTlp) : State :=
  let s := s.progress 8
  match t.fail with
  | some st =>
    let s := (s.sat (blkR 8 0x058) 0 32 1).setRg (blkR 8 0x060) (put 32 t.off ||| putBit 8 t.write ||| put 0 st)
    if t.write then s else s.emit (.bar2 t.off none)
  | none => if t.write then s else s.emit (.bar2 t.off (some ((t.parts.flatMap fun (p : Nat × List Byte) => p.2).take t.n)))

/-- One granule of a host access ended with a status and, for a read, its data. -/
def State.hostPart (s : State) (id g st : Nat) (data : List Byte) : State :=
  match s.hst.tlps.find id with
  | none => s
  | some t =>
    let t := { t with left := t.left.filter (· != g), parts := if st = 0 then t.parts.set g data else t.parts,
                      fail := if st = 0 then t.fail else match t.fail with | some f => some f | none => some st }
    if t.left.isEmpty then ({ s with hst := { s.hst with tlps := s.hst.tlps.drop fun k => k == id } }).hostEnd t
    else { s with hst := { s.hst with tlps := s.hst.tlps.set id t } }

/-- A request ends with a status and data: what waited for it hears of it, a mover at the end of the cycle. [DEDUCED, log entry 53] -/
def State.reqEnd (s : State) (use : ReqFor) (st : Nat) (data : List Byte) : State :=
  match use with
  | .unit => s
  | .host id g _ => s.hostPart id g st data
  | .row t m op r p => s.modSwc fun x => { x with ended := x.ended ++ [(.row t m op r p, st, data)] }

/-- A head that meets a discard of R180: it counts, and a request at its own source fails at once with NO_ROUTE and is not retransmitted. -/
def State.noRoute (s : State) (frm : Option Nat) (k : Pkt) : State :=
  let s := s.sat (blkR 3 0x0B8) 0 32 1
  match s.swc.reqs.find? fun r => frm.isNone && (k.kind == 0 || k.kind == 1 || k.kind == 4) && r.unit == k.unit && r.pkt.tag == k.tag with
  | some r => (s.modSwc fun x => { x with reqs := x.reqs.filter (· != r) }).reqEnd r.use stNoRoute []
  | none => s

/-- The port carries traffic (R168). -/
def Port.carries (x : Port) : Bool := x.st == 3 || x.st == 4

/-- The port is UP or UP_IDLE. -/
def State.usable (s : State) (p : Nat) : Bool := (s.port p).carries

/-- The slot wheel entry of a port's slot; 0xFFFF without an image (R194). -/
def State.wheel (s : State) (p k : Nat) : Nat :=
  match s.entryAt 0x06 noInst (p * 1024 + k % 1024) with
  | some e => u e 0 2
  | none => 0xFFFF

/-- The slots of a port's wheel that a ring owns. -/
def State.reserved (s : State) (p : Nat) : Nat := ((List.range 1024).filter fun k => s.wheel p k != 0xFFFF).length

/-! ## Residence (R184), in tenths of an SCLK cycle -/

/-- The latencies of Table 8-2 outside the counted cycles: all 38 ns, or those after the injection. [DESIGN CHOICE, log entry 55] -/
def fixedTenths (frm : Option Nat) : Nat := if frm.isSome then 608 else 288

/-- Those up to the enqueue. [DESIGN CHOICE, log entry 55] -/
def fixedToQueue (frm : Option Nat) : Nat := if frm.isSome then 400 else 80

/-- Whole SCLK cycles in whole nanoseconds, both rounded up. -/
def tenthsToNs (n : Nat) : Nat := ceilDiv (ceilDiv n 10 * 5) 8

/-- SCLK cycles since a CCLK cycle. [DESIGN CHOICE, log entry 1, DESIGN CHOICE, log entry 55] -/
def State.sclkSince (s : State) (t : Nat) : Nat := 4 * (s.cclk - t)

/-- Age with a residence added; it saturates. [DESIGN CHOICE, log entry 55] -/
def addAge (k : Pkt) (ns : Nat) : Pkt := { k with age := min (k.age + ns) 0xFFFF }

/-- age[15:4] is at or above the limit. -/
def State.tooOld (s : State) (k : Pkt) : Bool := max 64 ((s.rg (blkR 3 0x048)).fld 0 12) ≤ k.age / 16

/-- The packet as it would leave now. -/
def State.leaving (s : State) (q : QPkt) : Pkt :=
  addAge q.pkt (tenthsToNs (fixedTenths q.frm + 10 * (max (s.sclkSince q.since) q.ahead + 1)))

/-! ## The choice of a queue -/

/-- An RTE_DEST entry of the active bank (Table 8-4). -/
def State.rte (s : State) (d : Nat) : W64 := s.rg (blkR 3 ((if s.swc.bank = 0 then 0x80000 else 0xA0000) + 8 * (d % 16384)))

/-- The productive ports of an entry, in its order. -/
def productive (e : W64) : List Nat := ((List.range 4).filter fun i => e.bit (32 + i)).map fun i => e.fld (8 * i) 6

/-- SWC_CFG: deflect_thresh, mark_thresh, q_cap, pinned_max. -/
def State.deflAt (s : State) : Nat := (s.rg (blkR 3 0x040)).fld 0 16
/-- mark_thresh. -/
def State.markAt (s : State) : Nat := (s.rg (blkR 3 0x040)).fld 16 16
/-- q_cap. -/
def State.qCap (s : State) : Nat := (s.rg (blkR 3 0x040)).fld 32 16
/-- pinned_max. -/
def State.pinnedMax (s : State) : Nat := (s.rg (blkR 3 0x040)).fld 48 10

/-- What becomes of a loose head (R180, R181). -/
inductive Dec where
  | noRoute
  | full
  | wait
  | put (p step : Nat)
  deriving DecidableEq, Repr

/-- The candidate with the lowest occupancy, the first among equals. -/
def leastFull (occ : Nat → Nat) : List Nat → Option Nat
  | [] => none
  | p :: ps => match leastFull occ ps with
    | none => some p
    | some q => if occ q < occ p then some q else some p

/-- Table 8-5: the choice for a head that arrived on `frm`. `busy` names the ports whose queue has no write free in this cycle, and
`evals` counts the evaluations before this one (R176). -/
def State.choose (s : State) (frm : Option Nat) (dst : Nat) (busy : List Nat) (evals : Nat) : Dec :=
  let e := s.rte dst
  if !e.bit 63 then .noRoute
  else
    let occ := fun p => (s.port p).occ
    let prods := productive e
    let up := prods.filter s.usable
    let defl := (List.range 48).filter fun p =>
      s.usable p && some p != frm && !prods.contains p && decide (s.reserved p ≤ s.pinnedMax)
    let low := fun p => decide (occ p < s.deflAt) && !(2 ≤ evals && busy.contains p)
    let place := fun p k => if busy.contains p && k < 3 then Dec.wait else .put p k
    match up with
    | [] =>
      if defl.isEmpty then .noRoute
      else match leastFull occ (defl.filter low) with
        | some p => .put p 3
        | none => .full
    | first :: others =>
      if low first then place first 1
      else match leastFull occ (others.filter low) with
        | some p => place p 2
        | none => match leastFull occ (defl.filter low) with
          | some p => .put p 3
          | none => match leastFull occ (up.filter fun p => decide (occ p < s.qCap)) with
            | some p => .put p 4
            | none => .full

/-! ## Queues -/

/-- The class whose bobbin a packet takes (Table 9-8): control packets of Osaux and of harvest control at their source, tree packets, and
other loose packets. [DEDUCED, log entry 56] -/
def bobClass (frm : Option Nat) (k : Pkt) : Nat :=
  if isTree k then 3 else if frm.isNone && (k.unit == 8 || k.service == 0) then 0 else 1

/-- A flit queued for a port in UP_IDLE starts its exit; an EI_REQ that it crosses is withdrawn, and an EI_ACK that has not left becomes an
EI_NAK (R161, R162). -/
def State.wakePort (s : State) (p : Nat) : State :=
  let x := s.port p
  if x.st = 4 && !x.exiting then (s.setPort p { x with exiting := true }).emit (.burst p)
  else s.setPort p { x with eiSent := false, ctls := (x.ctls.filter fun c => c != .eiReq).map fun c => if c = .eiAck then .eiNak else c }

/-- A packet enters the list of its subscriber node (R205). -/
def State.push (s : State) (p : Nat) (q : QPkt) : State :=
  let n := s.nodeFor q.pkt.service (s.subscriber q.pkt)
  let x := s.port p
  let nd := x.nodes.get {} n
  let s := s.setPort p { x with nodes := x.nodes.set n { nd with q := nd.q ++ [{ q with ord := maxOf (x.held.map fun h => h.ord) + 1 }] } }
  let x := s.freshen (s.port p)
  ((s.setPort p x).peak (blkR 3 (0x400 + 8 * p)) x.occ).wakePort p

/-- The core marks a packet (R183). [DESIGN CHOICE, log entry 55] -/
def State.markPkt (s : State) (k : Pkt) (p : Nat) (deflected : Bool) : Pkt × State :=
  if deflected || s.markAt ≤ (s.port p).occ then ({ k with mark := true }, s.wrap (blkR 3 0x088) 48 1) else (k, s)

/-- Enqueue a head at a port: age, bobbin, mark (R178, R183, R184). Answers the status of the bobbin request; the root of a broadcast hears of
its failure and counts no discard. -/
def State.enq (s : State) (p : Nat) (k : Pkt) (frm : Option Nat) (since : Nat) (step : Nat) : Nat × State :=
  if s.tooOld (addAge k (tenthsToNs (fixedToQueue frm + 10 * s.sclkSince since))) then (stOk, s.sat (blkR 3 0x098) 0 32 1)
  else
    let cls := bobClass frm k
    match s.bobTake cls with
    | (0, b, s) =>
      let defl := step == 2 || step == 3
      let (k, s) := s.markPkt k p defl
      let s := if step = 2 then s.wrap (blkR 3 0x070) 48 1 else if step = 3 then s.wrap (blkR 3 0x078) 48 1 else s
      let s := if defl then s.wrap (blkR 3 (0x600 + 8 * p)) 48 1 else s
      let q : QPkt := { pkt := { k with deflected := k.deflected || defl }, frm := frm, since := since,
                        ahead := (s.port p).occ, cls := cls, bob := b }
      (stOk, s.push p q)
    | (st, _, s) =>
      if cls = 0 then (st, { s with swc := { s.swc with stages := s.swc.stages ++ [⟨frm, k, 0, since⟩] } })
      else if isTree k && frm.isNone then (st, s)
      else (st, s.sat (blkR 3 (if isTree k then 0x0E8 else 0x0B0)) 0 32 1)

/-- The switch core acts: its block is not at S3 and not in reset. -/
def State.coreOk (s : State) : Bool := s.ok 3

/-- A head waits in an ingress stage (R176). [DEDUCED, log entry 56] -/
def State.stage (s : State) (x : Stage) : State := { s with swc := { s.swc with stages := s.swc.stages ++ [x] } }

/-- A loose head that is not for this chip is evaluated and placed (R181). The answer is NO_ROUTE for a discard of R180. [DEDUCED, log entry 56] -/
def State.forward (s : State) (frm : Option Nat) (busy : List Nat) (evals since : Nat) (k : Pkt) : Nat × State :=
  match s.choose frm k.dst busy evals with
  | .noRoute => (stNoRoute, s.noRoute frm k)
  | .full => (stOk, s.sat (blkR 3 0x0A8) 0 32 1)
  | .wait => (stOk, s.stage ⟨frm, k, evals + 1, since⟩)
  | .put p step => s.enq p k frm since step

/-- What a table read and the head's parity said (Table 8-9): whether the head survives. `lookup` says that it reads an entry. -/
def State.look (s : State) (l : Look) (lookup : Bool) : Bool × State :=
  let (bad, s) := s.detect 3 6 (l == .parity)
  if bad then (false, s)
  else if !lookup then (true, s)
  else
    let (ue, s) := s.detect 3 1 (l == .uncorrectable)
    if ue then (false, s) else (true, (s.detect 3 0 (l == .corrected)).2)

/-- A loose or tree head forwarded or delivered (SWC_FWD_CNT, R200). -/
def State.fwd (s : State) : State := (s.wrap (blkR 3 0x080) 48 1).progress 3

/-- A packet that this device sends, from a unit of its own: the class of its destination and its CRC-32C are written (R177), and it enters the core. A packet for
this chip waits in the ingress stage of its source. The answer is NO_ROUTE for a discard of R180, else the status of its bobbin. [DEDUCED, log entry 56] -/
def State.sendPkt (s : State) (k : Pkt) : Nat × State :=
  let k := pktSeal { k with src := s.chip, dclass := (s.rte k.dst).fld 40 8, age := 0, hops := 0, mark := false, deflected := false }
  if !s.coreOk then (stOk, s)
  else if k.dst = s.chip then (stOk, s.stage ⟨none, k, 0, s.cclk⟩)
  else s.forward none [] 0 s.cclk k

/-- The same where the answer does not matter. [DEDUCED, log entry 56] -/
def State.send (s : State) (k : Pkt) : State := (s.sendPkt k).2

/-- One copy of a tree packet to a port (R181, R182). [DEDUCED, log entry 56] -/
def State.treeCopy (s : State) (frm : Option Nat) (since : Nat) (k : Pkt) (p : Nat) : Nat × State :=
  if !s.usable p || s.qCap ≤ (s.port p).occ then (stOk, s.sat (blkR 3 0x0E8) 0 32 1)
  else s.enq p k frm since 0

/-! ## Egress -/

/-- A selected packet leaves: bobbin, age and hops (R184, R185, R221). [DESIGN CHOICE, log entry 55] -/
def State.depart (s : State) (p : Nat) (q : QPkt) : Option Pkt × State :=
  let (ok, s) := s.readBob q.bob
  if !ok then (none, s)
  else
    let k := s.leaving q
    if s.tooOld k then (none, s.sat (blkR 3 0x098) 0 32 1)
    else if 64 ≤ k.hops then (none, s.sat (blkR 3 0x0A0) 0 32 1)
    else
      let k := { k with hops := k.hops + 1 }
      let s := (s.wrap (blkR 4 (0x100 + 8 * k.service)) 48 k.flits).wrap (blkR (24 + p) 0x078) 64 k.flits
      (some k, s.fwd)

/-- One packet from a port into `room` free positions (R206): the packet sent, and the room left. A packet that does not fit stays
selected, and no other passes it. [DESIGN CHOICE, log entry 69] -/
def State.egress (s : State) (p room : Nat) : Option Pkt × Nat × State :=
  let x := s.port p
  let (q, s) := match x.sel with
    | some q => (some q, s.setPort p { x with sel := none })
    | none => s.select p
  match q with
  | none => (none, 0, s)
  | some q =>
    if room < q.pkt.flits then (none, 0, s.modPort p fun x => { x with sel := some q })
    else
      let (k, s) := s.depart p q
      let s := s.restIfEmpty p
      match k with
      | some k => (some k, room - k.flits, s)
      | none => (none, room, s)

/-- EGRESS_SELECT: the framer of a port in UP can start a packet. -/
def State.egressSelect (s : State) (p : Nat) : State :=
  if (s.port p).st = 3 && s.coreOk && s.ok 4 then
    let (_, s) := s.detect 4 2 false
    if !s.ok 4 then s.dropQueues
    else match s.egress p 19 with
      | (some k, _, s) => s.emit (.packet p k)
      | (none, _, s) => s
  else s

/-! ## Discards -/

/-- The queue of a port emptied, oldest packet first (R182). -/
def State.unqueue (s : State) (p : Nat) : List QPkt × State :=
  let x := s.port p
  let insert := fun (l : List QPkt) (q : QPkt) => l.filter (fun y => y.ord < q.ord) ++ q :: l.filter (fun y => q.ord < y.ord)
  (x.held.foldl insert [], s.setPort p x.drained)

/-- The queue of a port that left UP is evaluated again; its tree packets are discarded (R182). -/
def State.requeue (s : State) (p : Nat) : State :=
  let (qs, s) := s.unqueue p
  qs.foldl (fun s q =>
    if isTree q.pkt then s.sat (blkR 3 0x0E8) 0 32 1 else (s.forward q.frm [] 0 q.since q.pkt).2) s

/-- Packets that satisfy `f` leave every queue and ingress stage; a node that they leave without a packet is eligible no more (R206). -/
def State.purge (s : State) (f : Pkt → Bool) : State :=
  let keep := fun (q : QPkt) => !f q.pkt
  let node := fun (n : Nat × Node) => (n.1, { n.2 with q := n.2.q.filter keep })
  let s := { s with ports := s.ports.map (fun (x : Nat × Port) =>
                      (x.1, { x.2 with nodes := x.2.nodes.map node, sel := x.2.sel.filter keep })),
                    swc := { s.swc with stages := s.swc.stages.filter fun g => !f g.pkt } }
  (s.ports.map fun (x : Nat × Port) => x.1).foldl (fun s p => (s.setPort p (s.freshen (s.port p))).restIfEmpty p) s

/-- How many packets of the queues and stages satisfy `f`. -/
def State.countPkts (s : State) (f : Pkt → Bool) : Nat :=
  (s.ports.flatMap fun (x : Nat × Port) => x.2.held.filter fun q => f q.pkt).length + (s.swc.stages.filter fun g => f g.pkt).length

/-- CORE_PARITY: every flit held in the core is discarded (Table 8-9). -/
def State.flushCore (s : State) : State :=
  let flits := s.ports.foldl (fun (n : Nat) (x : Nat × Port) =>
    n + 65 * (x.2.vcs.foldl (fun m (c : Nat × List Chunk) => m + c.2.length) 0)
      - x.2.tx.foldl (fun m (c : Nat × Nat × Nat) => m + c.2.2) 0) 0
  let s := s.sat (blkR 3 0x0E0) 0 32 flits
  { s with ports := s.ports.map (fun (x : Nat × Port) => (x.1, { x.2.drained with vcs := [], tx := [], rx := [] })),
           swc := { s.swc with stages := [] } }

/-! ## SWC_CFG and the destination table -/

/-- SWC_CFG_WRITE (Table 8-8); ignored while the domain is not ON (R18). -/
def State.swcCfg (s : State) (v : W64) : State :=
  let q := v.fld 32 16
  if !s.domOn 1 then s
  else if q < 64 || 16383 < q || v.fld 0 16 < v.fld 16 16 || q < v.fld 0 16 then s.flag 3 5
  else s.setRg (blkR 3 0x040) (v &&& 0x03FFFFFFFFFFFFFF)

/-- A write of an RTE_DEST entry: to the standby bank only, and not while a swap is pending (R197); ignored while
the domain is not ON (R18). [DEDUCED, log entry 86] -/
def State.rteWrite (s : State) (bank d : Nat) (v : W64) : State :=
  if !s.domOn 1 then s
  else if bank = s.swc.bank then s
  else if s.swc.pend then s.flag 3 5
  else s.setRg (blkR 3 ((if bank = 0 then 0x80000 else 0xA0000) + 8 * d)) (v &&& 0x8000FF0F3F3F3F3F)

/-- RTE_STATUS (Table 8-8). -/
def State.rteStatus (s : State) : W64 :=
  put 16 (s.swc.swaps % 65536) ||| put 8 s.swc.result ||| putBit 1 s.swc.pend ||| put 0 s.swc.bank

end Sys2Proof.Machine
end

