-- ==== Sys2Proof/Machine/Requests.lean ====
section
/-!
DEFINITION. Loose requests at their source (R186 to R189, R141): the requests that wait, the rate controllers, the retransmission
records and the completions.
-/
namespace Sys2Proof.Machine

/-! ## Rate controllers (R189) -/

/-- rate[c] in units of 0.25 GB/s; an unlisted class stands at r_max. -/
def State.rate (s : State) (c : Nat) : Nat := s.swc.rate.get (s.swc.rcLim.fld 16 16) c

/-- The bytes, in eighths, that a class's bucket holds. [DEDUCED, log entry 53] -/
def State.bucket (s : State) (c : Nat) : Nat := 8 * (s.rg (blkR 3 0x060)).fld 0 24 - s.swc.lack.get 0 c

/-- Bytes taken from a class's bucket. -/
def State.debit (s : State) (c bytes : Nat) : State := s.modSwc fun x => { x with lack := x.lack.set c (x.lack.get 0 c + 8 * bytes) }

/-- One CCLK cycle of refill: four SCLK cycles at 0.25 GB/s are five eighths of a byte. [DESIGN CHOICE, log entry 1] -/
def State.bucketsTick (s : State) : State :=
  s.modSwc fun x => { x with lack := (x.lack.map fun (c : Nat × Nat) => (c.1, c.2 - 5 * s.rate c.1)).filter fun c => c.2 != 0 }

/-- A new bucket depth: what a bucket holds stays, up to the depth. -/
def State.rcBurst (s : State) (v : W64) : State :=
  let depth := 8 * v.fld 0 24
  let lack := ((List.range 256).map fun c => (c, depth - s.bucket c)).filter fun c => c.2 != 0
  (s.modSwc fun x => { x with lack := lack }).setRg (blkR 3 0x060) (v &&& 0xFFFFFF)

/-- A marked echo for a class (R188, R189). -/
def State.echo (s : State) (c : Nat) : State :=
  let s := s.wrap (blkR 3 0x090) 48 1
  let now := 4 * s.cclk
  let due := match s.swc.lastCut.find c with
    | none => true
    | some t => decide (t + s.swc.rcCfg.fld 32 16 ≤ now)
  if due then
    let r := s.rate c
    s.modSwc fun x => { x with rate := x.rate.set c (max (x.rcLim.fld 0 16) (r - r * x.rcCfg.fld 0 8 / 256)),
                                lastCut := x.lastCut.set c now, cut := if x.cut.contains c then x.cut else x.cut ++ [c] }
  else s

/-- RATE_INTERVAL: the end of an interval (R189), at which written settings take effect. -/
def State.rateInterval (s : State) : State :=
  let cfg := s.rg (blkR 3 0x050)
  let lim := s.rg (blkR 3 0x058)
  let top := lim.fld 16 16
  let next := fun c => min top (if s.swc.cut.contains c then s.rate c else min (s.swc.rcLim.fld 16 16) (s.rate c + s.swc.rcCfg.fld 8 16))
  let rate := ((List.range 256).map fun c => (c, next c)).filter fun c => c.2 != top
  s.modSwc fun x => { x with rate := rate, cut := [], rcCfg := cfg, rcLim := lim }

/-- At a harvest's empty start every rate is r_max (R189, R295). -/
def State.ratesReset (s : State) : State := s.modSwc fun x => { x with rate := [] }

/-! ## Requests -/

/-- The requests of a unit that await their completion. -/
def State.outstanding (s : State) (unit : Nat) : Nat := (s.swc.reqs.filter fun r => r.unit == unit).length

/-- The most a unit may have outstanding (R186). -/
def reqLimit (unit : Nat) : Nat := if unit < 8 then 1024 else 256

/-- The service class of a request or completion (Table 9-1). -/
def loosePkt (unit kind : Nat) : Nat :=
  if kind = 4 then 6 else if unit = 8 || unit = 9 then 7 else if kind = 0 || kind = 2 then 4 else 5

/-- A tag of the unit that no outstanding request carries. -/
def State.freshTag (s : State) (unit : Nat) : Nat :=
  let used := (s.swc.reqs.filter fun r => r.unit == unit).map fun r => r.pkt.tag
  let t := s.swc.tags.get 0 unit
  ((List.range 65536).find? fun i => !used.contains ((t + i) % 65536)).elim t fun i => (t + i) % 65536

/-- The key of a source counter of R141: unit, target chip and context. -/
def seqKey (unit chip ctx : Nat) : Nat := (unit * 16384 + chip) * 64 + ctx

/-- The privileged attribute of a request's head (R211): Osaux has it, a context's unit has it as CONTEXTS gives it, and the host window as
its register asks. -/
def State.headPriv (s : State) (unit : Nat) (r : LReq) : Bool := unit == 8 || (if unit = 9 then r.priv else (s.ctx r.ctx).priv)

/-- The packet of a request (Table 8-3). [DEDUCED, log entry 53] -/
def State.reqPkt (s : State) (unit : Nat) (r : LReq) (tag : Nat) (seq : Option Nat) : Pkt :=
  { kind := r.kind, service := loosePkt unit r.kind, flits := 1 + (if r.kind = 0 then 0 else ceilDiv r.length 64),
    seqValid := seq.isSome, priv := s.headPriv unit r, dst := addrChip r.address, ctx := r.ctx, unit := unit, gen := (s.ctx r.ctx).gen,
    dclass := (s.rte (addrChip r.address)).fld 40 8, tag := tag, seq := seq.getD 0, length := r.length, address := r.address,
    data := if r.kind = 0 then [] else r.data }

/-- A context that is held although it cannot harvest starts no new loose request (R44). -/
def State.ctxWaits (s : State) (c : Nat) : Bool := (s.ctx c).held && (s.ctx c).phase != 5

/-- The staging bobbin of a host access is read as the request leaves (R221): whether the packet survives. [DEDUCED, log entry 85] -/
def State.stagingOk (s : State) (use : ReqFor) : Bool × State := match use.bob with | some b => s.readBob b | none => (true, s)

/-- The devices of the machine of the image in force. [DEDUCED, log entry 53] -/
def State.machineSize (s : State) : Option Nat := s.img.map fun i => u i.hdr 0x24 4

/-- The first request of a unit that waits, and whose context is not held back (R44), leaves where its outstanding requests and its class's
tokens allow it (R186, R189). A tile's request leaves over its package link (R12). -/
def State.injectNext (s : State) (unit : Nat) : State :=
  match s.swc.waitq.find? fun w => w.1 == unit && !s.ctxWaits w.2.1.ctx with
  | none => s
  | some (w, r, use) =>
    let dst := addrChip r.address
    let gone := fun (s : State) => s.modSwc fun x => { x with waitq := x.waitq.erase (w, r, use) }
    if (match s.machineSize with | some n => decide (n ≤ dst) | none => false) then
      ((gone s).flag 0 5 { ctx := some r.ctx }).reqEnd use stDenied []
    else if unit < 8 && !(s.tile unit).linkUp then (gone s).reqEnd use stRemote []
    else if reqLimit unit ≤ s.outstanding unit then s
    else
      let tag := s.freshTag unit
      let ordered := s.deterministic && decide (unit < 8)
      let key := seqKey unit dst r.ctx
      let k := s.reqPkt unit r tag (if ordered then some (s.swc.seqs.get 0 key) else none)
      if s.bucket k.dclass < 8 * 64 * k.flits then s
      else
        let s := (gone s).debit k.dclass (64 * k.flits)
        let s := s.modSwc fun x => { x with tags := x.tags.set unit ((tag + 1) % 65536),
                                            seqs := if ordered then x.seqs.set key ((x.seqs.get 0 key + 1) % 65536) else x.seqs }
        let s := s.modSwc fun x => { x with reqs := x.reqs ++ [{ unit := unit, pkt := { k with src := s.chip }, use := use }] }
        match s.stagingOk use with
        | (true, s) => s.send k
        | (false, s) => s

/-- A request enters its unit's queue. -/
def State.enqueueReq (s : State) (unit : Nat) (r : LReq) (use : ReqFor) : State :=
  s.modSwc fun x => { x with waitq := x.waitq ++ [(unit, r, use)] }

/-- LOOSE_REQUEST_INJECT: a unit of this device makes a request of another chip, or the first that waits is tried again. No request
leaves while no plan is installed (R126). -/
def State.injectReq (s : State) (unit : Nat) (r : Option LReq) : State :=
  if s.hst.plan.isNone || !s.coreOk then s
  else match r with
    | some r => if addrChip r.address = s.chip then s else (s.enqueueReq unit r .unit).injectNext unit
    | none => s.injectNext unit

/-- RTO_EXPIRY: no completion within rto (R186). [DESIGN CHOICE, log entry 3, DEDUCED, log entry 53] -/
def State.rtoExpiry (s : State) (unit tag : Nat) : State :=
  match s.swc.reqs.find? fun r => r.unit == unit && r.pkt.tag == tag with
  | none => s
  | some r =>
    if r.tries < (s.rg (blkR 3 0x068)).fld 32 4 then
      let s := s.modSwc fun x => { x with reqs := x.reqs.map fun q => if q = r then { r with tries := r.tries + 1 } else q }
      (s.sat (blkR 3 0x0C8) 0 32 1).send { r.pkt with retx := true }
    else
      let s := s.modSwc fun x => { x with reqs := x.reqs.filter (· != r) }
      (s.sat (blkR 3 0x0D0) 0 32 1).reqEnd r.use stRemote []

/-- COMPLETION_ARRIVAL (R186, R188): the record ends, and a marked echo cuts its class. A completion with BOB_QUOTA_EMPTY or BOB_POOL_EMPTY says
that the target had no bobbin: the record stays, and the request is sent again after rto (Table 9-8). [DESIGN CHOICE, log entry 4] -/
def State.completion (s : State) (k : Pkt) : State :=
  match s.swc.reqs.find? fun r => r.unit == k.unit && r.pkt.tag == k.tag with
  | none => s.sat (blkR 3 0x0D8) 0 32 1
  | some r =>
    let s := if k.echo then s.echo r.pkt.dclass else s
    if k.status = stQuota ∨ k.status = stPool then s
    else
    let s := s.modSwc fun x => { x with reqs := x.reqs.filter (· != r) }
    (s.reqEnd r.use k.status k.data).injectNext k.unit

/-- A context's records and waiting requests are dropped, whatever their unit (Table 9-7, stage 1); a host access that waits for one of them ends
with REMOTE_FAIL. [DEDUCED, log entry 53] -/
def State.dropRequests (s : State) (c : Nat) : State :=
  let us := ((s.swc.reqs.filter fun r => r.pkt.ctx == c).map fun r => r.use) ++ ((s.swc.waitq.filter fun w => w.2.1.ctx == c).map fun w => w.2.2)
  let s := s.modSwc fun x => { x with reqs := x.reqs.filter (fun r => r.pkt.ctx != c), waitq := x.waitq.filter fun w => w.2.1.ctx != c }
  (us.filter fun u => u.bob.isSome).foldl (fun s u => s.reqEnd u stRemote []) s

/-- A context's counters and held arrivals are discarded (R141). -/
def State.dropOrder (s : State) (c : Nat) : State :=
  s.modSwc fun x => { x with seqs := x.seqs.drop (fun k => k % 64 == c), exps := x.exps.drop (fun k => k % 64 == c),
                             early := x.early.filter fun e => e.pkt.ctx != c }

end Sys2Proof.Machine
end

