-- ==== Sys2Proof/Machine/Vector.lean ====
section
/-!
DEFINITION. The vector unit and the format encoder: the value of every vector operation on 2,048 lanes (R54 to R58, Table 3-4,
Table 3-5), ENCODE (R120 to R122), the issue of an operation and the write of its result (R55).
-/
namespace Sys2Proof.Machine

/-- The number of lanes of a Y register. -/
def lanes : Nat := 2048

/-- A lane of a Y register; lanes that are not listed hold 0. -/
def lane (y : List W32) (i : Nat) : W32 := y.getD i 0

/-- A Y register of a tile. [DESIGN CHOICE, log entry 8] -/
def State.y (s : State) (t r : Nat) : List W32 := (s.tile t).y.get [] r

/-- The element of a lane as a value: FP32 subnormals, and values that widen to one, read as zero (R56). [DEDUCED, log entry 44] -/
def elem (fmt : Nat) (w : W32) : Fp :=
  (if fmt = 0 then fp32.decode w.toNat else (fmtOf fmt).decode (w.toNat % 65536)).ftz

/-- An FP32 result: rounded once; one that would be subnormal becomes a zero of its sign and counts (R56). [DEDUCED, log entry 44] -/
def fin32 (x : Fp) : Fp × Bool :=
  let r := fp32.rnd x
  match r with
  | .fin sg m e => if m ≠ 0 && decide ((Nat.log2 m : Int) + e < -126) then (.fin sg 0 0, true) else (r, false)
  | _ => (r, false)

/-- FP32 rounding within an operation. -/
def r32 (x : Fp) : Fp := (fin32 x).1

/-- A lane's result: FP32, then rounded once to the format (R56). The flag counts a flushed lane. -/
def laneOut (fmt : Nat) (x : Fp) : W32 × Bool :=
  let (v, f) := fin32 x
  (BitVec.ofNat 32 ((fmtOf fmt).enc v), f)

/-- The larger of two values (R56): a NaN gives way to a number, and -0 stands below +0. -/
def vMax (a b : Fp) : Fp := if a.isNan then b else if b.isNan then a else if Fp.lt true a b then b else a

/-- The smaller of two values (R56). -/
def vMin (a b : Fp) : Fp := if a.isNan then b else if b.isNan then a else if Fp.lt true b a then b else a

/-- A function-pipe result that Table 3-5 bounds by `k` units in the last place. -/
def ulps (k : Nat) (v : Fp) (code : BitVec 32) : Fp := fp32.within v ((Fp.ofNat k).mul (fp32.ulp v)) code.toNat

/-- The argument of a free value of Config: the FP32 code of an operand. -/
def argOf (x : Fp) : BitVec 32 := BitVec.ofNat 32 (fp32.enc x)

/-- e^x within Table 3-5: the special cases, and the part's own value within 2 ulp between them. [DESIGN CHOICE, log entry 13] -/
def vExp (x : Fp) : Fp :=
  match x with
  | .nan => .nan
  | .inf s => if s then .zero else .inf false
  | x =>
    let x10 := x.mul (.ofNat 10)
    if Fp.lt false x10 (.fin true 873 0) then .zero
    else if Fp.lt false (.fin false 887 0) x10 then .inf false
    else ulps 2 x.exp (Config.expCode (argOf x))

/-- ln x within Table 3-5: 2 ulp, or 2^-24 where x lies in [0.5, 2] and that is larger. [DESIGN CHOICE, log entry 13] -/
def vLog (x : Fp) : Fp :=
  match x with
  | .nan => .nan
  | .inf s => if s then .nan else .inf false
  | x =>
    if x.isZero then .inf true
    else if x.sign then .nan
    else
      let v := x.ln
      let two := (Fp.ofNat 2).mul (fp32.ulp v)
      let abs := Fp.fin false 1 (-24)
      let near := !Fp.lt false x (.fin false 1 (-1)) && !Fp.lt false (.ofNat 2) x
      fp32.within v (if v.isZero || (near && Fp.lt false two abs) then abs else two) (Config.logCode (argOf x)).toNat

/-- 1/x within 1 ulp (Table 3-5). [DESIGN CHOICE, log entry 13] -/
def vRecip (x : Fp) : Fp :=
  let v := Fp.one.div x
  if v.nonFinite || v.isZero then v else ulps 1 v (Config.recipCode (argOf x))

/-- 1/√x within 1 ulp (Table 3-5). [DESIGN CHOICE, log entry 13] -/
def vRsqrt (x : Fp) : Fp :=
  if x.isNan then .nan
  else if x.isZero then .inf false
  else if x.sign then .nan
  else
    let v := (Fp.one.div x).sqrt
    if v.nonFinite || v.isZero then v else ulps 1 v (Config.rsqrtCode (argOf x))

/-- One level of the pairwise tree: adjacent values added, each addition rounded (R57). -/
def pairUp : List Fp → List Fp
  | a :: b :: r => r32 (a.add b) :: pairUp r
  | [a] => [a]
  | [] => []

/-- The pairwise tree over 2^s values, its last addition not yet rounded: a lane's result is rounded, and flushed, once (R56, R57). -/
def treeSum : Nat → List Fp → Fp
  | 0, xs => xs.headD .zero
  | 1, xs => (xs.headD .zero).add (xs.getD 1 .zero)
  | s + 2, xs => treeSum (s + 1) (pairUp xs)

/-- The rows of a register: 2048 / 2^s rows of 2^s values (R57). -/
def rowsOf (s fmt : Nat) (y : List W32) : List (List Fp) :=
  (List.range (lanes / 2 ^ s)).map fun r => (List.range (2 ^ s)).map fun i => elem fmt (lane y (r * 2 ^ s + i))

/-- A row's leading results, zero in its other lanes. -/
def rowLead (s : Nat) (xs : List Fp) : List Fp := (xs ++ List.replicate (2 ^ s) Fp.zero).take (2 ^ s)

/-- ROWMAX or ROWMIN of a row. -/
def rowFold (f : Fp → Fp → Fp) (xs : List Fp) : Fp := xs.foldl f (xs.headD .zero)

/-- LN_STATS of a row: mean and population variance (R57). Each sum is rounded before it is divided, and the variance is the tree over the
rounded squares of the rounded deviations from the rounded mean. [DESIGN CHOICE, log entry 92] -/
def lnStats (s : Nat) (xs : List Fp) : List Fp :=
  let mean := (r32 (treeSum s xs)).scale (-(s : Int))
  let sq := xs.map fun x => let d := r32 (x.add (r32 mean).neg); r32 (d.mul d)
  [mean, (r32 (treeSum s sq)).scale (-(s : Int))]

/-- `a` ranks above `b` in TOPK: NaN above +∞, and zeros equal (R58). -/
def rankAbove (a b : Fp) : Bool := if a.isNan then !b.isNan else if b.isNan then false else Fp.lt false b a

/-- Insert an indexed value in descending order, after its equals (R58). -/
def topInsert (x : Nat × Fp) : List (Nat × Fp) → List (Nat × Fp)
  | [] => [x]
  | y :: ys => if rankAbove x.2 y.2 then x :: y :: ys else y :: topInsert x ys

/-- TOPK of a row: the k largest values with their indices (R58). -/
def topRow (k : Nat) (xs : List Fp) : List (Nat × Fp) :=
  (((List.range xs.length).zip xs).foldl (fun l x => topInsert x l) []).take k

/-- The opcodes of Table 3-4. -/
inductive VCode where
  | mov | cvt | add | sub | mul | fma | max | min | abs | neg | sel | cmpgt | exp | log | rsqrt | recip
  | rowsum | rowmax | rowmin | smaxExp | lnStats | lnApply | topk | encode
  deriving DecidableEq, Repr

/-- The code of an opcode (Table 3-4). -/
def VCode.num : VCode → Nat
  | .mov => 0x01
  | .cvt => 0x02
  | .add => 0x10
  | .sub => 0x11
  | .mul => 0x12
  | .fma => 0x13
  | .max => 0x14
  | .min => 0x15
  | .abs => 0x16
  | .neg => 0x17
  | .sel => 0x18
  | .cmpgt => 0x19
  | .exp => 0x20
  | .log => 0x21
  | .rsqrt => 0x22
  | .recip => 0x23
  | .rowsum => 0x30
  | .rowmax => 0x31
  | .rowmin => 0x32
  | .smaxExp => 0x38
  | .lnStats => 0x39
  | .lnApply => 0x3A
  | .topk => 0x40
  | .encode => 0x48

/-- Every opcode. -/
def allVCodes : List VCode :=
  [.mov, .cvt, .add, .sub, .mul, .fma, .max, .min, .abs, .neg, .sel, .cmpgt, .exp, .log, .rsqrt, .recip,
   .rowsum, .rowmax, .rowmin, .smaxExp, .lnStats, .lnApply, .topk, .encode]

/-- The value of a lane-wise operation (Table 3-4). -/
def laneOp (c : VCode) (a b d : Fp) : Fp :=
  match c with
  | .add => a.add b
  | .sub => a.add b.neg
  | .mul => a.mul b
  | .fma => (a.mul b).add d
  | .max => vMax a b
  | .min => vMin a b
  | .abs => a.abs
  | .neg => a.neg
  | .sel => if d.isZero then b else a
  | .cmpgt => if !a.isNan && !b.isNan && Fp.lt false b a then .one else .zero
  | .exp => vExp a
  | .log => vLog a
  | .rsqrt => vRsqrt a
  | .recip => vRecip a
  | _ => a

/-- The value of a row operation on one row (R57). -/
def rowOp (c : VCode) (s e : Nat) (xs stats : List Fp) : List Fp :=
  match c with
  | .rowsum => rowLead s [treeSum s xs]
  | .rowmax => rowLead s [rowFold vMax xs]
  | .rowmin => rowLead s [rowFold vMin xs]
  | .smaxExp =>
    let m := rowFold vMax xs
    if m = .inf true then rowLead s [] else xs.map fun x => vExp (r32 (x.add m.neg))
  | .lnStats => rowLead s (lnStats s xs)
  | _ =>
    let mean := stats.getD 0 .zero
    let k := vRsqrt (r32 ((stats.getD 1 .zero).add (.fin false 1 (-(e : Int)))))
    xs.map fun x => (r32 (x.add mean.neg)).mul k

/-! ## ENCODE (R120 to R122) -/

/-- What ENCODE makes of one block: its codes, its scale byte, and what it counts. -/
structure EncBlock where
  codes : List Nat
  scale : Nat := 0x7F
  flushed : Nat := 0
  ovf : Nat := 0
  zero : Nat := 0
  nan : Nat := 0

/-- Encode the values of one block scaled by 2^-d. -/
def encVals (f : Fmt) (nanOver : Bool) (d : Int) (xs : List Fp) : EncBlock :=
  let rs := xs.map fun x => f.round nanOver (x.scale (-d))
  { codes := rs.map (·.code), scale := (127 + d).toNat, flushed := (rs.filter (·.flushed)).length,
    ovf := (rs.filter (·.ovf)).length }

/-- The smallest d with amax ≤ MAXT * 2^d (R120). -/
def scaleExp (f : Fmt) (amax : Fp) : Int :=
  let mx := f.decode f.maxCode
  let d := amax.expo - mx.expo
  if Fp.lt false (mx.scale d) amax then d + 1 else d

/-- Encode one block (R120). -/
def encBlock (f : Fmt) (nanOver : Bool) (xs : List Fp) : EncBlock :=
  if xs.any Fp.isNan then { codes := xs.map fun _ => 0, scale := 0xFF, nan := 1 }
  else if xs.all Fp.isZero then { codes := xs.map fun _ => 0, scale := 0x00, zero := 1 }
  else
    let amax := xs.foldl (fun m x => if x.nonFinite then m else if Fp.lt false m x.abs then x.abs else m) .zero
    let d := if amax.isZero then 0 else scaleExp f amax
    encVals f nanOver (max (-126) (min 127 d)) xs

/-- The fields of ENC_PROFILE_n (Table 5-9): target, size, nan_on_overflow. -/
def encBlocks (p : W64) (fmt : Nat) (y : List W32) : List EncBlock :=
  let f := fmtOf (p.fld 0 3)
  let xs := (List.range lanes).map fun i => elem fmt (lane y i)
  match p.fld 4 3 with
  | 0 => [encVals f (p.bit 8) 0 xs]
  | n + 1 =>
    let b := 8 * 2 ^ n
    (List.range (lanes / b)).map fun j => encBlock f (p.bit 8) ((xs.drop (j * b)).take b)

/-- Pack K4 codes two a byte (R103). -/
def packNibbles : List Nat → List Nat
  | a :: b :: r => (a + 16 * b) :: packNibbles r
  | [a] => [a]
  | [] => []

/-- Four bytes a lane. -/
def bytesToLanes (n : Nat) (bs : List Nat) : List W32 :=
  (List.range n).map fun i =>
    BitVec.ofNat 32 (bs.getD (4 * i) 0 + 256 * bs.getD (4 * i + 1) 0 + 65536 * bs.getD (4 * i + 2) 0 + 16777216 * bs.getD (4 * i + 3) 0)

/-- The register ENCODE writes (R122): codes from byte 0, scales from byte 4,096. -/
def encOut (p : W64) (bl : List EncBlock) : List W32 :=
  let codes := bl.flatMap (·.codes)
  let codes := if p.fld 0 3 = 5 then packNibbles codes else codes
  let scales := if p.fld 4 3 = 0 then [] else bl.map (·.scale)
  bytesToLanes lanes ((codes ++ List.replicate 4096 0).take 4096 ++ scales)

/-! ## Issue and completion -/

/-- The result of an operation on the registers as they stand at issue (R55). MOV copies the 32 bits of a lane whatever fmt says. [DESIGN CHOICE, log entry 92] -/
def State.vecResult (s : State) (t : Nat) (c : VCode) (o : VOp) : VRes :=
  let a := s.y t o.va
  let b := s.y t o.vb
  let d := s.y t o.vc
  let fmt := o.fmt.val
  let sft := o.imm.val % 16
  let tally := o.tally.val
  let fin := fun (xs : List Fp) =>
    let r := xs.map (laneOut fmt)
    { op := c.num, vd := o.vd.val, val := r.map (·.1), tally := tally, flushed := (r.filter (·.2)).length : VRes }
  match c with
  | .mov => { op := c.num, vd := o.vd.val, val := a, tally := tally }
  | .cvt => fin ((List.range lanes).map fun i => elem (o.imm.val % 4) (lane a i))
  | .encode =>
    let p := s.rg (blkR (encBlk t) (0x080 + 8 * sft))
    let bl := encBlocks p fmt a
    let sum := fun (g : EncBlock → Nat) => bl.foldl (fun n x => n + g x) 0
    { op := c.num, vd := o.vd.val, val := encOut p bl, tally := tally, enc := some (sum (·.flushed), sum (·.ovf), sum (·.zero), sum (·.nan)) }
  | .topk =>
    let k := o.imm.val / 16 % 32
    let rows := (rowsOf sft fmt a).map (topRow k)
    let n := 2 ^ sft
    let vals := rows.flatMap fun r => (r.map (·.2) ++ List.replicate n (.inf true)).take n
    let idx := rows.flatMap fun r => (r.map (fun x => BitVec.ofNat 32 x.1) ++ List.replicate n 0xFFFFFFFF).take n
    { fin vals with second := some (o.vc.val, idx) }
  | .rowsum => fin ((rowsOf sft fmt a).flatMap fun r => rowOp c sft 0 r [])
  | .rowmax => fin ((rowsOf sft fmt a).flatMap fun r => rowOp c sft 0 r [])
  | .rowmin => fin ((rowsOf sft fmt a).flatMap fun r => rowOp c sft 0 r [])
  | .smaxExp => fin ((rowsOf sft fmt a).flatMap fun r => rowOp c sft 0 r [])
  | .lnStats => fin ((rowsOf sft fmt a).flatMap fun r => rowOp c sft 0 r [])
  | .lnApply =>
    fin (((rowsOf sft fmt a).zip (rowsOf sft fmt b)).flatMap fun r => rowOp c sft (o.imm.val / 16) r.1 r.2)
  | c => fin ((List.range lanes).map fun i => laneOp c (elem fmt (lane a i)) (elem fmt (lane b i)) (elem fmt (lane d i)))

/-- A Y-register read that SECDED corrected or could not correct (R58, Table 15-10); answers whether it failed. -/
def State.yRead (s : State) (t : Nat) (e : Ecc) : Bool × State :=
  let b := vuBlk t
  let r : Rpt := { ctx := some (s.tile t).ctx }
  let (ce, s) := s.detect b 0 (e == .corrected) r
  let s := if ce then s.sat (blkR b 0x050) 0 32 1 else s
  let (ue, s) := s.detect b 1 (e == .uncorrectable) r
  (ue, if ue then s.sat (blkR b 0x058) 0 32 1 else s)

/-- An operation fails at its issue; an ENCODE counts in the encoder's BLK_PROGRESS (R123). -/
def State.vecFail (s : State) (t : Nat) (c : VCode) (tally : Nat) : State :=
  (if c = .encode then s.progress (encBlk t) else s).opFail t tally

/-- Issue a vector operation (R54, R55): it fails where the vector unit, or the encoder that an ENCODE needs, does not work (R336) or a
read is uncorrectable; otherwise its result is in flight. [DESIGN CHOICE, log entry 45] -/
def State.vecIssue (s : State) (t : Nat) (c : VCode) (o : VOp) (e : Ecc) : State :=
  if !s.ok (vuBlk t) || (c == .encode && !s.ok (encBlk t)) then s.vecFail t c o.tally
  else
    let (bad, s) := s.yRead t e
    if bad then s.vecFail t c o.tally
    else s.modTile t fun x => { x with vu := x.vu ++ [s.vecResult t c o] }

/-- A Y register replaced. -/
def State.setY (s : State) (t r : Nat) (v : List W32) : State := s.modTile t fun x => { x with y := x.y.set r v }

/-- A result of the arithmetic pipe, VS0 (Table 3-4). -/
def VRes.arith (r : VRes) : Bool := decide (0x10 ≤ r.op ∧ r.op < 0x20)

/-- A result goes to its registers: one of the arithmetic pipe yields to one that the function pipe wrote there in the same ACLK cycle
(R55). [DESIGN CHOICE, log entry 45] -/
def State.vecPut (s : State) (t : Nat) (r : VRes) : State :=
  if r.arith && (s.tile t).vs1.contains r.vd then s
  else
    let s := s.setY t r.vd r.val
    let s := match r.second with | some (v, l) => s.setY t v l | none => s
    if r.arith then s
    else s.modTile t fun x => { x with vs1 := r.vd :: (match r.second with | some (v, _) => [v] | none => []) ++ x.vs1 }

/-- Write a result that is no ENCODE's to vd at issue plus latency, and increment its tally (R55). [DESIGN CHOICE, log entry 45, DESIGN CHOICE, log entry 76] -/
def State.vecWrite (s : State) (t k : Nat) : State :=
  match (s.tile t).vu[k]? with
  | some r =>
    if r.enc.isSome then s
    else
      let s := s.modTile t fun x => { x with vu := x.vu.eraseIdx k }
      let s := s.vecPut t r
      let s := (s.wrap (blkR (vuBlk t) 0x040) 48 1).sat (blkR (vuBlk t) 0x048) 0 32 r.flushed
      (s.progress (vuBlk t)).opDone t r.tally
  | none => s

/-- The oldest ENCODE in flight completes or fails (R121, R124, R336). [DESIGN CHOICE, log entry 45] -/
def State.encodeDone (s : State) (t : Nat) (dataBad profileBad : Bool) : State :=
  match findIdxOpt (fun (r : VRes) => r.enc.isSome) (s.tile t).vu 0 with
  | none => s
  | some k =>
    match (s.tile t).vu[k]? with
    | none => s
    | some r =>
      let b := encBlk t
      let s := s.modTile t fun x => { x with vu := x.vu.eraseIdx k }
      let rp : Rpt := { ctx := some (s.tile t).ctx }
      let (f0, s) := s.detect b 0 dataBad rp
      let (f1, s) := s.detect b 1 profileBad rp
      let s := s.progress b
      if f0 || f1 || !s.ok b then s.opFail t r.tally
      else
        let (fl, ov, z, n) := r.enc.getD (0, 0, 0, 0)
        let s := (s.vecPut t r).sat (blkR b 0x040) 0 32 fl
        let s := ((s.sat (blkR b 0x048) 0 32 ov).sat (blkR b 0x050) 0 32 z).sat (blkR b 0x058) 0 32 n
        let s := (s.wrap (blkR b 0x068) 48 1).wrap (blkR (vuBlk t) 0x040) 48 1
        (s.progress (vuBlk t)).opDone t r.tally

/-- An opcode of a vector slot, and the slot that may carry it (R54, Table 3-4). -/
def vcodeOf (n : Nat) : Option VCode := allVCodes.find? fun c => c.num == n

/-- The fields of a 48-bit vector slot (Table 3-3). -/
def vopOf (v : Nat) : VOp :=
  { fmt := Fin.ofNat 3 (fld v 38 2), vd := Fin.ofNat 32 (fld v 33 5), va := Fin.ofNat 32 (fld v 28 5), vb := Fin.ofNat 32 (fld v 23 5),
    vc := Fin.ofNat 32 (fld v 18 5), imm := Fin.ofNat 1024 (fld v 8 10), tally := Fin.ofNat 256 (fld v 0 8) }

end Sys2Proof.Machine
end

