-- ==== Sys2Proof/Machine/Mover.lean ====
section
/-!
DEFINITION. The bundle's slots (Tables 3-1 to 3-9) and the DMA movers: queues (R59), descriptors (R60), rows (R61, R140), failures, and
the aborts of teardown.
-/
namespace Sys2Proof.Machine

/-! ## Slots of a bundle -/

/-- An array slot of a bundle (Table 3-2). -/
def bunArr (w a : Nat) : Nat := fld w (40 * a) 40
/-- A vector slot (Table 3-3). -/
def bunVec (w i : Nat) : Nat := fld w (160 + 48 * i) 48
/-- A mover slot (Table 3-6). -/
def bunMov (w i : Nat) : Nat := fld w (256 + 32 * i) 32
/-- A fabric slot (Table 3-8). -/
def bunFab (w i : Nat) : Nat := fld w (384 + 40 * i) 40
/-- The sync slot (Table 3-9). -/
def bunSync (w : Nat) : Nat := fld w 464 40

/-- The tiles of the context's CONTEXTS entry whose TILE_PROG holds a fabric slot of the code given on a group (R303). -/
def State.fabTiles (s : State) (ctx g code : Nat) : List Nat :=
  (List.range 8).filter fun t =>
    s.tileOwner t == some ctx &&
    (match s.prog t with
      | none => false
      | some x => (List.range (progHdr x).bundles).any fun i =>
          let w := progBundle x i
          [bunFab w 0, bunFab w 1].any fun f => fld f 34 6 == code && u (progFab x (fld f 16 16)) 0 2 % 16384 == g)

/-! ## Movers -/

/-- A mover. -/
def State.mover (s : State) (t m : Nat) : Mover := (s.tile t).movs.get {} m

/-- A mover replaced. -/
def State.setMover (s : State) (t m : Nat) (x : Mover) : State := s.modTile t fun y => { y with movs := y.movs.set m x }

/-- The memory rights of a tile's context (Table 6-2). -/
def State.tileWho (s : State) (t : Nat) : Who := .ctx (s.tile t).ctx (s.ctx (s.tile t).ctx).priv

/-- RUN (R59). -/
def State.movRun (s : State) (t m desc tally : Nat) : State :=
  let bytes := match s.prog t with | some p => progMov p desc | none => []
  let x := s.mover t m
  if !s.ok (movBlk t) then s.opFail t tally
  else
    let (inj, s) := s.takeInject (spnBlk t) 2
    if inj || 8 ≤ x.q.length then s.spnError t 2 1 tally (inj && x.q.length < 8)
    else s.setMover t m { x with serial := x.serial + 1, q := x.q ++ [{ desc := desc, tally := tally, bytes := bytes, ser := x.serial }] }

/-- Fields of a mover descriptor (Table 3-7): row bytes, rows, kind, first Y register, flags. -/
def movRowBytes (d : List Byte) : Nat := u d 0x10 4
/-- The number of rows. -/
def movRowCount (d : List Byte) : Nat := u d 0x14 4
/-- 0 memory to memory, 1 memory to Y, 2 Y to memory. -/
def movKind (d : List Byte) : Nat := u d 0x28 1
/-- per_row_tally. -/
def movPerRow (d : List Byte) : Bool := bitOf (u d 0x2A 2) 0
/-- lanes16. -/
def movLanes16 (d : List Byte) : Bool := bitOf (u d 0x2A 2) 1
/-- The device address of a row at the source (`0`) or the destination (`8`). -/
def movAddr (d : List Byte) (side row : Nat) : Nat :=
  let base : Int := u d side 8
  ((base + (row : Int) * signed 64 (u d (0x18 + side) 8)) % (2 ^ 64 : Nat)).toNat

/-- A device address on this chip: the access is local (R126). -/
def State.isLocal (s : State) (a : Nat) : Bool := s.hst.plan.isNone || addrChip a == s.chip

/-- The lanes of a row of memory (R60). -/
def rowLanes (l16 : Bool) (bs : List Byte) : List W32 :=
  let n := if l16 then 2 else 4
  (List.range lanes').map fun i => BitVec.ofNat 32 (u bs (n * i) n)
where
  /-- The lanes of a Y register. -/
  lanes' : Nat := 2048

/-- The bytes that a Y register's lanes make (R60). -/
def laneRow (l16 : Bool) (ws : List W32) : List Byte :=
  (List.range 2048).flatMap fun i =>
    let w := (ws.getD i 0).toNat
    if l16 then leBytes 2 w else leBytes 4 w

/-- The running operation of a mover fails with a status of MOV_LAST_ERR; the next entry runs (R61, R66). An operation of a closing context
does not fail: teardown aborts it (R217). -/
def State.movFail (s : State) (t m st : Nat) : State :=
  let x := s.mover t m
  match x.q with
  | [] => s
  | op :: q =>
    if (s.tile t).spn = 7 then s
    else
    let s := s.setMover t m { x with q := q }
    let s := (s.sat (blkR (movBlk t) 0x088) 0 32 1).setRg (blkR (movBlk t) 0x098) (put 16 m ||| put 8 st ||| put 0 op.tally)
    s.opFail t op.tally

/-- A mover detector of Table 15-10 reports; its detail is MOV_LAST_ERR as the failure writes it. -/
def State.movFlag (s : State) (t m det st : Nat) (inj : Bool := false) : State :=
  match (s.mover t m).q with
  | [] => s
  | op :: _ => s.flag (movBlk t) det { injected := inj, ctx := some (s.tile t).ctx, detail := put 16 m ||| put 8 st ||| put 0 op.tally }

/-- The rows 0 to k - 1 that have all been written, k from `n` on. -/
def written (ws : List Nat) : Nat → Nat → Nat
  | 0, n => n
  | f + 1, n => if ws.contains n then written ws f (n + 1) else n

/-- The status of MOV_LAST_ERR (Table 3-17) for the status of an access: READ_UE, ACCESS_DENIED, else REMOTE_FAIL. [DESIGN CHOICE, log entry 46] -/
def movCause : Nat → Nat
  | 0 => 0
  | 1 => 2
  | 3 => 1
  | _ => 3

/-- The operation fails as an access of it did; a remote access that failed is reported (MOVER_REMOTE_FAIL). -/
def State.movStops (s : State) (t m st : Nat) : State :=
  (if movCause st = 3 then s.movFlag t m 1 3 else s).movFail t m (movCause st)

/-- The running operation changed. -/
def State.modOp (s : State) (t m : Nat) (f : MovOp → MovOp) : State :=
  match (s.mover t m).q with
  | [] => s
  | op :: q => s.setMover t m { s.mover t m with q := f op :: q }

/-! ### Rows -/

/-- The bytes that one loose request of a mover carries. [DESIGN CHOICE, log entry 46] -/
def movPiece : Nat := 256

/-- The pieces of a row that goes to another chip. -/
def movPieces (n : Nat) : List Nat := List.range (ceilDiv n movPiece)

/-- The loose requests for one row at a remote chip, in ascending order: reads (`w` 0) or writes (`w` 1) (R60, R126). [DESIGN CHOICE, log entry 46] -/
def State.askRow (s : State) (t m ser row w a n : Nat) (bs : List Byte) : State :=
  (movPieces n).foldl (fun s i =>
    let at_ := movPiece * i
    (s.enqueueReq t { kind := w, ctx := (s.tile t).ctx, address := a + at_, length := min movPiece (n - at_),
                      data := (bs.drop at_).take movPiece } (.row t m ser row (2 * i + w))).injectNext t) s

/-- One row issues: its source is read, or asked of the other chip. The status of the access, 0 for none. -/
def State.rowIssue (s : State) (t m : Nat) (y : Ecc) (op : MovOp) (k : Nat) : Nat × State :=
  let d := op.bytes
  let n := movRowBytes d
  let a := movAddr d 0 k
  let have_ := fun (s : State) (bs : List Byte) => s.modOp t m fun o => { o with issued := k + 1, got := o.got.set k bs }
  if movKind d = 2 then
    match s.yRead t y with
    | (true, s) => (stReadUe, s)
    | (false, s) => (stOk, have_ s (laneRow (movLanes16 d) (s.y t (u d 0x29 1 + k))))
  else if s.isLocal a then
    match s.fetch (some t) (s.tileWho t) (addrOff a) n with
    | ((0, bs), s) => (stOk, have_ s bs)
    | ((st, _), s) => (st, s)
  else (stOk, (s.modOp t m fun o => { o with issued := k + 1, need := o.need.set (2 * k) (movPieces n) }).askRow t m op.ser k 0 a n [])

/-- The rows issue in ascending order up to row `row` (R140). -/
def State.rowsIssue (s : State) (t m row : Nat) (y : Ecc) (op : MovOp) : Nat × State :=
  ((List.range (row + 1)).drop op.issued).foldl (fun (x : Nat × State) k =>
    if x.1 = 0 then x.2.rowIssue t m (if k = row then y else .clean) op k else x) (0, s)

/-- A row has been written: it counts, and with per_row_tally the tally counts the rows that have all been written (R61, R140). -/
def State.rowDone (s : State) (t m k : Nat) : State :=
  match (s.mover t m).q with
  | [] => s
  | op :: _ =>
    let ws := op.written ++ [k]
    let n := written ws ws.length op.counted
    let s := s.modOp t m fun o => { o with written := ws, counted := n }
    let s := s.wrap (blkR (movBlk t) 0x080) 64 (movRowBytes op.bytes)
    if movPerRow op.bytes && op.tally != 255 && op.counted < n then s.tallyAdd t op.tally (n - op.counted) else s

/-- A row's data go to its destination: the status of the write, 0 for none. A remote row counts once every completion has returned (R61). -/
def State.rowWrite (s : State) (t m k : Nat) (op : MovOp) (bs : List Byte) : Nat × State :=
  let d := op.bytes
  let a := movAddr d 8 k
  let s := s.modOp t m fun o => { o with got := o.got.drop fun j => j == k }
  if movKind d = 1 then (stOk, (s.setY t (u d 0x29 1 + k) (rowLanes (movLanes16 d) bs)).rowDone t m k)
  else if s.isLocal a then
    match s.put_ (some t) (s.tileWho t) (addrOff a) bs with
    | (0, s) => (stOk, s.rowDone t m k)
    | (st, s) => (st, s)
  else
    let n := movRowBytes d
    (stOk, (s.modOp t m fun o => { o with need := o.need.set (2 * k + 1) (movPieces n) }).askRow t m op.ser k 1 a n bs)

/-- Row k shares a local granule with an earlier row that is not written yet, which goes first (R139). -/
def State.rowBehind (s : State) (op : MovOp) (k : Nat) : Bool :=
  let a := fun j => movAddr op.bytes 8 j
  let n := movRowBytes op.bytes
  movKind op.bytes != 1 && s.isLocal (a k) &&
    (List.range k).any fun j => !op.written.contains j && decide (a j < a k + n ∧ a k < a j + n)

/-- The commanded rows whose data are there are written, in ascending order (R139). -/
def State.rowsFlush (s : State) (t m ser : Nat) : State :=
  match (s.mover t m).q with
  | [] => s
  | op0 :: _ => op0.got.foldl (fun (s : State) (x : Nat × List Byte) =>
      match (s.mover t m).q with
      | [] => s
      | op :: _ =>
        if op.ser ≠ ser || !op.asked.contains x.1 || s.rowBehind op x.1 then s
        else match s.rowWrite t m x.1 op x.2 with
          | (0, s) => s
          | (st, s) => s.movStops t m st) s

/-- MOVER_ROW_WRITTEN (R60, R61, R139, R140): the rows up to the one named issue, and the row is written, or goes to the other chip; an access that
fails stops the operation. `y` is what the read of a Y register found. [DESIGN CHOICE, log entry 46] -/
def State.movRowWritten (s : State) (t m row : Nat) (y : Ecc) : State :=
  match (s.mover t m).q with
  | [] => s
  | op :: _ =>
    if !s.ok (movBlk t) || movRowCount op.bytes ≤ row || op.asked.contains row || (s.mover t m).aborting then s
    else
      let (ji, s) := s.takeInject (movBlk t) 0
      let (jr, s) := s.takeInject (movBlk t) 1
      if ji then (s.movFlag t m 0 1 true).movFail t m 1
      else if jr then (s.movFlag t m 1 3 true).movFail t m 3
      else
        let s := s.modOp t m fun o => { o with asked := o.asked ++ [row] }
        match s.rowsIssue t m row y op with
        | (0, s) => s.rowsFlush t m op.ser
        | (st, s) => s.movStops t m st

/-- A piece of a remote row has ended: with the last read piece the row's data are there, with the last write piece the row is written (R61). -/
def State.rowEnd (s : State) (t m ser row p st : Nat) (data : List Byte) : State :=
  match (s.mover t m).q with
  | [] => s
  | op :: _ =>
    let key := 2 * row + p % 2
    let left := (op.need.get [] key).filter (· != p / 2)
    if op.ser ≠ ser || (s.mover t m).aborting || !(op.need.get [] key).contains (p / 2) then s
    else if st ≠ 0 then s.movStops t m st
    else
      let s := s.modOp t m fun o => { o with need := if left.isEmpty then o.need.drop (· == key) else o.need.set key left,
                                             parts := if p % 2 = 0 then o.parts.set (row * 65536 + p / 2) data else o.parts }
      if !left.isEmpty then s
      else if p % 2 = 1 then (s.rowDone t m row).rowsFlush t m ser
      else
        let here := fun (k : Nat) => k / 65536 == row
        let s := s.modOp t m fun o => { o with got := o.got.set row ((o.parts.filter fun x => here x.1).flatMap fun x => x.2), parts := o.parts.drop here }
        s.rowsFlush t m ser

/-- The pieces of remote rows that ended in this cycle reach their movers. -/
def State.moversHear (s : State) : State :=
  let l := s.swc.ended
  l.foldl (fun s (x : ReqFor × Nat × List Byte) => match x with
    | (.row t m ser row p, st, data) => s.rowEnd t m ser row p st data
    | _ => s) (s.modSwc fun x => { x with ended := [] })

/-- MOVER_DESC_DONE (R61): every row is written. [DESIGN CHOICE, log entry 46] -/
def State.movDone (s : State) (t m : Nat) : State :=
  match (s.mover t m).q with
  | [] => s
  | op :: q =>
    if op.written.length < movRowCount op.bytes || !s.ok (movBlk t) then s
    else
      let s := (s.setMover t m { s.mover t m with q := q }).progress (movBlk t)
      if movPerRow op.bytes then s else s.opDone t op.tally

/-- MOVER_OP_FAIL (R61, R137): an uncorrectable descriptor (0) or data word (1), a denied access (2) or a failed remote access (3). The
first word of the next row of a local source is then uncorrectable, and its memory reports the read. [DESIGN CHOICE, log entry 46] -/
def State.movOpFail (s : State) (t m st : Nat) : State :=
  match (s.mover t m).q with
  | [] => s
  | op :: _ =>
    let row := written op.written op.written.length 0
    let src := movAddr op.bytes 0 row
    match st with
    | 0 => (s.movFlag t m 0 1).movFail t m 1
    | 1 =>
      let s := if movKind op.bytes = 2 then (s.yRead t .uncorrectable).2
        else if s.isLocal src then ((s.upset [(addrOff src, .uncorrectable)]).load (addrOff src) 8).2 else s
      s.movFail t m 1
    | 2 => s.movFail t m 2
    | _ => (s.movFlag t m 1 3).movFail t m 3

/-- MOVER_PARITY: every queued and running operation fails (Table 15-10), but for those of a closing context (R217). -/
def State.moversFail (s : State) (t : Nat) : State :=
  (List.range 8).foldl (fun s m => (s.mover t m).q.foldl (fun s _ => s.movFail t m 1) s) s

/-- Teardown stage 3: queued descriptors are discarded and running ones aborted; each counts (Table 9-7). -/
def State.moversAbort (s : State) (t : Nat) : State :=
  let n := (List.range 8).foldl (fun n m => n + (s.mover t m).q.length) 0
  let s := s.sat (blkR (movBlk t) 0x090) 0 32 n
  s.modTile t fun x => { x with movs := x.movs.map fun (c : Nat × Mover) => (c.1, { c.2 with q := [], aborting := !c.2.q.isEmpty }) }

/-- Every mover of a tile is idle. -/
def State.moversIdle (s : State) (t : Nat) : Bool := (s.tile t).movs.all fun (c : Nat × Mover) => c.2.q.isEmpty && !c.2.aborting

/-- The aborted movers come to rest. -/
def State.moversRest (s : State) (t : Nat) : State :=
  s.modTile t fun x => { x with movs := x.movs.map fun (c : Nat × Mover) => (c.1, { c.2 with aborting := false }) }

/-- MOV_STATE_m (Table 3-17). -/
def State.movState (s : State) (t m : Nat) : W64 :=
  let x := s.mover t m
  put 4 (if x.aborting then 2 else if x.q.isEmpty then 0 else 1) ||| put 0 x.q.length

end Sys2Proof.Machine
end

