-- ==== Sys2Proof/Machine/Ring.lean ====
section
/-!
DEFINITION. Ring entries (R190), the egress VC buffers and what is discarded there (R191, R192).
-/
namespace Sys2Proof.Machine

/-- A RING_TABLE entry (Table 8-6). -/
structure RingEntry where
  ring : Nat
  transit : Bool
  vcIn : Nat
  ingress : Nat
  egress : Nat
  dateLine : Nat
  vcBuf : Nat
  slots : Nat
  deriving DecidableEq, Repr

/-- The fields of an entry. -/
def ringOf (e : List Byte) : RingEntry :=
  ⟨u e 0 2, u e 2 1 == 1, u e 3 1, u e 4 1, u e 5 1, u e 6 1, u e 7 1, u e 8 2⟩

/-- The entries in force. -/
def State.rings (s : State) : List RingEntry := (s.entries 0x05 noInst).map ringOf

/-- The entry of a ring at an ingress port (R191). -/
def State.ringIn (s : State) (ring p : Nat) : Option RingEntry := s.rings.find? fun e => e.ring == ring && e.ingress == p

/-- The entry of a ring at an egress port. -/
def State.ringOut (s : State) (ring p : Nat) : Option RingEntry := s.rings.find? fun e => e.ring == ring && e.egress == p

/-- The member entry of a ring: the device's pan hop. -/
def State.ringMember (s : State) (ring : Nat) : Option RingEntry := s.rings.find? fun e => e.ring == ring && !e.transit

/-- Pinned flits discarded (SWC_PIN_DROP_CNT). [DEDUCED, log entry 57] -/
def State.pinDrop (s : State) (flits : Nat) : State := s.sat (blkR 3 0x0E0) 0 32 flits

/-- A chunk's head and payload. -/
abbrev chunkFlits : Nat := 65

/-- A chunk enters the VC buffer of a ring's egress (R191, R192). [DEDUCED, log entry 57] -/
def State.vcPut (s : State) (e : RingEntry) (vc : Nat) (c : Chunk) : State :=
  let x := s.port e.egress
  let k := 2 * e.ring + vc
  let held := x.vcs.get [] k
  if x.st ≠ 3 || !s.coreOk then s.pinDrop chunkFlits
  else
    let (ovf, s) := s.detect 3 2 (decide (e.vcBuf ≤ held.length)) { ctx := some c.ctx }
    if ovf then s.pinDrop chunkFlits
    else s.modPort e.egress fun x => { x with vcs := x.vcs.set k ((x.vcs.get [] k) ++ [{ c with ring := e.ring, vc := vc }]) }

/-- The chunks of a port that has left UP are discarded (R192); what each ring has already sent counts no more. -/
def State.vcDrop (s : State) (p : Nat) : State :=
  let x := s.port p
  let held := x.vcs.foldl (fun (n : Nat) (c : Nat × List Chunk) => n + chunkFlits * c.2.length) 0
  let sent := x.tx.foldl (fun (n : Nat) (c : Nat × Nat × Nat) => n + c.2.2) 0
  (s.pinDrop (held - sent)).modPort p fun x => { x with vcs := [], tx := [] }

end Sys2Proof.Machine
end

