-- ==== Sys2Proof/Machine/Wide.lean ====
section
/-!
DEFINITION. The arithmetic of the reduction pans: the wide-sum accumulator (R251 to R254, R257), its limbs (R259), and FAST_SUM, MAX
and MIN (R255, R256).
-/
namespace Sys2Proof.Machine

/-- The NaN pattern (R251). -/
def wNan : Nat := 2 ^ 191

/-- Limb 5 at 0x8000_0000 marks a NaN element (R251). -/
def wIsNan (a : Nat) : Bool := a / 2 ^ 160 == 2 ^ 31

/-- The legal range (R251). -/
def wLegal (i : Int) : Bool := decide (-(2 ^ 191 : Int) + 2 ^ 160 ≤ i) && decide (i < (2 ^ 191 : Int))

/-- The sum of two accumulators, and whether it overflows (R253). -/
def wAdd (a b : Nat) : Nat × Bool :=
  if wIsNan a || wIsNan b then (wNan + (a + b) % 2 ^ 160, false)
  else ((a + b) % 2 ^ 192, !wLegal (signed 192 a + signed 192 b))

/-- A local element as it enters the window (R252, R257). -/
structure Entered where
  code : Nat
  trunc : Bool := false
  nan : Bool := false
  big : Bool := false
  deriving DecidableEq, Repr

/-- The entry of a local element: `square` under SUM_SQUARES. -/
def enter (square : Bool) (base : Int) (fmt code : Nat) : Entered :=
  let x := (fmtOf fmt).decode code
  match if square then x.mul x else x with
  | .fin s m e =>
    let k := e - (base - 96)
    let a := if 0 ≤ k then m * 2 ^ k.toNat else m / 2 ^ (-k).toNat
    { code := (sm s a % (2 ^ 192 : Nat)).toNat, trunc := decide (k < 0) && decide (m % 2 ^ (-k).toNat ≠ 0),
      big := decide (2 ^ 191 ≤ a) }
  | _ => { code := wNan, nan := true }

/-- The release of a confirmed element (R254): its code, and whether it became infinite. -/
def wRound (fmt : Nat) (base : Int) (a : Nat) : Nat × Bool :=
  if wIsNan a then ((fmtOf fmt).nanCode, false)
  else
    let r := (fmtOf fmt).round false (ofInt false (signed 192 a) (base - 96))
    (r.code, r.ovf)

/-- Limb `j` of an accumulator (R251). -/
def wLimb (a j : Nat) : Nat := a / 2 ^ (32 * j) % 2 ^ 32

/-- The lowest limb that is not zero in any accumulator; the top limb is always sent (R259). -/
def wLo (as : List Nat) : Nat := ((List.range 5).find? fun j => as.any fun a => wLimb a j != 0).getD 5

/-- The accumulators that limbs received so far make; limbs not received count as zero. -/
def wJoin (limbs : List (Nat × List Nat)) (n : Nat) : List Nat :=
  (List.range n).map fun i => limbs.foldl (fun a (l : Nat × List Nat) => a + l.2.getD i 0 * 2 ^ (32 * l.1)) 0

/-- The size of an element of a descriptor's format (R228). -/
def colSize (fmt : Nat) : Nat := if fmt = 0 then 4 else if fmt < 3 then 2 else 1

/-- The elements of a 4 KiB chunk. -/
def chunkCodes (fmt : Nat) (bs : List Byte) : List Nat :=
  let n := colSize fmt
  (List.range (4096 / n)).map fun i => u bs (n * i) n

/-- The bytes of some elements. -/
def codeBytes (fmt : Nat) (cs : List Nat) : List Byte := cs.flatMap fun c => leBytes (colSize fmt) c

/-- Two elements under an operator that is not wide (R255, R256). -/
def colCombine (operator fmt a b : Nat) : Nat :=
  let f := fmtOf fmt
  let x := f.decode a
  let y := f.decode b
  match operator with
  | 1 => f.enc (x.add y)
  | 2 => if x.isNan then (if y.isNan then f.nanCode else b) else if y.isNan then a else if Fp.lt true x y then b else a
  | 3 => if x.isNan then (if y.isNan then f.nanCode else b) else if y.isNan then a else if Fp.lt true y x then b else a
  | _ => a

/-- The operators whose partial sums travel in limb form (R259). -/
def isWide (operator : Nat) : Bool := operator == 0 || operator == 4

end Sys2Proof.Machine
end

