-- ==== Sys2Proof/Machine/Group.lean ====
section
/-!
DEFINITION. Groups and their instances (chapter 10): the group table (R224), the packets of the collective engine (R239), pan quarters
(R235, R247 to R249), the sequence window (R234), completion records (R243), and the failure of an instance (R238).
-/
namespace Sys2Proof.Machine

/-- A GROUP_TABLE entry (Table 10-1). -/
structure GrpCfg where
  n : Nat
  my : Nat
  ring : Nat
  list : Nat
  stats : Nat
  quad : Nat
  prov : Bool
  tree : Bool
  norm : Bool
  treeOnly : Bool
  window : Nat
  defOp : Nat
  quota : Nat
  ctx : Nat
  pwin : Nat
  root : Nat
  up : Nat
  down : Nat
  deliver : Bool
  cap : Nat
  deriving DecidableEq, Repr

/-- The fields of an entry. -/
def grpOf (e : List Byte) : GrpCfg :=
  { n := u e 2 2, my := u e 4 2, ring := u e 6 2, list := u e 8 8, stats := u e 0x10 8, quad := u e 0x18 1,
    prov := bitOf (u e 0x19 1) 0, tree := bitOf (u e 0x19 1) 1, norm := bitOf (u e 0x19 1) 2, treeOnly := bitOf (u e 0x19 1) 3,
    window := u e 0x1A 1, defOp := u e 0x1B 1, quota := u e 0x1C 2, ctx := u e 0x1E 1, pwin := u e 0x20 4, root := u e 0x24 2,
    up := u e 0x26 1, down := fld (u e 0x28 8) 0 48, deliver := bitOf (u e 0x28 8) 48, cap := u e 0x30 4 }

/-- A group of the image in force. -/
def State.grpCfg (s : State) (g : Nat) : Option GrpCfg := (s.entryAt 0x03 noInst g).map grpOf

/-- A group's state. -/
def State.grp (s : State) (g : Nat) : Grp := s.grps.get {} g

/-- A group's state changed. -/
def State.modGrp (s : State) (g : Nat) (f : Grp → Grp) : State := { s with grps := s.grps.set g (f (s.grp g)) }

/-- The number of an instance. -/
def instKey (g seq : Nat) : Nat := g * 65536 + seq

/-- An instance. -/
def State.inst (s : State) (g seq : Nat) : Option Inst := s.insts.find (instKey g seq)

/-- An instance replaced. -/
def State.setInst (s : State) (g seq : Nat) (i : Inst) : State := { s with insts := s.insts.set (instKey g seq) i }

/-- An instance changed, where it exists. -/
def State.modInst (s : State) (g seq : Nat) (f : Inst → Inst) : State :=
  match s.inst g seq with
  | some i => s.setInst g seq (f i)
  | none => s

/-- The ring successor and predecessor of a member (R224). -/
def GrpCfg.succ (c : GrpCfg) : Nat := (c.my + 1) % c.n
/-- The predecessor. -/
def GrpCfg.pred (c : GrpCfg) : Nat := (c.my + c.n - 1) % c.n

/-- The engine reads the chip of a member: none where the word of the member list cannot be read. A word that is corrected is GROUP_CE, one that
cannot be read GROUP_UE (Table 10-9). -/
def State.memberChip (s : State) (c : GrpCfg) (m : Nat) : Option Nat × State :=
  let a := c.list + 2 * m
  let mended := (s.upsets.find (wordOf a)).isSome && s.wordOk a
  match s.fetch none .engine a 2 with
  | ((0, bs), s) => (some (leNat bs), if mended then s.flag 5 0 { ctx := some c.ctx } else s)
  | (_, s) => (none, s)

/-- A chip is set in the fence table (Table 10-8). -/
def State.fencedChip (s : State) (k : Nat) : Bool := (s.rg (blkR 5 (0x1000 + 8 * (k / 64 % 256)))).bit (k % 64)

/-! ## Packets -/

/-- The head of a packet that the engine sends for an instance (Table 10-6). -/
def State.colPkt (s : State) (c : GrpCfg) (g seq : Nat) (k : Pkt) : Pkt :=
  { k with kind := if k.kind = 5 then 5 else 6, flits := 1 + ceilDiv k.data.length 64, length := k.data.length, unit := 10,
           ctx := c.ctx, gen := (s.ctx c.ctx).gen, harvest := (s.ctx c.ctx).harvest, group := g, gseq := seq, srcMember := c.my }

/-- A packet to a member (R180): whether the member's word could be read; GROUP_UE where it could not. -/
def State.tellMember (s : State) (c : GrpCfg) (g seq m : Nat) (k : Pkt) : Bool × State :=
  match s.memberChip c m with
  | (some chip, s) => (true, s.send { s.colPkt c g seq k with dst := chip, dstMember := m })
  | (none, s) => (false, s.flag 5 1 { ctx := some c.ctx, detail := put 50 g ||| put 34 seq ||| put 24 11 ||| put 0 c.my })

/-- ABORT to the ring successor (R238). -/
def State.sendAbort (s : State) (c : GrpCfg) (g seq status origin : Nat) : State :=
  if c.n < 2 then s else (s.tellMember c g seq c.succ { kind := 6, service := 2, sub := 4, stat := status, value := origin }).2

/-! ## Quarters -/

/-- A reduce traversal belongs to the operation (Table 10-2). -/
def opReduces (op : Nat) : Bool := op == 1 || op == 2 || op == 4 || op == 8

/-- The quarters of one chunk slot (Tables 10-3 and 11-1). [DESIGN CHOICE, log entry 61] -/
def slotCost (op operator : Nat) : Nat := if opReduces op && isWide operator then 4 else 1

/-- The halves of a chunk, each in a slot of its own (R248). [DESIGN CHOICE, log entry 61] -/
def halvesOf (op operator fmt : Nat) : Nat := if opReduces op && isWide operator && (fmt == 1 || fmt == 2) then 2 else 1

/-- The instances with their groups. -/
def State.instsOf (s : State) (p : Nat → Bool) : List (Nat × Inst) :=
  (s.insts.filter fun (x : Nat × Inst) => p (x.1 / 65536)).map fun (x : Nat × Inst) => (x.1, x.2)

/-- Quarters that a group's instances hold. -/
def State.unitsHeld (s : State) (g : Nat) : Nat :=
  ((s.instsOf (· == g)).flatMap fun (x : Nat × Inst) => x.2.slots.flatMap fun y => y.quarters).length

/-- The groups of a quadrant. -/
def State.inQuad (s : State) (q g : Nat) : Bool := match s.grpCfg g with | some c => c.quad == q | none => false

/-- The quarters of a quadrant that are in use. -/
def State.quartersUsed (s : State) (q : Nat) : List Nat :=
  (s.instsOf (s.inQuad q)).flatMap fun (x : Nat × Inst) => x.2.slots.flatMap fun y => y.quarters

/-- The free quarters of a pan of a quadrant. -/
def panFree (busy : List Nat) (p : Nat) : List Nat := ((List.range 64).map fun i => 64 * p + i).filter fun k => !busy.contains k

/-- The pan with the most free quarters outside `used`, the lowest among equals (R249). -/
def bestPan (busy used : List Nat) : Option Nat :=
  let ps := (List.range 24).filter fun p => !used.contains p && !(panFree busy p).isEmpty
  ps.foldl (fun b p => match b with
    | none => some p
    | some x => if (panFree busy x).length < (panFree busy p).length then some p else some x) none

/-- `n` quarters for one slot with adaptive placement (R249). -/
def spreadQuarters (busy used : List Nat) : Nat → List Nat
  | 0 => []
  | n + 1 =>
    match (match bestPan busy used with | some p => some p | none => bestPan busy []) with
    | some p => match panFree busy p with
      | k :: _ => k :: spreadQuarters (k :: busy) (p :: used) n
      | [] => []
    | none => []

/-- The quarters of `w` slots of `n` quarters each (R249). -/
def placeSlots (det : Bool) (n : Nat) (busy : List Nat) : Nat → List (List Nat)
  | 0 => []
  | w + 1 =>
    let q := if det then ((List.range 1536).filter fun k => !busy.contains k).take n else spreadQuarters busy [] n
    q :: placeSlots det n (q ++ busy) w

/-! ## The sequence window -/

/-- Where a sequence number lies (R234). A number in the window whose instance has ended counts as finished. -/
inductive Win where
  | live
  | fresh
  | past
  | ahead
  deriving DecidableEq, Repr

/-- The place of a sequence number. [DESIGN CHOICE, log entry 61] -/
def State.win (s : State) (g seq : Nat) : Win :=
  let x := s.grp g
  let d := (seq + 65536 - x.base) % 65536
  if (s.inst g seq).isSome then .live
  else if 5 ≤ d then (if d < 32768 then .ahead else .past)
  else if x.ended.contains seq then .past
  else .fresh

/-- Base passes every sequence that has ended. [DESIGN CHOICE, log entry 61] -/
def advanceBase (x : Grp) : Nat → Grp
  | 0 => x
  | n + 1 =>
    if x.ended.contains x.base then
      advanceBase { x with ended := x.ended.filter (· != x.base), base := (x.base + 1) % 65536 } n
    else x

/-- A sequence has ended. -/
def Grp.end_ (x : Grp) (seq : Nat) : Grp := advanceBase { x with ended := seq :: x.ended } 6

/-- COL_LAST_FAIL (Table 10-8). -/
def lastFail (g seq status named : Nat) : W64 := put 50 g ||| put 34 seq ||| put 24 status ||| put 0 (named % 2 ^ 14)

/-- A failure of a group is counted and recorded, and the group is failed (R238). -/
def State.groupFails (s : State) (c : GrpCfg) (g seq status named : Nat) : State :=
  let s := (s.sat (blkR 5 0x068) 0 32 1).setRg (blkR 5 0x098) (lastFail g seq status named)
  let s := s.modGrp g fun x => { x with failed := match x.failed with | some m => some m | none => some named }
  let s := s.setCtx c.ctx { s.ctx c.ctx with failedInst := true }
  s.progress 5

/-- The detail of a report of detectors 1 to 4 (Table 16-3). -/
def State.colFlag (s : State) (det : Nat) (c : GrpCfg) (g seq status named : Nat) (inj : Bool := false) : State :=
  s.flag 5 det { injected := inj, ctx := some c.ctx, detail := lastFail g seq status named }

/-- An instance that cannot be created fails its group, and the ring hears of it (R235, R238). [DESIGN CHOICE, log entry 61, DEDUCED, log entry 66] -/
def State.createFails (s : State) (c : GrpCfg) (g seq status : Nat) : State :=
  (s.groupFails c g seq status c.my).sendAbort c g seq status c.my

/-- A new instance with its slots (R234, R235, R249): the status of its creation. [DEDUCED, log entry 83] -/
def State.openInst (s : State) (c : GrpCfg) (g seq : Nat) (i : Inst) : Nat × State :=
  let cost := slotCost i.op i.operator
  if (s.grp g).failed.isSome then (6, s)
  else
  let (next, s) := s.memberChip c c.succ
  let (prev, s) := s.memberChip c c.pred
  if 2 ≤ c.n && (next.isNone || prev.isNone) then
    (11, (s.colFlag 1 c g seq 11 c.my).createFails c g seq 11)
  else
    let (inj, s) := s.takeInject 5 2
    let ovf := decide (c.quota < s.unitsHeld g + c.window * cost)
    if ovf || inj then (2, (s.colFlag 2 c g seq 2 c.my (inj && !ovf)).createFails c g seq 2)
    else
      let qs := placeSlots s.deterministic cost (s.quartersUsed c.quad) c.window
      let retry := (s.rg (blkR (10 + c.quad) 0x040)).fld 56 8
      let s := s.setInst g seq { i with slots := qs.map fun q => { quarters := q, retryMax := retry } }
      (0, s.wrap (blkR 5 0x058) 48 1)

/-! ## Memory of a tile -/

/-- A local write of the engine, or of the endpoint of tile t, for a collective: its status. Its rights were checked at load and are not
checked again (R128); it needs the package link of the tile (R12). -/
def State.tileSave (s : State) (t a : Nat) (bs : List Byte) : Nat × State :=
  if bs.isEmpty then (stOk, s)
  else if !(s.tile t).linkUp then (stRemote, s)
  else s.put_ (some t) .engine (addrOff a) bs

/-- A local read for a collective, over the package link of the tile (R12, R128). -/
def State.tileLoad (s : State) (t a n : Nat) : Option (List Byte) × State :=
  if n = 0 then (some [], s)
  else if !(s.tile t).linkUp then (none, s)
  else match s.fetch (some t) .engine (addrOff a) n with
    | ((0, bs), s) => (some bs, s)
    | (_, s) => (none, s)

/-! ## The crystallizer's share -/

/-- A crystallizer's record. -/
def State.cry (s : State) (t : Nat) : Cry := s.crys.get {} t

/-- A crystallizer's record changed. -/
def State.modCry (s : State) (t : Nat) (f : Cry → Cry) : State := { s with crys := s.crys.set t (f (s.cry t)) }

/-- A group in flight, changed. -/
def State.modCryGrp (s : State) (t g : Nat) (f : CryGrp → CryGrp) : State :=
  s.modCry t fun x => { x with groups := x.groups.set g (f (x.groups.get {} g)) }

/-- A CRY_GROUPS entry completes: tally 250, and the crystallizer is done when it equals the number of entries (R287). -/
def State.cryEntryDone (s : State) (t g : Nat) : State :=
  if (s.cry t).done.contains g || !(s.cry t).active then s
  else
    let s := s.modCry t fun x => { x with groups := x.groups.drop (· == g), done := x.done ++ [g] }
    let s := s.tallyAdd t 250 1
    if (s.tally t 250).count = (s.entries 0x09 t).length then s.modCry t fun x => { x with st := 3 } else s

/-- The norm collective of a group in flight ends with a result or a failure (R282). A group that no longer waits for it, or that is in flight no
more, does not hear of it. -/
def State.cryLands (s : State) (t g : Nat) (res : Nat × Nat × Nat × Nat × Nat) : State :=
  match (s.cry t).groups.find g with
  | some y => if y.st = 1 then s.modCryGrp t g fun x => { x with st := 2, res := some res } else s
  | none => s

/-- What the end of an instance means to the crystallizer that started it (R282, R286): the norm has failed, or a multicast or a
receipt has ended. -/
def State.cryHears (s : State) (i : Inst) (status : Nat) (st : Start) : State :=
  match st.cry with
  | none => s
  | some g =>
    if i.op = 1 then
      (if status != 0 then s.cryLands st.tile g (status, 0, 0, 0, 0) else s)
    else if (st.kind = 1) || (st.kind = 2) then
      let s := (s.detect (cryBlk st.tile) 7 (decide (2 ≤ status))
        { ctx := some (s.tile st.tile).ctx, detail := s.rg (blkR (cryBlk st.tile) 0x0A0) }).2
      s.cryEntryDone st.tile g
    else s

/-! ## The end of an instance -/

/-- The 32-byte completion record (R243). -/
def State.colRecord (s : State) (c : GrpCfg) (g seq : Nat) (i : Inst) (status named wait count : Nat) : List Byte :=
  leBytes 1 status ++ leBytes 1 i.op ++ leBytes 2 g ++ leBytes 2 seq ++ leBytes 2 named ++ leBytes 4 wait ++ leBytes 4 count ++
  leBytes 4 (s.ctx c.ctx).harvest ++ leBytes 4 i.delivered ++ leBytes 8 0

/-- The records of some starts are written. [DEDUCED, log entry 66] -/
def State.writeRecords (s : State) (rec_ : List Byte) (sts : List Start) : State :=
  sts.foldl (fun s st => let a := u st.bytes 0x20 8; if a = 0 then s else (s.tileSave st.tile a rec_).2) s

/-- The tallies of failed starts (R66, R242). -/
def State.startsFail (s : State) (sts : List Start) : State :=
  sts.foldl (fun s st => if st.cry.isSome && st.tally = 255 then s else s.opFail st.tile st.tally) s

/-- Expect entries of an instance go. -/
def State.dropExpects (s : State) (g seq : Nat) : State :=
  { s with tiles := s.tiles.map fun (x : Nat × Tile) =>
      (x.1, { x.2 with expects := x.2.expects.filter fun e => !(e.group == g && e.seq == seq) }) }

/-- A context is being torn down: no detector fails an operation of it (R217). -/
def State.closing (s : State) (c : Nat) : Bool := (s.ctx c).st == 2 || (s.ctx c).st == 3

/-- An instance fails (R238, R242, R244): records, tallies, the group's failure and, unless told otherwise, an ABORT whose origin is this
member. An instance of a closing context fails only at stage 4 of the teardown (R217). -/
def State.failInst (s : State) (g seq status named : Nat) (abort : Bool := true) : State :=
  match s.grpCfg g, s.inst g seq with
  | some c, some i =>
    if s.closing c.ctx && status ≠ 7 then s
    else
    let s := { s with insts := s.insts.drop (· == instKey g seq) }
    let s := s.modGrp g fun x => x.end_ seq
    let s := s.groupFails c g seq status named
    let s := s.writeRecords (s.colRecord c g seq i status named i.slowWait i.dropped) i.starts
    let s := (s.dropExpects g seq).startsFail i.starts
    let s := i.starts.foldl (fun s st => s.cryHears i status st) s
    if abort && status ≠ 5 && status ≠ 7 then s.sendAbort c g seq status c.my else s
  | _, _ => s

/-- A failure that a detector of the engine or of a pan block reports, naming this member. -/
def State.failHere (s : State) (g seq status : Nat) : State :=
  match s.grpCfg g with
  | some c => s.failInst g seq status c.my
  | none => s

/-- A packet to a member for an instance, which fails with MEMORY where the member's word cannot be read (Table 10-9). -/
def State.toMember (s : State) (c : GrpCfg) (g seq m : Nat) (k : Pkt) : State :=
  match s.tellMember c g seq m k with
  | (true, s) => s
  | (false, s) => s.failHere g seq 11

/-- CREDIT to the ring predecessor: the cumulative number of slots freed (R234). -/
def State.sendCredit (s : State) (g seq : Nat) : State :=
  match s.grpCfg g, s.inst g seq with
  | some c, some i =>
    if c.n < 2 then s
    else (s.wrap (blkR 5 0x078) 48 1).toMember c g seq c.pred { kind := 6, service := 2, sub := 3, value := i.freed }
  | _, _ => s

/-- The statistics of an instance that completes (R236); none where no chunk ended at this member. [DESIGN CHOICE, log entry 61] -/
def State.colStats (s : State) (c : GrpCfg) (g seq wait : Nat) (slow : Option Nat) : State :=
  match slow with
  | none => s
  | some member =>
    let s := s.setRg (blkR 5 0x0A0) (put 50 g ||| put 34 seq ||| put 20 (member % 2 ^ 14) ||| put 0 (min (wait / 16) (2 ^ 20 - 1)))
    if c.stats = 0 then s
    else match s.fetch none .engine (c.stats + 8 * member) 8 with
      | ((0, r), s) =>
        (s.put_ none .engine (c.stats + 8 * member) (leBytes 4 (satAdd 32 (u r 0 4) 1) ++ leBytes 4 (satAdd 32 (u r 4 4) (wait / 256)))).2
      | (_, s) => s

/-- An instance completes with OK or PARTIAL: the record, then the last increments of its EXPECTs (R242, R243). -/
def State.doneInst (s : State) (g seq status named wait count : Nat) : State :=
  match s.grpCfg g, s.inst g seq with
  | some c, some i =>
    let s := { s with insts := s.insts.drop (· == instKey g seq) }
    let s := s.modGrp g fun x => x.end_ seq
    let s := ((s.wrap (blkR 5 0x060) 48 1).progress 5).colStats c g seq i.slowWait i.slow
    let s := s.writeRecords (s.colRecord c g seq i status named wait count) i.starts
    let s := i.starts.foldl (fun s st => if st.rest then s.opDone st.tile st.tally else s) s
    i.starts.foldl (fun s st => s.cryHears i status st) s
  | _, _ => s

end Sys2Proof.Machine
end

