-- ==== Sys2Proof/Machine/Pan.lean ====
section
/-!
DEFINITION. The pans (chapter 11): chunk heads (R233, R260), the checks at pan entry (R214, R297 to R300), the slot states (R269), confirm,
retract and resend (R263 to R268), and what a slot delivers (R254, R261).
-/
namespace Sys2Proof.Machine

/-! ## Slots -/

/-- A slot of an instance. -/
def State.slot (s : State) (g seq n : Nat) : PSlot :=
  match s.inst g seq with
  | some i => i.slots.getD n {}
  | none => {}

/-- A slot changed. -/
def State.modSlot (s : State) (g seq n : Nat) (f : PSlot → PSlot) : State :=
  s.modInst g seq fun i => { i with slots := i.slots.set n (f (i.slots.getD n {})) }

/-- The slot that holds a chunk. -/
def Inst.slotOf (i : Inst) (key : Nat × Nat × Bool) : Option Nat := findIdxOpt (fun (y : PSlot) => y.key == some key) i.slots 0

/-- The key of the chunk that a slot holds. -/
def Inst.keyAt (i : Inst) (n : Nat) : Option (Nat × Nat × Bool) := (i.slots.getD n {}).key

/-- A half of a chunk that has not had its slot yet. -/
def Inst.awaits (i : Inst) (k h : Nat) : Bool := (i.slotOf (k, h, false)).isNone && !i.finished.contains (k, h, false)

/-- A slot kept for the other half of the chunk in the slot beside it: the halves of a chunk take two consecutive slots (R248). -/
def Inst.keptAt (i : Inst) (n : Nat) : Bool :=
  halvesOf i.op i.operator i.fmt == 2 &&
    ((0 < n && match i.keyAt (n - 1) with | some (k, 0, false) => i.awaits k 1 | _ => false) ||
     (match i.keyAt (n + 1) with | some (k, 1, false) => i.awaits k 0 | _ => false))

/-- A slot that holds nothing and is kept for nothing. [DEDUCED, log entry 59] -/
def Inst.emptyAt (i : Inst) (n : Nat) : Bool := decide (n < i.slots.length) && (i.keyAt n).isNone && !i.keptAt n

/-- A slot that holds nothing. [DEDUCED, log entry 59] -/
def Inst.emptySlot (i : Inst) : Option Nat := (List.range i.slots.length).find? i.emptyAt

/-- The slot for a chunk or half that has none: beside the other half of its chunk, or the first of two in a row for the first half to come
(R248). [DEDUCED, log entry 59] -/
def Inst.slotFor (i : Inst) (key : Nat × Nat × Bool) : Option Nat :=
  let (k, h, gather) := key
  if gather || halvesOf i.op i.operator i.fmt ≠ 2 then i.emptySlot
  else match i.slotOf (k, 1 - h, false) with
    | some n => if h = 1 then some (n + 1) else some (n - 1)
    | none =>
      if i.finished.contains (k, 1 - h, false) then i.emptySlot
      else ((List.range i.slots.length).find? fun n => i.emptyAt n && i.emptyAt (n + 1)).map fun n => n + h

/-- This member ends the traversal that began at a member. -/
def GrpCfg.lastOf (c : GrpCfg) (origin : Nat) : Bool := (origin + c.n - 1) % c.n == c.my

/-- The slot belongs to a reduce traversal. -/
def PSlot.reduces (y : PSlot) : Bool := match y.key with | some (_, _, gather) => !gather | none => false

/-- The slot that sends the gather traversal of a chunk: a gather slot, or the one in which the reduce traversal ended (R231). -/
def Inst.gatherSlot (c : GrpCfg) (i : Inst) (k : Nat) : Option Nat :=
  match i.slotOf (k, 0, true) with
  | some n => some n
  | none => findIdxOpt (fun (y : PSlot) => y.key == some (k, 0, false) && y.done && c.lastOf y.origin) i.slots 0

/-- The slot whose output for a chunk the successor's packet concerns. -/
def Inst.outSlot (c : GrpCfg) (i : Inst) (k half : Nat) (gather : Bool) : Option Nat :=
  if gather then i.gatherSlot c k else i.slotOf (k, half, false)

/-! ## Protocol packets (Table 11-3) -/

/-- A protocol packet to a member. [DESIGN CHOICE, log entry 65] -/
def State.panPkt (s : State) (c : GrpCfg) (g seq m sub version stat chunk half : Nat) (gather : Bool) : State :=
  s.toMember c g seq m { kind := 6, service := 1, sub := sub, part := version, stat := stat, value := chunk, half := half, gath := gather }

/-- ACCEPT to the predecessor. [DESIGN CHOICE, log entry 65] -/
def State.accept (s : State) (c : GrpCfg) (g seq version stat chunk half : Nat) (gather : Bool) : State :=
  s.panPkt c g seq c.pred 9 version stat chunk half gather

/-- The answer to a late packet, or to one of an ended sequence: ACCEPT with both bits, carrying its harvest number (R299, R300). -/
def State.lateAccept (s : State) (g seq version chunk half : Nat) (gather : Bool) (harvest : Nat) : State :=
  let s := s.sat (devR 0x120) 0 32 1
  match s.grpCfg g with
  | none => s
  | some c =>
    if c.treeOnly || c.n < 2 then s
    else match s.memberChip c c.pred with
      | (some chip, s) =>
        let k := s.colPkt c g seq { kind := 6, service := 1, sub := 9, part := version, stat := 3, value := chunk, half := half, gath := gather }
        s.send { k with dst := chip, dstMember := c.pred, harvest := harvest }
      | (none, s) => s.flag 5 1 { ctx := some c.ctx, detail := lastFail g seq 11 c.my }

/-- A chunk or protocol packet discarded under R265. -/
def State.panStale (s : State) (c : GrpCfg) : State := s.sat (blkR (10 + c.quad) 0x090) 0 32 1

/-! ## Boundary checks -/

/-- The generation check of R214. -/
def State.stale (s : State) (ctx gen : Nat) : Bool := (s.ctx ctx).st != 1 || (s.ctx ctx).gen != gen

/-- A packet discarded by that check. -/
def State.countStale (s : State) : State := s.sat (blkR 4 0x078) 0 32 1

/-- A harvest number against the current one: 0 equal, 1 later, 2 earlier (R292). -/
def harvestOrder (a b : Nat) : Nat :=
  let d := (a + 2 ^ 32 - b) % 2 ^ 32
  if d = 0 then 0 else if d < 2 ^ 31 then 1 else 2

/-- An early packet (R298). -/
def State.countEarly (s : State) : State := s.sat (devR 0x110) 0 32 1

/-! ## Output -/

/-- A wire chunk received or emitted (R271). -/
def State.wireCount (s : State) (c : GrpCfg) (k : Chunk) : State :=
  (s.wrap (blkR (10 + c.quad) (if k.wide then 0x050 else 0x058)) 48 1).progress (10 + c.quad)

/-- A wire chunk goes to the VC buffer of the ring's member entry (R191). A reduce traversal chunk gets a fresh CRC; a gather traversal chunk
keeps that of its origin (R260). -/
def State.emitChunk (s : State) (c : GrpCfg) (k : Chunk) : State :=
  match s.ringMember c.ring with
  | none => s
  | some e => (s.wireCount c k).vcPut e (max k.vc e.dateLine) (if k.gather then k else chunkSeal k)

/-- Credits left toward the successor (R234). [DESIGN CHOICE, log entry 61] -/
def Inst.credits (c : GrpCfg) (i : Inst) : Nat := c.window + i.credit - i.sent

/-- The CCLK cycles that a slot takes to emit one wire chunk: 65 flits at one each SCLK cycle, 41 ns (R267). [DESIGN CHOICE, log entry 58] -/
def chunkTime : Nat := 17

/-- A slot emits the wire chunk whose turn it is, where the last one has gone out (R259); a VC buffer that is full discards it (R192). The first
chunk of an unconfirmed output makes the slot PROVISIONAL_FORWARDED (Table 11-4). [DESIGN CHOICE, log entry 58] -/
def State.emitNext (s : State) (c : GrpCfg) (g seq n : Nat) : State :=
  let y := s.slot g seq n
  match y.wait with
  | [] => s
  | k :: ks =>
    if !y.credited || (match y.sentAt with | some t => decide (s.cclk < t + chunkTime) | none => false) then s
    else
      let st := if y.st = 2 && y.reduces && !k.confirmed && !k.gather then 3 else y.st
      (s.modSlot g seq n fun y => { y with wait := ks, sentAt := some s.cclk, st := st }).emitChunk c k

/-- A slot's chunks go out behind those that wait already, one after another, once it has a credit (R234, R259). [DESIGN CHOICE, log entry 58] -/
def State.sendOut (s : State) (c : GrpCfg) (g seq n : Nat) (ks : List Chunk) : State :=
  match s.inst g seq with
  | none => s
  | some i =>
    let s := s.modSlot g seq n fun y => { y with wait := y.wait ++ ks }
    if (i.slots.getD n {}).credited then s.emitNext c g seq n
    else if 0 < i.credits c then
      ((s.modSlot g seq n fun y => { y with credited := true }).modInst g seq fun i => { i with sent := i.sent + 1 }).emitNext c g seq n
    else s

/-- At a tick every slot goes on with what it emits. [DESIGN CHOICE, log entry 58] -/
def State.pansTick (s : State) : State :=
  s.insts.foldl (fun s (x : Nat × Inst) =>
    match s.grpCfg (x.1 / 65536) with
    | some c => (List.range x.2.slots.length).foldl (fun s n => s.emitNext c (x.1 / 65536) (x.1 % 65536) n) s
    | none => s) s

/-- The head that this pan places on a chunk of a slot (R233, R260). -/
def State.headOf (s : State) (c : GrpCfg) (g seq : Nat) (i : Inst) (y : PSlot) (gather : Bool) : Chunk :=
  let (k, h, _) := y.key.getD (0, 0, false)
  { gather := gather, half := h, ring := c.ring, vc := y.vc, group := g, seq := seq, ctx := c.ctx, op := i.op, operator := i.operator % 16,
    gen := (s.ctx c.ctx).gen, origin := y.origin, chunk := k, wbase := i.wbase, fmt := i.fmt, harvest := (s.ctx c.ctx).harvest,
    slow := y.slow, slowWait := y.slowWait, aux := if y.origin = c.my then i.aux else y.aux, version := y.ovf }

/-- The operator's form of a slot's partial: limb form, or element codes. -/
def Inst.wide (i : Inst) : Bool := opReduces i.op && isWide i.operator

/-- The arrival's elements as received so far. -/
def PSlot.arrival (wide : Bool) (y : PSlot) : List Nat := if wide then wJoin y.limbs 1024 else y.codes.getD []

/-- The local contribution with the arrival added, and whether an element overflows (R253, R255, R256). -/
def Inst.partialSum (i : Inst) (fmt : Nat) (y : PSlot) (alone : Bool) : List Nat × Bool :=
  let l := y.loc.getD []
  if alone then (l, y.big)
  else if i.wide then
    let r := List.zipWith wAdd l (y.arrival true)
    (r.map fun x => x.1, y.big || r.any fun x => x.2)
  else (List.zipWith (fun a b => colCombine i.operator fmt b a) l (y.arrival false), false)

/-- The wire chunks of limbs `from_` to `to` of a partial. -/
def limbChunks (head : Chunk) (codes : List Nat) (lo from_ dest : Nat) : List Chunk :=
  ((List.range 6).filter fun j => from_ ≤ j && j ≤ dest).map fun j =>
    { head with wide := true, limb := j, lo := lo, data := codes.flatMap fun a => leBytes 4 (wLimb a j) }

/-- The whole output of a slot: its limb run, or one wire chunk (R259). -/
def State.outputOf (s : State) (c : GrpCfg) (g seq : Nat) (i : Inst) (y : PSlot) (codes : List Nat) (lo : Nat) : List Chunk :=
  let head := { s.headOf c g seq i y false with confirmed := true }
  if i.wide then limbChunks head codes lo lo 5 else [{ head with data := (codeBytes i.fmt codes ++ List.replicate 4096 0).take 4096 }]

/-! ## Release -/

/-- A tile holds a CRY_GROUPS entry that is not frozen and takes part in a group: as its owner's norm, or as a replica. -/
def State.cryTile (s : State) (t g op : Nat) : Bool :=
  (s.entries 0x09 t).any fun e => !bitOf (u e 1 1) 0 &&
    (if op = 1 then u e 0 1 == 0 && u e 4 2 == g else u e 0 1 == 1 && u e 6 2 == g)

/-- The tiles whose EXPECT receives the group's results (R303). -/
def State.expTiles (s : State) (c : GrpCfg) (g op : Nat) : List Nat :=
  (List.range 8).filter fun t => (s.fabTiles c.ctx g 2).contains t || s.cryTile t g op

/-- Everything that a slot owes is done (Table 11-4). -/
def State.slotDone (s : State) (c : GrpCfg) (g : Nat) (i : Inst) (y : PSlot) : Bool :=
  let written := (s.expTiles c g i.op).all fun t => y.writtenBy.contains t
  match y.key with
  | none => false
  | some (_, h, gather) =>
    if !gather && !c.lastOf y.origin then y.st == 4 && y.formed && y.acked
    else if c.n < 2 then y.done && written
    else if gather then y.done && written && (y.dataOk || (c.lastOf y.origin && y.origin != c.my))
    else y.done && written && (y.dataOk || h == 1 || !(i.op == 1 || i.op == 8))

/-- A slot that owes nothing more is released: it counts as freed, and the predecessor hears of it (R234, R269). [DESIGN CHOICE, log entry 61] -/
def State.releaseSlot (s : State) (g seq n : Nat) : State :=
  match s.grpCfg g, s.inst g seq with
  | some c, some i =>
    let y := i.slots.getD n {}
    let ends := !y.reduces || c.lastOf y.origin
    if s.slotDone c g i y then
      let s := s.modInst g seq fun i =>
        { i with freed := i.freed + 1, finished := (y.key.getD (0, 0, false)) :: i.finished,
                 slow := if ends && (i.slow.isNone || i.slowWait < y.slowWait) then some y.slow else i.slow,
                 slowWait := if ends then max i.slowWait y.slowWait else i.slowWait,
                 slots := i.slots.set n { st := 6, quarters := y.quarters, retryMax := y.retryMax } }
      s.sendCredit g seq
    else s
  | _, _ => s

/-! ## Confirm -/

/-- Results of 16-bit halves are whole once every half of the chunk has one. -/
def Inst.wholeResult (i : Inst) (k : Nat) : Option (List Byte) :=
  let half := fun h => match i.slotOf (k, h, false) with
    | some n => (i.slots.getD n {}).result
    | none => none
  if halvesOf i.op i.operator i.fmt = 2 then
    match half 0, half 1 with
    | some a, some b => some (a ++ b)
    | _, _ => none
  else half 0

/-- The gather traversal of a chunk begins in the slot in which its reduce traversal ended, which then expects the successor's ACCEPT (R231,
Table 11-4). [DESIGN CHOICE, log entry 61] -/
def State.beginGather (s : State) (c : GrpCfg) (g seq k : Nat) : State :=
  match s.inst g seq with
  | none => s
  | some i =>
    match i.wholeResult k, i.slotOf (k, 0, false) with
    | some bs, some n =>
      if c.n < 2 || !(i.op == 1 || i.op == 8) then s
      else
        let y := { i.slots.getD n {} with origin := c.my, vc := 0, ovf := 0 }
        let out := [chunkSeal { s.headOf c g seq i y true with confirmed := true, half := 0, data := (bs ++ List.replicate 4096 0).take 4096 }]
        let s := s.modSlot g seq n fun y => { y with st := 1, out := out, credited := false, dataOk := false, acked := false, ovf := 0 }
        s.sendOut c g seq n out
    | _, _ => s

/-- The rounded or plain result of a slot, with the elements that became infinite (R254). -/
def Inst.resultOf (i : Inst) (codes : List Nat) : List Byte × Nat :=
  if i.wide then
    let r := codes.map (wRound i.fmt i.wbase)
    (codeBytes i.fmt (r.map fun x => x.1), (r.filter fun x => x.2).length)
  else (codeBytes i.fmt codes, 0)

/-- A CONFIRMED slot adds its local contribution, once it is there, and forwards the sum or delivers the result (R253, R263, R267). An overflow
of a wide-sum slot is acted on now. -/
def State.formSlot (s : State) (c : GrpCfg) (g seq n : Nat) : State :=
  match s.inst g seq with
  | none => s
  | some i =>
    let y := i.slots.getD n {}
    if y.st ≠ 4 || y.loc.isNone || y.formed then s
    else
      let (k, _, _) := y.key.getD (0, 0, false)
      let begins := y.origin == c.my
      let (codes, ovf) := i.partialSum i.fmt y begins
      let (bad, s) := if i.wide then s.detect (10 + c.quad) 3 ovf { ctx := some c.ctx } else (false, s)
      if bad then s.failHere g seq 10
      else
        let s := s.modSlot g seq n fun y => { y with formed := true }
        if c.lastOf y.origin then
          let (bs, infs) := i.resultOf codes
          let s := s.sat (blkR (10 + c.quad) 0x070) 0 32 infs
          let s := s.modSlot g seq n fun y => { y with done := true, result := some bs }
          (s.beginGather c g seq k).releaseSlot g seq n
        else if y.out.isEmpty then
          let lo := if begins then wLo (y.loc.getD []) else min y.lo (wLo (y.loc.getD []))
          let out := s.outputOf c g seq i y codes lo
          (s.modSlot g seq n fun y => { y with out := out }).sendOut c g seq n out
        else s

/-- A slot becomes CONFIRMED: ACCEPT with both bits to the predecessor, and CONFIRM for its own output version to the successor, but from the
last member (R263, R266, R269). -/
def State.confirmSlot (s : State) (c : GrpCfg) (g seq n : Nat) : State :=
  let y := s.slot g seq n
  let (k, h, _) := y.key.getD (0, 0, false)
  let begins := y.origin == c.my
  let s := s.modSlot g seq n fun y => { y with st := 4 }
  let s := s.modGrp g fun x => { x with prog := (x.prog + 1) % 65536 }
  let s := if begins then s else s.accept c g seq y.ver 3 k h false
  let s := if begins || c.lastOf y.origin then s else s.panPkt c g seq c.succ 6 y.ovf 0 k h false
  s.formSlot c g seq n

/-- The slot's arrival is confirmed: it is CONFIRMED, or its result has been formed. -/
def PSlot.settled (y : PSlot) : Bool := y.st == 4 || y.done

/-- The highest limb received with every limb below it. -/
def PSlot.topLimb (y : PSlot) : Option Nat := (y.limbs.map fun (l : Nat × List Nat) => l.1).getLast?

/-- Provisional forwarding: the limbs that can be formed and have not been sent go out (R259, Table 11-4). [DEDUCED, log entry 62] -/
def State.forwardLimbs (s : State) (c : GrpCfg) (g seq n : Nat) : State :=
  match s.inst g seq with
  | none => s
  | some i =>
    let y := i.slots.getD n {}
    match y.topLimb with
    | none => s
    | some top =>
      let lo := min y.lo (wLo (y.loc.getD []))
      let (codes, _) := i.partialSum i.fmt y false
      let ks := limbChunks (s.headOf c g seq i y false) codes lo (lo + y.out.length) top
      if ks.isEmpty then s
      else (s.modSlot g seq n fun y => { y with out := y.out ++ ks }).sendOut c g seq n ks

/-- A slot does what its local contribution and its arrival allow. [DEDUCED, log entry 63] -/
def State.pump (s : State) (g seq n : Nat) : State :=
  match s.grpCfg g, s.inst g seq with
  | some c, some i =>
    let y := i.slots.getD n {}
    if !y.reduces || y.done || y.st = 5 then s
    else if y.st = 4 then s.formSlot c g seq n
    else if y.origin = c.my then (if y.loc.isNone then s else s.confirmSlot c g seq n)
    else
      let s := if i.wide && c.prov && !c.lastOf y.origin && y.loc.isSome then s.forwardLimbs c g seq n else s
      if y.passed && (y.conf || y.confirmHeld == some y.ver) then s.confirmSlot c g seq n else s
  | _, _ => s

/-! ## Retract and resend -/

/-- A slot asks its predecessor for a version again; beyond retry_max the instance fails (R266). -/
def State.askResend (s : State) (c : GrpCfg) (g seq n version : Nat) : State :=
  let y := s.slot g seq n
  let (k, h, gather) := y.key.getD (0, 0, false)
  let (bad, s) := s.detect (10 + c.quad) 4 (decide (y.retryMax < y.asked + 1)) { ctx := some c.ctx }
  if bad then s.failHere g seq 10
  else (s.modSlot g seq n fun y => { y with asked := y.asked + 1 }).panPkt c g seq c.pred 8 version h k h gather

/-- The arrival of a slot is withdrawn. -/
def PSlot.clearArrival (y : PSlot) : PSlot := { y with limbs := [], codes := none, passed := false, conf := false }

/-- PAN_LAST_RETRACT (Table 11-6). -/
def lastRetract (g seq cause chunk : Nat) : W64 := put 50 g ||| put 34 seq ||| put 32 cause ||| put 0 (chunk % 2 ^ 32)

/-- R264: cause 1 check, 2 residue, 3 state UE; 0 for a RETRACT or a higher version, which are no retract that this quadrant starts. A slot whose
traversal begins here has no arrival to ask for. [DESIGN CHOICE, log entry 61] -/
def State.retractSlot (s : State) (c : GrpCfg) (g seq n cause : Nat) : State :=
  let y := s.slot g seq n
  let (k, h, _) := y.key.getD (0, 0, false)
  let s := if cause = 0 then s else s.setRg (blkR (10 + c.quad) 0x098) (lastRetract g seq cause k)
  let s := s.modSlot g seq n fun y => { y.clearArrival with st := 5, wait := [], out := [], ovf := (y.ovf + 1) % 256, dataOk := false, acked := false }
  let s := if c.lastOf y.origin then s
    else (s.sat (blkR (10 + c.quad) 0x080) 0 32 1).panPkt c g seq c.succ 7 y.ovf h k h false
  if cause = 0 || y.origin = c.my then s else s.askResend c g seq n y.ver

/-- A failed check (R264, R267, R268, R270). [DEDUCED, log entry 62] -/
def State.checkFails (s : State) (c : GrpCfg) (g seq n : Nat) : State :=
  match s.inst g seq with
  | none => s
  | some i =>
    let y := i.slots.getD n {}
    let s := s.sat (blkR (10 + c.quad) 0x078) 0 32 1
    let s := s.modSlot g seq n fun y => { y with failed := some y.ver }
    if y.reduces && i.wide && c.prov then s.retractSlot c g seq n 1
    else
      let s := s.modSlot g seq n fun y => { y.clearArrival with st := 1 }
      s.askResend c g seq n y.ver

/-- What a pan met in a slot (R258, R270): whether the work goes on. [DEDUCED, log entry 63] -/
def State.panEvent (s : State) (c : GrpCfg) (g seq n : Nat) (ev : PanEv) : Bool × State :=
  match s.inst g seq with
  | none => (false, s)
  | some i =>
    let b := 10 + c.quad
    let y := i.slots.getD n {}
    let (k, _, _) := y.key.getD (0, 0, false)
    let r := fun (cause : Nat) => ({ ctx := some c.ctx, detail := lastRetract g seq cause k } : Rpt)
    let (ce, s) := s.detect b 0 (ev == .stateCe) { ctx := some c.ctx }
    let s := if ce then s.sat (blkR b 0x0A0) 0 32 1 else s
    let (iue, s) := if i.wide && y.reduces then s.detect b 5 (ev == .inputUe) { ctx := some c.ctx } else (false, s)
    if iue then (false, (s.sat (blkR b 0x0A8) 0 32 1).failHere g seq 10)
    else
      let (ue, s) := s.detect b 1 (ev == .stateUe) (r 3)
      let s := if ue then s.sat (blkR b 0x0A8) 0 32 1 else s
      let (res, s) := if ue then (false, s) else s.detect b 2 (ev == .residue) (r 2)
      if !ue && !res then (true, s)
      else if y.reduces && i.wide && !y.done && (y.st = 1 || y.st = 2 || y.st = 3) then
        (false, (s.modSlot g seq n fun y => { y with failed := some y.ver }).retractSlot c g seq n (if ue then 3 else 2))
      else (false, s.failHere g seq 10)

/-! ## Arrival -/

/-- A CONFIRM for a version of a chunk came before any chunk of it took a slot (R263). -/
def State.heldConfirm (s : State) (g seq : Nat) (key : Nat × Nat × Nat) : Bool :=
  match s.inst g seq with | some i => i.confirms.contains key | none => false

/-- A reduce chunk whose turn it is enters its slot (R263 to R267). [DEDUCED, log entry 62] -/
def State.takeReduce (s : State) (c : GrpCfg) (g seq n : Nat) (k : Chunk) : State :=
  let y := s.slot g seq n
  let first := !k.wide || k.limb == k.lo
  let y' := if first then { y.clearArrival with ver := k.version, lo := k.lo, failed := none, vc := k.vc, aux := k.aux } else { y with ver := k.version, lo := k.lo }
  let early := s.heldConfirm g seq (k.chunk, k.half, k.version)
  let s := s.modInst g seq fun i => { i with confirms := i.confirms.filter (· != (k.chunk, k.half, k.version)) }
  let s := s.modSlot g seq n fun _ =>
    { y' with st := if y'.st = 1 || y'.st = 6 then 2 else y'.st, confirmHeld := if early then some k.version else y'.confirmHeld,
              slow := if y.slowWait ≤ k.slowWait then k.slow else y.slow, slowWait := max y.slowWait k.slowWait }
  let whole := (List.range k.limb).all fun j => j < k.lo || (y'.limbs.find j).isSome
  let (bad, s) := s.detect (10 + c.quad) 6 (!(chunkOk k && (!k.wide || whole))) { ctx := some c.ctx, detail := lastRetract g seq 1 k.chunk }
  if bad then s.checkFails c g seq n
  else
    let s := s.modSlot g seq n fun y =>
      { y with limbs := if k.wide then y.limbs.set k.limb (chunkCodes 0 k.data) else y.limbs,
               codes := if k.wide then y.codes else some (chunkCodes k.fmt k.data),
               conf := y.conf || k.confirmed, passed := !k.wide || k.limb == 5 }
    let s := if !k.wide || k.limb = 5 then s.accept c g seq k.version 1 k.chunk k.half false else s
    s.pump g seq n

/-- A gather chunk: forwarded by cut-through, and delivered where it passes its check (R268). [DESIGN CHOICE, log entry 61] -/
def State.takeGather (s : State) (c : GrpCfg) (g seq n : Nat) (k : Chunk) : State :=
  let y := s.slot g seq n
  let s := s.modSlot g seq n fun y => { y with st := 2, ver := k.version, ovf := k.version, vc := k.vc, slow := k.slow, slowWait := k.slowWait, failed := none }
  let s := if c.lastOf k.origin then s
    else (s.modSlot g seq n fun y => { y with out := [k] }).sendOut c g seq n [k]
  let (bad, s) := s.detect (10 + c.quad) 6 (!chunkOk k) { ctx := some c.ctx, detail := lastRetract g seq 1 k.chunk }
  if bad then (s.modSlot g seq n fun x => { x with dataOk := y.dataOk }).checkFails c g seq n
  else
    let s := s.modSlot g seq n fun y => { y with st := 4, passed := true, done := true, result := some k.data }
    let s := s.modGrp g fun x => { x with prog := (x.prog + 1) % 65536 }
    (s.accept c g seq k.version 1 k.chunk 0 true).releaseSlot g seq n

/-- The version rules of R265 for an arriving wire chunk. -/
def State.takeChunk (s : State) (c : GrpCfg) (g seq n : Nat) (k : Chunk) : State :=
  match s.inst g seq with
  | none => s
  | some i =>
    let y := i.slots.getD n {}
    let d := (k.version + 256 - y.ver) % 256
    if y.st = 5 then s.modSlot g seq n fun y => { y with held := y.held ++ [k] }
    else if 128 ≤ d then s.panStale c
    else if d = 0 && (y.passed || y.settled) then s.accept c g seq k.version (if y.settled && !k.gather then 3 else 1) k.chunk k.half k.gather
    else if y.settled then s.panStale c
    else if k.gather then s.takeGather c g seq n k
    else if d ≠ 0 && i.wide && (y.st = 2 || y.st = 3) then
      (s.retractSlot c g seq n 0).modSlot g seq n fun y => { y with ver := k.version, failed := none, held := [k] }
    else if y.failed = some k.version && k.wide && k.limb ≠ k.lo then s.panStale c
    else s.takeReduce c g seq n k

/-- Table 11-4, RETRACTING: the restore completes, and what was held meanwhile is taken (R264). [DESIGN CHOICE, log entry 4] -/
def State.restoreDone (s : State) (g seq chunk half : Nat) : State :=
  match s.grpCfg g, s.inst g seq with
  | some c, some i => match i.slotOf (chunk, half, false) with
    | some n =>
      let y := i.slots.getD n {}
      if y.st ≠ 5 then s
      else if y.origin = c.my then (s.modSlot g seq n fun y => { y with st := 2 }).pump g seq n
      else y.held.foldl (fun s k => s.takeChunk c g seq n k) (s.modSlot g seq n fun y => { y with st := 1, held := [] })
    | none => s
  | _, _ => s

/-- The instance that an arriving chunk belongs to, made where none exists (R234). [DEDUCED, log entry 83] -/
def instOfChunk (k : Chunk) : Inst :=
  { op := k.op, operator := if k.operator = 15 then 255 else k.operator, fmt := k.fmt, wbase := k.wbase, aux := k.aux }

/-- A chunk reaches the slot of its instance; one that finds no slot is discarded. [DEDUCED, log entry 57, DEDUCED, log entry 59] -/
def State.placeChunk (s : State) (c : GrpCfg) (k : Chunk) (ev : PanEv) : State :=
  match s.inst k.group k.seq with
  | none => s
  | some i =>
    let key := (k.chunk, k.half, k.gather)
    let s := s.wireCount c k
    if i.finished.contains key then s.accept c k.group k.seq k.version 3 k.chunk k.half k.gather
    else
      let slot := match i.slotOf key with
        | some n => some (n, false)
        | none => (i.slotFor key).map fun n => (n, true)
      match slot with
      | none => s.pinDrop chunkFlits
      | some (n, new) =>
        let s := if new then s.modSlot k.group k.seq n fun y =>
            { y with st := 1, key := some key, origin := k.origin, ver := k.version, lo := k.lo, aux := k.aux, vc := k.vc, came := s.cclk } else s
        match s.panEvent c k.group k.seq n ev with
        | (true, s) => s.takeChunk c k.group k.seq n k
        | (false, s) => s

/-- A chunk at a member entry (R191): the checks of R297 in their order, the sequence window, then its slot. -/
def State.panChunk (s : State) (k : Chunk) (ev : PanEv) : State :=
  match s.grpCfg k.group with
  | none => s.pinDrop chunkFlits
  | some c =>
    if c.treeOnly || !s.ok (10 + c.quad) || !s.ok 5 then s.pinDrop chunkFlits
    else if s.stale k.ctx k.gen then s.countStale
    else
      let late := fun (s : State) => s.lateAccept k.group k.seq k.version k.chunk k.half k.gather k.harvest
      match harvestOrder k.harvest (s.ctx k.ctx).harvest with
      | 1 => s.countEarly
      | 2 => late s
      | _ =>
        let s := s.progress 5
        match s.win k.group k.seq with
        | .live => s.placeChunk c k ev
        | .ahead => s.sat (blkR 5 0x070) 0 32 1
        | .past => late (s.sat (blkR 5 0x070) 0 32 1)
        | .fresh => match s.openInst c k.group k.seq (instOfChunk k) with
          | (0, s) => s.placeChunk c k ev
          | (6, s) => late (s.sat (blkR 5 0x070) 0 32 1)
          | (_, s) => s

/-! ## Protocol packets -/

/-- CONFIRM (R263, R265): one whose data are still to come, in this version or a newer one, is held. [DEDUCED, log entry 63] -/
def State.confirmPkt (s : State) (c : GrpCfg) (k : Pkt) : State :=
  match s.inst k.group k.gseq with
  | none => s
  | some i =>
    let both := fun (s : State) => (s.panStale c).accept c k.group k.gseq k.part 3 k.value k.half false
    if i.finished.contains (k.value, k.half, false) then both s
    else match i.slotOf (k.value, k.half, false) with
      | none => s.modInst k.group k.gseq fun i =>
          { i with confirms := if i.confirms.contains (k.value, k.half, k.part) then i.confirms else (k.value, k.half, k.part) :: i.confirms }
      | some n =>
        let y := i.slots.getD n {}
        if y.settled then both s
        else if (k.part + 256 - y.ver) % 256 < 128 then
          (s.modSlot k.group k.gseq n fun y => { y with confirmHeld := some k.part }).pump k.group k.gseq n
        else s.panStale c

/-- RETRACT (R264, R265): the version that follows is the one to come. -/
def State.retractPkt (s : State) (c : GrpCfg) (k : Pkt) : State :=
  match s.inst k.group k.gseq with
  | none => s
  | some i => match i.slotOf (k.value, k.stat % 2, false) with
    | none => s.panStale c
    | some n =>
      let y := i.slots.getD n {}
      if y.settled || k.part ≠ y.ver || !i.wide then s.panStale c
      else
        let s := if y.st = 5 then s.modSlot k.group k.gseq n PSlot.clearArrival else s.retractSlot c k.group k.gseq n 0
        s.modSlot k.group k.gseq n fun y =>
          { y with ver := (k.part + 1) % 256, failed := none, confirmHeld := y.confirmHeld.filter (· == (k.part + 1) % 256) }

/-- The whole output of a slot goes out again (R266). -/
def State.resendOut (s : State) (c : GrpCfg) (g seq n : Nat) : State :=
  let y := s.slot g seq n
  (s.sat (blkR (10 + c.quad) 0x088) 0 32 1).sendOut c g seq n y.out

/-- RESEND (R266). -/
def State.resendPkt (s : State) (c : GrpCfg) (k : Pkt) : State :=
  match s.inst k.group k.gseq with
  | none => s
  | some i => match i.outSlot c k.value (k.stat % 2) k.gath with
    | none => s.panStale c
    | some n =>
      let y := i.slots.getD n {}
      if y.credited && !y.out.isEmpty && y.ovf = k.part then s.resendOut c k.group k.gseq n else s.panStale c

/-- ACCEPT (R266). -/
def State.acceptPkt (s : State) (c : GrpCfg) (k : Pkt) : State :=
  match s.inst k.group k.gseq with
  | none => s
  | some i => match i.outSlot c k.value k.half k.gath with
    | none => s.panStale c
    | some n =>
      let y := i.slots.getD n {}
      if y.ovf ≠ k.part then s.panStale c
      else
        let s := s.modSlot k.group k.gseq n fun y =>
          { y with dataOk := y.dataOk || bitOf k.stat 0, acked := y.acked || (bitOf k.stat 0 && bitOf k.stat 1) }
        s.releaseSlot k.group k.gseq n

/-- CONFIRM_REPEAT (R266). -/
def State.confirmRepeat (s : State) (g seq chunk half : Nat) : State :=
  match s.grpCfg g, s.inst g seq with
  | some c, some i => match i.slotOf (chunk, half, false) with
    | some n =>
      let y := i.slots.getD n {}
      if y.st = 4 && y.credited && !y.acked && !c.lastOf y.origin then s.panPkt c g seq c.succ 6 y.ovf 0 chunk half false else s
    | none => s
  | _, _ => s

/-- ACCEPT_TIMEOUT (R266). [DESIGN CHOICE, log entry 3] -/
def State.acceptTimeout (s : State) (g seq chunk half : Nat) (gather : Bool) : State :=
  match s.grpCfg g, s.inst g seq with
  | some c, some i => match i.outSlot c chunk half gather with
    | some n =>
      let y := i.slots.getD n {}
      if y.credited && !y.out.isEmpty && !y.dataOk then s.resendOut c g seq n else s
    | none => s
  | _, _ => s

/-- SLOT_PARITY: every instance with quarters in the quadrant fails (Table 11-7). -/
def State.failQuad (s : State) (q : Nat) : State :=
  (s.instsOf (s.inQuad q)).foldl (fun s (x : Nat × Inst) => s.failHere (x.1 / 65536) (x.1 % 65536) 10) s

/-- ENGINE_PARITY: every instance held fails with ABORTED and without ABORT packets (Table 10-9). -/
def State.failAll (s : State) : State :=
  s.insts.foldl (fun s (x : Nat × Inst) => match s.grpCfg (x.1 / 65536) with
    | some c => s.failInst (x.1 / 65536) (x.1 % 65536) 5 c.my false
    | none => s) s

/-! ## Register views (Tables 10-8 and 11-6) -/

/-- The slots of a quadrant. -/
def State.quadSlots (s : State) (q : Nat) : List PSlot := (s.instsOf (s.inQuad q)).flatMap fun (x : Nat × Inst) => x.2.slots

/-- PAN_OCC_n: the slots of pan n with a quarter in use, and its quarters in use. -/
def State.panOcc (s : State) (q n : Nat) : W64 :=
  let used := ((s.quadSlots q).flatMap fun y => y.quarters).filter fun k => k / 64 == n
  put 16 ((List.range 16).filter fun j => used.any fun k => k % 64 / 4 == j).length ||| put 0 used.length

/-- PAN_STATES_n: for each slot of pan n, the state of the chunk slot that has its quarter 0. [DESIGN CHOICE, log entry 61] -/
def State.panStates (s : State) (q n : Nat) : W64 :=
  (List.range 16).foldl (fun v j => match (s.quadSlots q).find? fun y => y.quarters.contains (64 * n + 4 * j) with
    | some y => v ||| put (4 * j) y.st
    | none => v) 0

/-- GRP_STATE_g. [DEDUCED, log entry 60] -/
def State.grpState (s : State) (g : Nat) : W64 :=
  let x := s.grp g
  let n := ((s.instsOf (· == g)).filter fun (i : Nat × Inst) => i.1 % 65536 ≠ x.base).length
  put 48 x.auto ||| put 32 x.base ||| putBit 31 x.failed.isSome ||| put 28 n ||| put 16 (s.unitsHeld g) ||| put 0 x.prog

/-- COL_QUAD_UNITS_q. -/
def State.quadUnits (s : State) (q : Nat) : W64 :=
  let gs := (s.entries 0x03 noInst).map grpOf
  put 16 (s.quartersUsed q).length ||| put 0 ((gs.filter fun c => c.quad == q).foldl (fun n c => n + c.quota) 0)

end Sys2Proof.Machine
end

