-- ==== Sys2Proof/Machine/Collective.lean ====
section
/-!
DEFINITION. The collective engine (chapter 10): starts (R226 to R230), local chunks (R231, R232, R252, R281, R303), results (R63, R242),
credits (R234), failures (R237, R238), multicast trees (R240) and all-to-all (R241).
-/
namespace Sys2Proof.Machine

/-! ## Shape of a collective -/

/-- The chunks of a collective (R228); BARRIER has one empty chunk (R227). -/
def colChunks (op fmt count : Nat) : Nat := if op = 8 then 1 else ceilDiv (count * colSize fmt) 4096

/-- The bytes that chunk k carries. -/
def colBytes (op fmt count k : Nat) : Nat := if op = 8 then 0 else min 4096 (count * colSize fmt - k * 4096)

/-- The chunks of shard j (R226). -/
def shard (n chunks j : Nat) : Nat × Nat :=
  let size := ceilDiv chunks n
  (min (j * size) chunks, min ((j + 1) * size) chunks)

/-- The elements, or bytes, that a start counts. -/
def Start.count (st : Start) : Nat := u st.bytes 0x0C 4

/-- The root member that a start names. -/
def Start.root (st : Start) : Nat := u st.bytes 0x0A 2

/-- The first start of an instance of a kind. -/
def Inst.startOf (i : Inst) (kind : Nat) : Option Start := i.starts.find? fun st => st.kind == kind

/-- The count of the collective, as the local starts give it. -/
def Inst.count (i : Inst) : Option Nat := i.starts.head?.map Start.count

/-- The chunks of the collective; none before a local start has named its count. -/
def Inst.chunks (i : Inst) : Nat :=
  match i.count with
  | some n => colChunks i.op i.fmt n
  | none => 0

/-- The chunks whose traversal begins at this member (R231): reduce traversals, or those of an ALL_GATHER. -/
def Inst.begins (c : GrpCfg) (i : Inst) (chunks : Nat) : Nat × Nat :=
  let root := match i.starts.head? with | some st => st.root | none => 0
  if i.op = 4 then (if (root + 1) % c.n = c.my then (0, chunks) else (0, 0))
  else if i.op = 3 then shard c.n chunks c.my
  else shard c.n chunks ((c.my + c.n - 1) % c.n)

/-- How many local chunks or halves this member contributes. -/
def Inst.toPull (c : GrpCfg) (i : Inst) (chunks : Nat) : Nat :=
  if i.op = 3 then (let r := shard c.n chunks c.my; r.2 - r.1) else chunks * halvesOf i.op i.operator i.fmt

/-- How many chunk slots this member frees by the end of the instance. -/
def Inst.toFree (c : GrpCfg) (i : Inst) (chunks : Nat) : Nat :=
  let own := let r := shard c.n chunks c.my; r.2 - r.1
  let gather := if c.n < 2 then 0 else chunks - own
  match i.op with
  | 3 => chunks
  | 1 => chunks * halvesOf i.op i.operator i.fmt + gather
  | 8 => chunks + gather
  | _ => chunks * halvesOf i.op i.operator i.fmt

/-- The chunks, or sources, that an EXPECT counts, and the first chunk (Table 10-2). -/
def expectOf (c : GrpCfg) (op fmt : Nat) (st : Start) : Nat × Nat :=
  let chunks := colChunks op fmt st.count
  match op with
  | 2 => let r := shard c.n chunks c.my; (r.1, r.2 - r.1)
  | 4 => (0, if st.root = c.my then chunks else 0)
  | 6 => (0, c.n)
  | 7 => (0, c.n)
  | _ => (0, chunks)

/-- The operator of a descriptor (R227); 255 where the operation takes none. -/
def operatorOf (c : GrpCfg) (d : List Byte) : Nat :=
  match u d 4 1 with
  | 8 => 2
  | 1 => if u d 5 1 = 255 then c.defOp else u d 5 1
  | 2 => if u d 5 1 = 255 then c.defOp else u d 5 1
  | 4 => if u d 5 1 = 255 then c.defOp else u d 5 1
  | _ => 255

/-- The instance that a start makes. -/
def instOfStart (c : GrpCfg) (d : List Byte) : Inst :=
  { op := u d 4 1, operator := operatorOf c d, fmt := u d 6 1, wbase := signed 16 (u d 8 2), aux := u d 0x28 4 }

/-- The tiles whose start contributes: SENDs, or JOINs for a BARRIER (R303); a crystallizer contributes alone. -/
def State.contributors (s : State) (c : GrpCfg) (g : Nat) (i : Inst) : List Nat :=
  match i.starts.find? fun st => st.cry.isSome with
  | some st => [st.tile]
  | none => s.fabTiles c.ctx g (if i.op = 8 then 3 else 1)

/-- Every contributing tile has started. -/
def State.contributed (s : State) (c : GrpCfg) (g : Nat) (i : Inst) : Bool :=
  !i.starts.isEmpty && (s.contributors c g i).all fun t => i.starts.any fun st => st.tile == t && st.kind == (if i.op = 8 then 3 else 1)

/-- The tiles whose EXPECT this instance needs: none at a member that receives nothing (Table 10-2). -/
def State.expecting (s : State) (c : GrpCfg) (g : Nat) (i : Inst) : List Nat :=
  let root := match i.starts.head? with | some st => st.root | none => 0
  if (i.op = 4 && root != c.my) || (i.op = 5 && c.root == c.my) then [] else s.expTiles c g i.op

/-- The expect entries of an instance. -/
def State.expectsOf (s : State) (g seq : Nat) : List (Nat × Expect) :=
  (List.range 8).flatMap fun t => ((s.tile t).expects.filter fun e => e.group == g && e.seq == seq).map fun e => (t, e)

/-- A local start is still missing: a contribution, a JOIN of a broadcast's receiver, or an EXPECT (R237). -/
def State.startsMissing (s : State) (c : GrpCfg) (g : Nat) (i : Inst) : Bool :=
  let has := fun (t kind : Nat) => i.starts.any fun st => st.tile == t && st.kind == kind
  !s.contributed c g i || !((s.expecting c g i).all fun t => has t 2) ||
    (i.op == 5 && c.root != c.my && !((s.fabTiles c.ctx g 3).all fun t => has t 3))

/-- Every EXPECT has been issued and has all that it counts. -/
def State.received (s : State) (c : GrpCfg) (g seq : Nat) (i : Inst) : Bool :=
  (s.expectsOf g seq).isEmpty && (s.expecting c g i).all fun t => i.starts.any fun st => st.tile == t && st.kind == 2

/-! ## Counting down an EXPECT -/

/-- One unit that an entry counts has been written: its tally increments, and the entry goes with the last, whose increment waits for
the completion record where its start has one (R63, R243). -/
def State.expectOne (s : State) (t g seq : Nat) : State :=
  match (s.tile t).expects.find? fun e => e.group == g && e.seq == seq with
  | none => s
  | some e =>
    if 1 < e.left then
      (s.modTile t fun x => { x with expects := x.expects.map fun y => if y = e then { e with left := e.left - 1 } else y }).opDone t e.tally
    else
      let s := s.modTile t fun x => { x with expects := x.expects.erase e }
      if u e.bytes 0x20 8 = 0 then s.opDone t e.tally
      else s.modInst g seq fun i => { i with starts := i.starts.map fun st => if st.tile = t && st.kind = 2 then { st with rest := true } else st }

/-! ## Multicast trees (R240) -/

/-- One bit of a port mask. -/
def portsOf (m : Nat) : List Nat := (List.range 48).filter fun p => bitOf m p

/-- A branch whose neighbour is fenced gets no packet: counted, and reported once for each group, sequence and port. -/
def State.pruneAt (s : State) (c : GrpCfg) (g seq p : Nat) : Bool × State :=
  let e := s.rg (blkR (24 + p) 0x100)
  if e.bit 63 && s.fencedChip (e.fld 0 14) then
    let s := s.sat (blkR 5 0x088) 0 32 1
    if (s.grp g).pruned.contains (seq, p) then (true, s)
    else (true, ((s.detect 5 5 true { ctx := some c.ctx }).2).modGrp g fun x => { x with pruned := (seq, p) :: x.pruned })
  else (false, s)

/-- A tree packet goes to every tree port but the one it came on; the answer is the status of the last copy that failed. -/
def State.treeOut (s : State) (c : GrpCfg) (frm : Option Nat) (k : Pkt) : Nat × State :=
  let ps := (portsOf c.down ++ (if c.up = 255 then [] else [c.up])).filter fun p => some p != frm
  ps.foldl (fun (r : Nat × State) p =>
    match r.2.pruneAt c k.group k.gseq p with
    | (true, s) => (r.1, s)
    | (false, s) => match s.treeCopy frm s.cclk k p with
      | (0, s) => (r.1, s)
      | (st, s) => (st, s)) (stOk, s)

/-- The packets of chunk k of a broadcast. [DEDUCED, log entry 66] -/
def State.treePkts (s : State) (c : GrpCfg) (g seq service k : Nat) (bs : List Byte) : List Pkt :=
  (List.range 16).map fun p =>
    let x := s.colPkt c g seq { kind := 5, service := service, part := p, value := k, address := g,
                                data := (slice bs (256 * p) 256 ++ List.replicate 256 0).take 256 }
    { x with src := s.chip, dst := s.chip, dclass := (s.rte s.chip).fld 40 8 }

/-- The root reads and sends some chunks; a read or a bobbin that fails ends it with a status of Table 10-7. -/
def State.treeChunks (s : State) (c : GrpCfg) (g seq : Nat) (i : Inst) (st : Start) : List Nat → Nat × State
  | [] => (0, s)
  | k :: ks =>
    match s.tileLoad st.tile (u st.bytes 0x10 8 + 4096 * k) (colBytes i.op i.fmt st.count k) with
    | (none, s) => (11, s)
    | (some bs, s) =>
      match (s.treePkts c g seq (if st.cry.isSome then 3 else 2) k bs).foldl (fun (r : Nat × State) p =>
          if r.1 ≠ 0 then r else r.2.treeOut c none p) (0, s) with
      | (0, s) => s.treeChunks c g seq i st ks
      | (5, s) => (8, s)
      | (_, s) => (9, s)

/-- The root sends its whole broadcast. -/
def State.broadcast (s : State) (g seq : Nat) : State :=
  match s.grpCfg g, s.inst g seq with
  | some c, some i => match i.startOf 1 with
    | some st => match s.treeChunks c g seq i st (List.range (colChunks i.op i.fmt st.count)) with
      | (0, s) => s
      | (r, s) => s.failHere g seq r
    | none => s
  | _, _ => s

/-- The members other than the root whose chip is fenced; none where a word of the member list cannot be read. -/
def State.fencedMembers (s : State) (c : GrpCfg) : Option (List Nat) × State :=
  ((List.range c.n).filter (· != c.my)).foldl (fun (r : Option (List Nat) × State) m =>
    match r.1, r.2.memberChip c m with
    | some ms, (some k, s) => (some (if s.fencedChip k then ms ++ [m] else ms), s)
    | _, (_, s) => (none, s)) (some [], s)

/-- TREE_DONE to the root (R240): the answer of a member that holds, or once held, everything. -/
def State.treeDone (s : State) (c : GrpCfg) (g seq value harvest : Nat) : State :=
  match s.memberChip c c.root with
  | (some chip, s) =>
    let k := s.colPkt c g seq { kind := 6, service := 2, sub := 5, value := value }
    s.send { k with dst := chip, dstMember := c.root, harvest := harvest }
  | (none, s) => (s.flag 5 1 { ctx := some c.ctx, detail := lastFail g seq 11 c.my }).failHere g seq 11

/-- The packets of chunk k that carry bytes. [DEDUCED, log entry 66] -/
def partsOf (op fmt count k : Nat) : Nat := max 1 (ceilDiv (colBytes op fmt count k) 256)

/-- A tree packet is written to every EXPECT of this member. [DEDUCED, log entry 64] -/
def State.treeTake (s : State) (c : GrpCfg) (k : Pkt) (i : Inst) : State :=
  let es := s.expectsOf k.group k.gseq
  let key := 16 * k.value + k.part
  if es.isEmpty || !((s.expecting c k.group i).all fun t => es.any fun e => e.1 == t) || i.packets.contains key then s
  else
    let count := match i.count with | some n => n | none => 0
    if colChunks i.op i.fmt count ≤ k.value then s
    else
      let bytes := (k.data).take (colBytes i.op i.fmt count k.value - 256 * k.part)
      let (st, s) := es.foldl (fun (r : Nat × State) (e : Nat × Expect) =>
        match r.2.tileSave e.1 (u e.2.bytes 0x10 8 + 4096 * k.value + 256 * k.part) bytes with
        | (0, s) => (r.1, s)
        | (x, s) => (x, s)) (0, s)
      if st ≠ 0 then s.failHere k.group k.gseq 11
      else
        let held := key :: i.packets
        let whole := (List.range (partsOf i.op i.fmt count k.value)).all fun p => held.contains (16 * k.value + p)
        let had := (List.range (partsOf i.op i.fmt count k.value)).all fun p => i.packets.contains (16 * k.value + p)
        let s := s.modInst k.group k.gseq fun i => { i with packets := held, delivered := if whole && !had then i.delivered + 1 else i.delivered }
        let s := if whole && !had then es.foldl (fun s (e : Nat × Expect) => s.expectOne e.1 k.group k.gseq) s else s
        let all := (List.range (colChunks i.op i.fmt count)).all fun j =>
          (List.range (partsOf i.op i.fmt count j)).all fun p => held.contains (16 * j + p)
        let bytes := count * colSize i.fmt
        let h := (s.ctx c.ctx).harvest
        if all then
          (s.modGrp k.group fun x => { x with bcast := x.bcast.set (h * 65536 + k.gseq) bytes }).treeDone c k.group k.gseq bytes h
        else s

/-! ## All-to-all (R241) -/

/-- The slot of a source at every receiver of a padded all-to-all. -/
def a2aSlot (c : GrpCfg) (count : Nat) : Nat := if c.n ≤ 512 then count else c.cap

/-- The send counts of a start, one for each destination; none where they cannot be read. [DEDUCED, log entry 64] -/
def State.sendCounts (s : State) (c : GrpCfg) (i : Inst) (st : Start) : Option (List Nat) × State :=
  let a := u st.bytes 0x18 8
  if a = 0 then (some (List.replicate c.n st.count), s)
  else match s.tileLoad st.tile a (4 * c.n) with
    | (some bs, s) => (some ((List.range c.n).map fun d => if i.op = 6 then min st.count (u bs (4 * d) 4) else u bs (4 * d) 4), s)
    | (none, s) => (none, s)

/-- The sum of the first `n` numbers. [DEDUCED, log entry 64] -/
def sumTo (xs : List Nat) (n : Nat) : Nat := (xs.take n).foldl (· + ·) 0

/-- What destination d gets: the address of its bytes and their number. [DEDUCED, log entry 64] -/
def a2aPart (c : GrpCfg) (i : Inst) (st : Start) (counts : List Nat) (d : Nat) : Nat × Nat :=
  if i.op = 6 then (u st.bytes 0x10 8 + d * st.count, min (counts.getD d 0) (a2aSlot c st.count))
  else (u st.bytes 0x10 8 + sumTo counts d, counts.getD d 0)

/-- Where the bytes of source m go in an EXPECT's buffer. -/
def Inst.a2aOffset (c : GrpCfg) (i : Inst) (count m : Nat) : Nat :=
  if i.op = 6 then m * a2aSlot c count
  else ((List.range m).map fun j => (i.counts.get [] j).headD 0).foldl (· + ·) 0

/-- Some bytes of a source arrive at every EXPECT of this member. `total` is what the source sends in all. [DEDUCED, log entry 64] -/
def State.a2aTake (s : State) (c : GrpCfg) (g seq m off total : Nat) (bs : List Byte) : State :=
  match s.inst g seq with
  | none => s
  | some i =>
    let es := s.expectsOf g seq
    let had := i.pieces.get [] m
    if es.isEmpty || i.srcDone.contains m || had.contains (off, bs.length) then s
    else
      let (st, s) := es.foldl (fun (r : Nat × State) (e : Nat × Expect) =>
        match r.2.tileSave e.1 (u e.2.bytes 0x10 8 + i.a2aOffset c (u e.2.bytes 0x0C 4) m + off) bs with
        | (0, s) => (r.1, s)
        | (x, s) => (x, s)) (0, s)
      if st ≠ 0 then s.failHere g seq 11
      else
        let ps := (off, bs.length) :: had
        let whole := decide (total ≤ (ps.map fun x => x.2).foldl (· + ·) 0)
        let s := s.modInst g seq fun i =>
          { i with pieces := i.pieces.set m ps, delivered := i.delivered + bs.length, srcDone := if whole then m :: i.srcDone else i.srcDone }
        if whole then es.foldl (fun s (e : Nat × Expect) => s.expectOne e.1 g seq) s else s

/-- The staging of a destination: the bobbin it holds already, or a new one, held until its A2A_DONE (Table 9-8). A status of Table 10-7. [DEDUCED, log entry 64] -/
def State.stageFor (s : State) (g seq d : Nat) : Nat × State :=
  match s.inst g seq with
  | none => (0, s)
  | some i =>
    if (i.staged.find d).isSome then (0, s)
    else match s.bobTake 3 with
      | (0, b, s) => (0, s.modInst g seq fun i => { i with staged := i.staged.set d b })
      | (5, _, s) => (8, s)
      | (_, _, s) => (9, s)

/-- The staging of a destination is read as its data go out: whether they survive (R221). -/
def State.readStage (s : State) (g seq d : Nat) : Bool × State :=
  match (s.inst g seq).bind fun i => i.staged.find d with
  | some b => s.readBob b
  | none => (true, s)

/-- The data of one destination goes out (the own part is copied locally): a status of Table 10-7. [DEDUCED, log entry 64, DESIGN CHOICE, log entry 65] -/
def State.a2aSend (s : State) (c : GrpCfg) (g seq : Nat) (i : Inst) (st : Start) (counts : List Nat) (d : Nat) : Nat × State :=
  let (a, n) := a2aPart c i st counts d
  match s.tileLoad st.tile a n with
  | (none, s) => (11, s)
  | (some bs, s) =>
    if d = c.my then (0, s.a2aTake c g seq d 0 n bs)
    else match s.stageFor g seq d with
      | (0, s) =>
        let (ok, s) := s.readStage g seq d
        let pkts := (List.range (max 1 (ceilDiv n 256))).map fun p =>
          ({ kind := 6, service := 2, sub := 0, value := 256 * p, total := n, data := slice bs (256 * p) 256 } : Pkt)
        (0, if ok then pkts.foldl (fun s k => s.toMember c g seq d k) s else s)
      | (r, s) => (r, s)

/-- The data of some destinations; the first failure ends it. -/
def State.a2aSendAll (s : State) (c : GrpCfg) (g seq : Nat) (i : Inst) (st : Start) (counts : List Nat) : List Nat → Nat × State
  | [] => (0, s)
  | d :: ds => match s.a2aSend c g seq i st counts d with
    | (0, s) => s.a2aSendAll c g seq i st counts ds
    | (r, s) => (r, s)

/-- The bytes dropped under padding are written and counted: the status of the write. -/
def State.a2aDrops (s : State) (c : GrpCfg) (g seq : Nat) (i : Inst) (st : Start) (counts : List Nat) : Nat × State :=
  let drops := (List.range c.n).map fun d => if i.op = 6 then counts.getD d 0 - min (counts.getD d 0) (a2aSlot c st.count) else 0
  let total := drops.foldl (· + ·) 0
  let a := u st.bytes 0x18 8
  let (r, s) := if i.op = 6 && a ≠ 0 then s.tileSave st.tile (a + 4 * c.n) (drops.flatMap fun d => leBytes 4 d) else (0, s)
  (r, (s.sat (blkR 5 0x090) 0 48 total).modInst g seq fun i => { i with dropped := total })

/-- The own part of a padded all-to-all is copied once the local EXPECT is there too. [DEDUCED, log entry 64] -/
def State.a2aOwn (s : State) (g seq : Nat) : State :=
  match s.grpCfg g, s.inst g seq with
  | some c, some i =>
    match i.startOf 1, i.startOf 2 with
    | some st, some _ =>
      if i.op ≠ 6 || !i.moved || i.srcDone.contains c.my then s
      else match s.sendCounts c i st with
        | (none, s) => s.failHere g seq 11
        | (some counts, s) => match s.a2aSend c g seq i st counts c.my with
          | (0, s) => s
          | (r, s) => s.failHere g seq r
    | _, _ => s
  | _, _ => s

/-- Data moves once the SEND is there and, for ALL_TO_ALL_V, the EXPECT too, every count is held and the buffers suffice. -/
def State.a2aMove (s : State) (g seq : Nat) : State :=
  match s.grpCfg g, s.inst g seq with
  | some c, some i =>
    match i.startOf 1 with
    | some st =>
      let ready := i.op == 6 || ((i.startOf 2).isSome && (List.range c.n).all fun m => (i.counts.find m).isSome)
      if i.moved || !ready || !s.contributed c g i then s
      else match s.sendCounts c i st with
        | (none, s) => s.failHere g seq 11
        | (some counts, s) =>
          let got := i.a2aOffset c 0 c.n
          if i.op = 7 && (st.count < sumTo counts c.n || (match i.startOf 2 with | some ex => decide (ex.count < got) | none => true)) then
            s.failHere g seq 11
          else
            let s := s.modInst g seq fun i => { i with moved := true }
            match s.a2aDrops c g seq i st counts with
            | (0, s) => match s.a2aSendAll c g seq i st counts (List.range c.n) with
              | (0, s) => i.starts.foldl (fun s st => if st.kind = 1 then s.opDone st.tile st.tally else s) s
              | (r, s) => s.failHere g seq r
            | (_, s) => s.failHere g seq 11
    | none => s
  | _, _ => s

/-- A received count is held and, once the SEND names the array, written; a write that fails ends the instance with MEMORY. [DEDUCED, log entry 64] -/
def State.a2aCount (s : State) (c : GrpCfg) (g seq m n : Nat) : State :=
  let s := s.modInst g seq fun i => { i with counts := i.counts.set m [n] }
  match s.inst g seq with
  | some i => match i.startOf 1 with
    | some st => match s.tileSave st.tile (u st.bytes 0x18 8 + 4 * c.n + 4 * m) (leBytes 4 n) with
      | (0, s) => s
      | (_, s) => s.failHere g seq 11
    | none => s
  | none => s

/-- The counts of ALL_TO_ALL_V go to one member: one packet for 64 destinations. -/
def State.sendCountsTo (s : State) (c : GrpCfg) (g seq : Nat) (counts : List Nat) (m : Nat) : State :=
  (List.range (ceilDiv c.n 64)).foldl (fun s b =>
    s.toMember c g seq m { kind := 6, service := 2, sub := 2, value := 64 * b,
                           data := ((counts.drop (64 * b)).take 64).flatMap fun x => leBytes 4 x }) s

/-- The first part of ALL_TO_ALL_V: counts held before the SEND are written, and the own counts go to every member. -/
def State.a2aCounts (s : State) (g seq : Nat) : State :=
  match s.grpCfg g, s.inst g seq with
  | some c, some i => match i.startOf 1 with
    | none => s
    | some st => match s.sendCounts c i st with
      | (none, s) => s.failHere g seq 11
      | (some counts, s) =>
        let s := i.counts.foldl (fun s (x : Nat × List Nat) => s.a2aCount c g seq x.1 (x.2.headD 0)) s
        let s := s.a2aCount c g seq c.my (counts.getD c.my 0)
        ((List.range c.n).filter (· != c.my)).foldl (fun s m => s.sendCountsTo c g seq counts m) s
  | _, _ => s

/-! ## Starts (R230, R234) -/

/-- A start that cannot take part (R234, R235, R238): its record and its tally. -/
def State.startFails (s : State) (c : GrpCfg) (g seq status named : Nat) (i : Inst) (st : Start) : State :=
  let s := s.writeRecords (s.colRecord c g seq i status named 0 0) [st]
  let s := (s.startsFail [st]).cryHears i status st
  let s := (if status = 3 || status = 6 then s.sat (blkR 5 0x070) 0 32 1 else s).progress 5
  if status = 3 then s.colFlag 3 c g seq 3 c.my else s

/-- A start joins its instance: its expect entry, its tally where nothing is to be pulled, and what the operation does at once. An instance that a
packet of a tree or of an all-to-all made takes the format from its start, since no head carries it. [DEDUCED, log entry 83] -/
def State.joinInst (s : State) (c : GrpCfg) (g seq : Nat) (st : Start) : State :=
  let s := s.modInst g seq fun i => { i with starts := i.starts ++ [st], aux := u st.bytes 0x28 4,
                                             fmt := if i.op = 5 || i.op = 6 || i.op = 7 then u st.bytes 6 1 else i.fmt }
  let s := s.progress 5
  match s.inst g seq with
  | none => s
  | some i =>
    let s := if st.kind = 3 then s.opDone st.tile st.tally else s
    let s := if st.kind = 2 then
        (let n := (expectOf c i.op i.fmt st).2
         if n = 0 then s
         else s.modTile st.tile fun x => { x with expects := x.expects ++ [{ group := g, seq := seq, desc := 0, bytes := st.bytes, left := n, tally := st.tally }] })
      else s
    match i.op with
    | 5 =>
      if st.kind = 1 then
        match s.fencedMembers c with
        | (none, s) => (s.flag 5 1 { ctx := some c.ctx, detail := lastFail g seq 11 c.my }).failHere g seq 11
        | (some ms, s) =>
          let s := (s.modInst g seq fun i => { i with fenced := ms }).broadcast g seq
          if (s.inst g seq).isSome then s.opDone st.tile st.tally else s
      else s
    | 6 => (s.a2aMove g seq).a2aOwn g seq
    | 7 => (if st.kind = 1 then s.a2aCounts g seq else s).a2aMove g seq
    | _ => if st.kind = 1 && i.toPull c (colChunks i.op i.fmt st.count) = 0 then s.opDone st.tile st.tally else s

/-- The sequence number of a start, and the group's counter after it (R230). [DEDUCED, log entry 60] -/
def State.startSeq (s : State) (g kind : Nat) (d : List Byte) : Nat × State :=
  if bitOf (u d 7 1) 0 then
    let a := (s.grp g).auto
    (a, if kind = 2 then s else s.modGrp g fun x => { x with auto := (x.auto + 1) % 65536 })
  else (u d 2 2, s)

/-- A start that meets an engine at S3 or in reset, or no group, fails at once (R336); a crystallizer hears of it. [DESIGN CHOICE, log entry 95] -/
def State.startLost (s : State) (st : Start) : State :=
  (s.startsFail [st]).cryHears { op := u st.bytes 4 1, operator := 255, fmt := u st.bytes 6 1 } 6 st

/-- A start (R230, R234). -/
def State.startColl (s : State) (st : Start) : State :=
  let g := u st.bytes 0 2 % 16384
  match s.grpCfg g with
  | none => s.startLost st
  | some c =>
    if !s.ok 5 || c.treeOnly then s.startLost st
    else
      let (seq, s) := s.startSeq g st.kind st.bytes
      let i := instOfStart c st.bytes
      let (inj, s) := s.takeInject 5 3
      if inj then s.startFails c g seq 3 c.my i st
      else match s.win g seq with
        | .live => s.joinInst c g seq st
        | .fresh => match s.openInst c g seq i with
          | (0, s) => s.joinInst c g seq st
          | (r, s) => s.startFails c g seq r (if r = 6 then (s.grp g).failed.getD c.my else c.my) i st
        | _ => s.startFails c g seq 3 c.my i st

/-- SEND, EXPECT or JOIN of a program (R62, R63). An EXPECT beyond 64 entries sends the spindle to ERROR. -/
def State.fabIssue (s : State) (t kind desc tally : Nat) : State :=
  let bytes := match s.prog t with | some p => progFab p desc | none => []
  let st : Start := { tile := t, kind := kind, bytes := bytes, tally := tally }
  if kind = 2 then
    let (inj, s) := s.takeInject (spnBlk t) 3
    let full := decide (64 ≤ (s.tile t).expects.length)
    if full || inj then s.spnError t 3 2 tally (inj && !full) else s.startColl st
  else s.startColl st

/-! ## Local chunks (R232, R252, R303) -/

/-- The bytes that a tile contributes to chunk k. [DEDUCED, log entry 64] -/
def State.contribution (s : State) (i : Inst) (k t : Nat) : Option (List Byte) × State :=
  match i.starts.find? fun st => st.tile == t && (st.kind == 1 || (i.op == 8 && st.kind == 3)) with
  | none => (none, s)
  | some st =>
    if st.cry.isSome then (some st.data, s)
    else if !s.ok (tileBlk t) then (none, s)
    else s.tileLoad t (u st.bytes 0x10 8 + 4096 * k) (colBytes i.op i.fmt st.count k)

/-- The bytes that some tiles contribute, in the order given; none where one cannot be read. -/
def State.contributions (s : State) (i : Inst) (k : Nat) : List Nat → Option (List (List Byte)) × State
  | [] => (some [], s)
  | t :: ts => match s.contribution i k t with
    | (none, s) => (none, s)
    | (some bs, s) => match s.contributions i k ts with
      | (some r, s) => (some (((bs ++ List.replicate 4096 0).take 4096) :: r), s)
      | (none, s) => (none, s)

/-- The order in which the chunks of several tiles are combined (R303). -/
def combineOrder (det : Bool) (order tiles : List Nat) : List Nat :=
  if det then tiles else (order.filter fun t => tiles.contains t).eraseDups ++ tiles.filter fun t => !order.contains t

/-- The local contribution of one half under a wide operator: its codes, whether an element overflows, and what R252 counts. -/
def wideLocal (i : Inst) (half : Nat) (mark : Bool) (chunks : List (List Byte)) : List Nat × Bool × Nat × Nat :=
  let part := fun (bs : List Byte) =>
    let cs := ((chunkCodes i.fmt bs).drop (1024 * half)).take 1024
    (if mark then cs.set 1023 0x3F800000 else cs).map (enter (i.operator == 4) i.wbase i.fmt)
  let es := chunks.map part
  let zero : List (Nat × Bool) := List.replicate 1024 (0, false)
  let sum := es.foldl (fun acc xs => List.zipWith (fun (a : Nat × Bool) (x : Entered) =>
    let r := wAdd a.1 x.code; (r.1, a.2 || r.2 || x.big)) acc xs) zero
  let all := es.flatMap fun xs => xs
  (sum.map fun x => x.1, sum.any fun x => x.2, (all.filter fun x => x.trunc).length, (all.filter fun x => x.nan).length)

/-- The local contribution under another operator. -/
def plainLocal (i : Inst) (chunks : List (List Byte)) : List Nat :=
  match chunks.map (chunkCodes i.fmt) with
  | [] => []
  | x :: xs => xs.foldl (fun a b => List.zipWith (colCombine i.operator i.fmt) a b) x

/-- A pulled contribution enters a slot: what R252 counts, and the waiting member (R236). -/
def State.enterLocal (s : State) (c : GrpCfg) (g seq n : Nat) (i : Inst) (chunks : List (List Byte)) : State :=
  let y := i.slots.getD n {}
  let (_, h, _) := y.key.getD (0, 0, false)
  let begins := y.origin == c.my
  let w := min (s.sclkSince y.came) (2 ^ 32 - 1)
  let later := !begins && decide (y.slowWait < w)
  let s := s.modSlot g seq n fun y => if later then { y with slow := c.my, slowWait := w } else y
  let b := 10 + c.quad
  if i.wide then
    let (codes, big, tr, nn) := wideLocal i h (c.norm && !begins && y.aux != i.aux) chunks
    let s := (s.sat (blkR b 0x060) 0 32 tr).sat (blkR b 0x068) 0 32 nn
    s.modSlot g seq n fun y => { y with loc := some codes, big := big }
  else s.modSlot g seq n fun y => { y with loc := some (plainLocal i chunks) }

/-- One local chunk has been pulled: progress, and the SENDs' tallies at the last (R62, R232, R237). -/
def State.pulledOne (s : State) (c : GrpCfg) (g seq : Nat) (chunks : Nat) : State :=
  let s := s.modInst g seq fun i => { i with pulled := i.pulled + 1 }
  let s := s.modGrp g fun x => { x with prog := (x.prog + 1) % 65536 }
  match s.inst g seq with
  | some i => if i.pulled = i.toPull c chunks then i.starts.foldl (fun s st => if st.kind = 1 then s.opDone st.tile st.tally else s) s else s
  | none => s

/-- The place of a chunk in the order of this member's contributions: by ring step, then by chunk and half (R232). -/
def Inst.pullRank (c : GrpCfg) (i : Inst) (chunks k h : Nat) : Nat :=
  let size := max 1 (ceilDiv chunks c.n)
  let step := if i.op = 4 then 0 else (c.my + 2 * c.n - 1 - min (k / size) (c.n - 1)) % c.n
  (step * (chunks + 1) + k) * 2 + h

/-- The slots whose arrival waits for its local contribution, with the rank of their chunks. -/
def Inst.waiting (c : GrpCfg) (i : Inst) (chunks : Nat) : List (Nat × Nat) :=
  (List.range i.slots.length).filterMap fun n =>
    let y := i.slots.getD n {}
    match y.key with
    | some (k, h, false) => if y.origin != c.my && y.loc.isNone && (y.st == 2 || y.st == 4) then some (i.pullRank c chunks k h, n) else none
    | _ => none

/-- The slot to pull for: that of the first chunk, in the order of R232, whose arrival waits for its local contribution, or one for the next chunk
that begins here. [DEDUCED, log entry 59] -/
def Inst.nextPull (c : GrpCfg) (i : Inst) (chunks : Nat) : Option (Nat × Option (Nat × Nat × Bool)) :=
  match (i.waiting c chunks).foldl (fun (b : Option (Nat × Nat)) x => match b with
      | some y => if x.1 < y.1 then some x else b
      | none => some x) none with
  | some x => some (x.2, none)
  | none =>
    let hs := halvesOf i.op i.operator i.fmt
    let r := i.begins c chunks
    let k := r.1 + i.began / hs
    if r.2 ≤ k || (2 ≤ c.n && i.credits c = 0) then none
    else (i.slotFor (k, i.began % hs, i.op == 3)).map fun n => (n, some (k, i.began % hs, i.op == 3))

/-- What the engine and the package link met at a pull (Tables 10-9 and 15-10): whether the chunk comes. It needs the package link of every tile
that contributes (R12). [DEDUCED, log entry 66] -/
def State.pullEvent (s : State) (c : GrpCfg) (g seq : Nat) (tiles : List Nat) (ev : PanEv) : Bool × State :=
  let t := tiles.headD 0
  let s := (s.detect 5 0 (ev == .groupCe) { ctx := some c.ctx }).2
  let (ge, s) := s.detect 5 1 (ev == .groupUe) { ctx := some c.ctx, detail := lastFail g seq 11 c.my }
  if ge then (false, s.failHere g seq 11)
  else
    let s := (s.detect (tileBlk t) 3 (ev == .linkCe) { ctx := some c.ctx }).2
    let (lue, s) := s.detect (tileBlk t) 4 (ev == .linkUe) { ctx := some c.ctx }
    (!lue && tiles.all fun t => (s.tile t).linkUp, s)

/-- CHUNK_PULL (R232). [DEDUCED, log entry 59] -/
def State.chunkPull (s : State) (g seq : Nat) (order : List Nat) (ev : PanEv) : State :=
  match s.grpCfg g, s.inst g seq with
  | some c, some i =>
    let chunks := i.chunks
    let ring := !(i.op == 5 || i.op == 6 || i.op == 7)
    if !s.ok 5 || !s.ok (10 + c.quad) || !ring || !s.contributed c g i then s
    else match i.nextPull c chunks with
      | none => s
      | some (n, new) =>
        let tiles := s.contributors c g i
        match s.pullEvent c g seq tiles ev with
        | (false, s) => s
        | (true, s) =>
          let s := match new with
            | some key => (s.modSlot g seq n fun y => { y with st := 2, key := some key, origin := c.my, came := s.cclk, slow := c.my }).modInst g seq
                fun i => { i with began := i.began + 1 }
            | none => s
          match s.inst g seq with
          | none => s
          | some i =>
            let (k, _, gather) := ((i.slots.getD n {}).key).getD (0, 0, false)
            match s.contributions i k (combineOrder s.deterministic order tiles) with
            | (none, s) => s.failHere g seq 11
            | (some bs, s) =>
              if gather then
                let data := bs.headD []
                let out := [chunkSeal { s.headOf c g seq i (i.slots.getD n {}) true with confirmed := true, data := data }]
                let s := s.modSlot g seq n fun y => { y with st := 4, done := true, formed := true, result := some data, out := out }
                let s := if c.n < 2 then s.modSlot g seq n fun y => { y with dataOk := true } else s.sendOut c g seq n out
                (s.pulledOne c g seq chunks).releaseSlot g seq n
              else
                let s := (s.enterLocal c g seq n i bs).pulledOne c g seq chunks
                match s.panEvent c g seq n ev with
                | (true, s) => s.pump g seq n
                | (false, s) => s
  | _, _ => s

/-! ## Results (R63, R242) -/

/-- The chunks that an endpoint may write, with the slots that hold them. -/
def Inst.deliverable (i : Inst) (t : Nat) : Option (Nat × List Byte × List Nat) :=
  let cand := (List.range i.slots.length).filterMap fun n =>
    let y := i.slots.getD n {}
    match y.key, y.result with
    | some (k, 0, gather), some bs =>
      if y.writtenBy.contains t then none
      else if gather then some (k, bs, [n])
      else match i.wholeResult k with
        | some all => some (k, all, [n] ++ (match i.slotOf (k, 1, false) with | some m => [m] | none => []))
        | none => none
    | _, _ => none
  cand.head?

/-- EXPECT_CHUNK_WRITTEN (R63, R261): one deliverable chunk goes to a tile's EXPECT, or to a crystallizer's norm buffer. -/
def State.chunkWritten (s : State) (t g seq : Nat) : State :=
  match s.grpCfg g, s.inst g seq with
  | some c, some i =>
    match (s.tile t).expects.find? fun e => e.group == g && e.seq == seq with
    | none => s
    | some e =>
      match (if (s.tile t).linkUp then i.deliverable t else none) with
      | none => s
      | some (k, bs, slots) =>
        let st := i.starts.find? fun st => st.tile == t && st.kind == 2
        let cry := st.bind fun st => if i.op = 1 then st.cry else none
        let count := u e.bytes 0x0C 4
        let (r, s) := match cry with
          | some gi =>
            let x := fun n => u bs (4 * n) 4
            (0, s.cryLands t gi (0, x 0, x 1, x 2, x 1023))
          | none =>
            let first := (expectOf c i.op i.fmt { tile := t, kind := 2, bytes := e.bytes, tally := 255 }).1
            s.tileSave t (u e.bytes 0x10 8 + (k - first) * 4096) (bs.take (colBytes i.op i.fmt count k))
        if r ≠ 0 then s.failHere g seq 11
        else
          let s := slots.foldl (fun s n => s.modSlot g seq n fun y => { y with writtenBy := t :: y.writtenBy }) s
          let s := s.modInst g seq fun i => { i with delivered := i.delivered + 1 }
          slots.foldl (fun s n => s.releaseSlot g seq n) (s.expectOne t g seq)
  | _, _ => s

/-- INSTANCE_COMPLETE (R242). -/
def State.instComplete (s : State) (g seq : Nat) : State :=
  match s.grpCfg g, s.inst g seq with
  | some c, some i =>
    let chunks := i.chunks
    match i.op with
    | 5 =>
      if c.root = c.my then
        let open_ := (List.range c.n).filter fun m => m != c.my && !i.fenced.contains m && !i.answered.contains m
        if (i.startOf 1).isNone || !open_.isEmpty then s
        else match i.fenced with
          | [] => s.doneInst g seq 0 (i.slow.getD c.my) i.slowWait 0
          | m :: _ => s.doneInst g seq 1 m i.slowWait i.fenced.length
      else if (i.startOf 3).isSome && s.received c g seq i && chunks ≤ i.delivered then s.doneInst g seq 0 (i.slow.getD c.my) i.slowWait 0 else s
    | 6 => if i.moved && s.received c g seq i && c.n - 1 ≤ i.dstDone.length then s.doneInst g seq 0 (i.slow.getD c.my) i.slowWait i.dropped else s
    | 7 => if i.moved && s.received c g seq i && c.n - 1 ≤ i.dstDone.length then s.doneInst g seq 0 (i.slow.getD c.my) i.slowWait 0 else s
    | _ => if s.contributed c g i && s.received c g seq i && i.toFree c chunks ≤ i.freed then s.doneInst g seq 0 (i.slow.getD c.my) i.slowWait 0 else s
  | _, _ => s

/-! ## Credits, time and failure -/

/-- CREDIT (R234): slots that wait for a credit send as far as it reaches. -/
def State.creditPkt (s : State) (c : GrpCfg) (k : Pkt) : State :=
  let s := s.modInst k.group k.gseq fun i => { i with credit := max i.credit k.value }
  match s.inst k.group k.gseq with
  | some i => (List.range i.slots.length).foldl (fun s n =>
      if (s.slot k.group k.gseq n).wait.isEmpty then s else s.sendOut c k.group k.gseq n []) s
  | none => s

/-- CREDIT_REPEAT (R234). -/
def State.creditRepeat (s : State) (g seq : Nat) : State :=
  match s.inst g seq with
  | some i => if i.emptySlot.isSome then s.sendCredit g seq else s
  | none => s

/-- COLL_TIMEOUT (R237): the base instance fails, naming this member where a local start or pull is missing, else the predecessor. Where the group
holds pending instances only, the base sequence fails for want of a local start. [DESIGN CHOICE, log entry 3] -/
def State.collTimeout (s : State) (g : Nat) (inj : Bool := false) : State :=
  let seq := (s.grp g).base
  match s.grpCfg g, s.inst g seq with
  | some c, some i =>
    let chunks := i.chunks
    let ring := !(i.op == 5 || i.op == 6 || i.op == 7)
    let here := s.startsMissing c g i || (ring && (i.nextPull c chunks).isSome)
    let named := if here || c.n < 2 then c.my else c.pred
    (s.colFlag 4 c g seq 4 named inj).failInst g seq 4 named
  | some c, none =>
    if (s.instsOf (· == g)).isEmpty then s
    else
      let s := s.colFlag 4 c g seq 4 c.my inj
      if s.closing c.ctx then s else (s.modGrp g fun x => x.end_ seq).createFails c g seq 4
  | _, _ => s

/-- ABORT (R238). -/
def State.abortPkt (s : State) (c : GrpCfg) (k : Pkt) : State :=
  let s := match s.inst k.group k.gseq with
    | some _ => s.failInst k.group k.gseq 5 k.value
    | none => s.groupFails c k.group k.gseq 5 k.value
  if c.succ = k.value then s else s.sendAbort c k.group k.gseq k.stat k.value

/-- The resends that COL_CFG allows. -/
def State.resendMax (s : State) : Nat := (s.rg (blkR 5 0x040)).fld 32 4

/-- BROADCAST_RTO (R240). -/
def State.broadcastRto (s : State) (g seq : Nat) : State :=
  match s.grpCfg g, s.inst g seq with
  | some c, some i =>
    let open_ := (List.range c.n).filter fun m => m != c.my && !i.fenced.contains m && !i.answered.contains m
    if i.op ≠ 5 || c.root ≠ c.my || (i.startOf 1).isNone then s
    else match open_ with
      | [] => s
      | m :: _ =>
        if i.resends < s.resendMax then
          ((s.sat (blkR 5 0x080) 0 32 1).modInst g seq fun i => { i with resends := i.resends + 1 }).broadcast g seq
        else (s.colFlag 4 c g seq 4 m).failInst g seq 4 m
  | _, _ => s

/-- A2A_RTO (R241): the data, or counts still waited for, go to one destination again. -/
def State.a2aRto (s : State) (g seq m : Nat) : State :=
  match s.grpCfg g, s.inst g seq with
  | some c, some i =>
    match i.startOf 1 with
    | none => s
    | some st =>
      if !(i.op == 6 || i.op == 7) || c.n ≤ m || m = c.my || i.dstDone.contains m then s
      else if i.dstTries.get 0 m < s.resendMax then
        let s := (s.sat (blkR 5 0x080) 0 32 1).modInst g seq fun i => { i with dstTries := i.dstTries.set m (i.dstTries.get 0 m + 1) }
        match s.sendCounts c i st with
        | (none, s) => s.failHere g seq 11
        | (some counts, s) =>
          let s := if i.op = 7 then s.sendCountsTo c g seq counts m else s
          if i.moved then
            match s.a2aSend c g seq i st counts m with
            | (0, s) => s
            | (r, s) => s.failHere g seq r
          else s
      else (s.colFlag 4 c g seq 4 m).failInst g seq 4 m
  | _, _ => s

/-! ## Arrival of packets for the engine -/

/-- A late packet (Table 13-2). -/
def State.latePkt (s : State) (c : GrpCfg) (k : Pkt) : State :=
  if k.kind = 5 then
    (s.sat (devR 0x120) 0 32 1).treeDone c k.group k.gseq ((s.grp k.group).bcast.get 0 (k.harvest * 65536 + k.gseq)) k.harvest
  else match k.sub with
    | 6 => s.lateAccept k.group k.gseq k.part k.value k.half false k.harvest
    | 0 =>
      let s := s.sat (devR 0x120) 0 32 1
      match s.memberChip c k.srcMember with
      | (some chip, s) =>
        let a := s.colPkt c k.group k.gseq { kind := 6, service := 2, sub := 1 }
        s.send { a with dst := chip, dstMember := k.srcMember, harvest := k.harvest }
      | (none, s) => s.flag 5 1 { ctx := some c.ctx, detail := lastFail k.group k.gseq 11 c.my }
    | _ => s.sat (devR 0x118) 0 32 1

/-- The arrivals that make an instance where none exists (R234). -/
def makesInst (k : Pkt) : Option Inst :=
  if k.kind = 5 then some { op := 5, operator := 255, fmt := 7 }
  else match k.sub with
    | 0 => some { op := 6, operator := 255, fmt := 7 }
    | 2 => some { op := 7, operator := 255, fmt := 7 }
    | _ => none

/-- What a packet does in its instance. -/
def State.engineTake (s : State) (c : GrpCfg) (k : Pkt) (i : Inst) : State :=
  if k.kind = 5 then s.treeTake c k i
  else match k.sub with
    | 0 =>
      if (i.startOf 2).isNone || !i.moved && i.op = 7 then s
      else
        let total := if i.op = 7 then (i.counts.get [] k.srcMember).headD 0 else k.total
        let s := s.a2aTake c k.group k.gseq k.srcMember k.value total k.data
        match s.inst k.group k.gseq with
        | some i => if i.srcDone.contains k.srcMember then
            s.toMember c k.group k.gseq k.srcMember { kind := 6, service := 2, sub := 1, value := total } else s
        | none => s
    | 1 => s.modInst k.group k.gseq fun i => { i with dstDone := if i.dstDone.contains k.srcMember then i.dstDone else k.srcMember :: i.dstDone,
                                                       staged := i.staged.drop (· == k.srcMember) }
    | 2 =>
      if k.value ≤ c.my && c.my < k.value + k.data.length / 4 && (i.counts.find k.srcMember).isNone then
        (s.a2aCount c k.group k.gseq k.srcMember (u k.data (4 * (c.my - k.value)) 4)).a2aMove k.group k.gseq
      else s
    | 3 => s.creditPkt c k
    | 4 => s.abortPkt c k
    | 5 => s.modInst k.group k.gseq fun i => { i with answered := if i.answered.contains k.srcMember then i.answered else k.srcMember :: i.answered }
    | 6 => s.confirmPkt c k
    | 7 => s.retractPkt c k
    | 8 => s.resendPkt c k
    | 9 => s.acceptPkt c k
    | _ => s

/-- A packet whose sequence number has no instance here: it is counted, and answered where Table 13-2 and R300 or R240 say so. [DEDUCED, log entry 83] -/
def State.engineMiss (s : State) (c : GrpCfg) (k : Pkt) (inWindow : Bool) : State :=
  let pan := k.kind = 6 && 6 ≤ k.sub
  let s := if pan && inWindow then s.panStale c else s.sat (blkR 5 0x070) 0 32 1
  if k.kind = 6 && k.sub = 6 then s.lateAccept k.group k.gseq k.part k.value k.half false k.harvest else s

/-- Local delivery to the collective engine (R214, R297 to R300, R234). -/
def State.engine (s : State) (k : Pkt) : State :=
  match s.grpCfg k.group with
  | none => s
  | some c =>
    if c.treeOnly || !s.ok 5 then s
    else if s.stale k.ctx k.gen then s.countStale
    else match harvestOrder k.harvest (s.ctx k.ctx).harvest with
      | 1 => s.countEarly
      | 2 => s.latePkt c k
      | _ =>
        let s := s.progress 5
        match s.win k.group k.gseq, s.inst k.group k.gseq with
        | .live, some i => s.engineTake c k i
        | .fresh, _ =>
          if k.kind = 6 && k.sub = 4 then
            (if (s.grp k.group).failed.isSome then s.sat (blkR 5 0x070) 0 32 1 else s.abortPkt c k)
          else match makesInst k with
            | none => s.engineMiss c k true
            | some i => match s.openInst c k.group k.gseq i with
              | (0, s) => match s.inst k.group k.gseq with
                | some i => s.engineTake c k i
                | none => s
              | (6, s) => s.engineMiss c k false
              | (_, s) => s
        | .past, _ =>
          let s := s.engineMiss c k false
          let h := (s.ctx c.ctx).harvest
          match (s.grp k.group).bcast.find (h * 65536 + k.gseq) with
          | some n => if k.kind = 5 then s.treeDone c k.group k.gseq n h else s
          | none => s
        | _, _ => s.engineMiss c k false

/-- A tree packet at this chip (R181, R240): copies down and up the tree, then local delivery. -/
def State.treeHead (s : State) (p : Option Nat) (k : Pkt) : State :=
  match s.grpCfg k.group with
  | none => s.sat (blkR 3 0x0E8) 0 32 1
  | some c =>
    if !s.coreOk || !c.tree then s.sat (blkR 3 0x0E8) 0 32 1
    else
      let (_, s) := s.treeOut c p k
      if c.deliver && !c.treeOnly then
        (if pktOk k then s.fwd.engine k else s.sat (blkR 3 0x0C0) 0 32 1)
      else s

/-! ## Harvest and teardown (R244, R295) -/

/-- The groups of a context. -/
def State.ctxGroups (s : State) (c : Nat) : List (Nat × GrpCfg) :=
  let es := (s.entries 0x03 noInst).map grpOf
  ((List.range es.length).zip es).filter fun x => x.2.ctx == c && !x.2.treeOnly

/-- Collective state returns to its initial form (R244), as it is at context open too (R230, R234). What the broadcasts of the step that ends
received is kept for late packets (R300) where `late` says so. -/
def State.resetGroups (s : State) (c : Nat) (late : Bool := true) : State :=
  let gs := (s.ctxGroups c).map fun x => x.1
  let mine := fun (g : Nat) => match s.grpCfg g with | some x => x.ctx == c | none => false
  let keep := fun (x : Grp) => x.bcast.filter fun b => late && b.1 / 65536 == (s.ctx c).harvest
  { s with insts := s.insts.drop (fun k => gs.contains (k / 65536)),
           grps := s.grps.map fun (x : Nat × Grp) => (x.1, if mine x.1 then { prog := x.2.prog, bcast := keep x.2 } else x.2) }

/-- Teardown stage 4: every instance of the context fails with CTX_CLOSED, and its expect entries go (R244). -/
def State.closeGroups (s : State) (c : Nat) : State :=
  let gs := (s.ctxGroups c).map fun x => x.1
  (s.instsOf fun g => gs.contains g).foldl (fun s (x : Nat × Inst) => s.failHere (x.1 / 65536) (x.1 % 65536) 7) s

/-- The crystallizer groups of a context (R294). -/
def State.cryGroups (s : State) (c : Nat) : List Nat :=
  let mcast := (List.range 8).flatMap fun t => (s.entries 0x09 t).map fun e => u e 6 2
  ((s.ctxGroups c).filter fun x => x.2.norm || mcast.contains x.1).map fun x => x.1

/-- No instance of a group in the list is held. -/
def State.noInsts (s : State) (gs : List Nat) : Bool := (s.instsOf fun g => gs.contains g).isEmpty

end Sys2Proof.Machine
end

