-- ==== Sys2Proof/Machine/Cry.lean ====
section
/-!
DEFINITION. The crystallizer (chapter 12): the update rule (R273), the scalar path (R274, R278), the norm pass and its collective (R279 to
R282), the update pass (R283 to R285), multicast (R286), the order of groups (R287, R288) and the step counters (R289).
-/
namespace Sys2Proof.Machine

/-! ## Entries (Table 12-1) -/

/-- A CRY_GROUPS entry. -/
structure CryEntry where
  replica : Bool
  frozen : Bool
  trust : Bool
  mom16 : Bool
  grad16 : Bool
  nanOver : Bool
  fwd : Nat
  size : Nat
  sched : Nat
  norm : Nat
  mcast : Nat
  n : Nat
  t0 : Nat
  beta1 : Fp
  beta2 : Fp
  eps : Fp
  lambda : Fp
  trustMax : Fp
  gScale : Fp
  state : Nat
  gAddr : Nat
  fwdAddr : Nat
  deriving DecidableEq, Repr

/-- The fields of an entry. -/
def cryEntryOf (e : List Byte) : CryEntry :=
  let f := fun off => fp32.decode (u e off 4)
  { replica := u e 0 1 == 1, frozen := bitOf (u e 1 1) 0, trust := bitOf (u e 1 1) 1, mom16 := bitOf (u e 1 1) 2,
    grad16 := bitOf (u e 1 1) 3, nanOver := bitOf (u e 1 1) 4, fwd := fld (u e 2 1) 4 4, size := fld (u e 2 1) 0 3, sched := u e 3 1,
    norm := u e 4 2, mcast := u e 6 2, n := u e 8 4, t0 := u e 0xC 4, beta1 := f 0x10, beta2 := f 0x14, eps := f 0x18,
    lambda := f 0x1C, trustMax := f 0x20, gScale := f 0x24, state := u e 0x28 8, gAddr := u e 0x30 8, fwdAddr := u e 0x38 8 }

/-- The entries of a tile. -/
def State.cryEntries (s : State) (t : Nat) : List CryEntry := (s.entries 0x09 t).map cryEntryOf

/-- Entry g of a tile. -/
def State.cryEntry (s : State) (t g : Nat) : Option CryEntry := (s.cryEntries t)[g]?

/-- The bytes of one moment, and of one gradient element. -/
def CryEntry.momSize (e : CryEntry) : Nat := if e.mom16 then 2 else 4
/-- The bytes of one gradient element. -/
def CryEntry.gradSize (e : CryEntry) : Nat := if e.grad16 then 2 else 4
/-- Where m lies (R275). -/
def CryEntry.mAddr (e : CryEntry) : Nat := e.state + roundUp (4 * e.n) 4096
/-- Where v lies (R275). -/
def CryEntry.vAddr (e : CryEntry) : Nat := e.mAddr + roundUp (e.momSize * e.n) 4096
/-- The bytes of `n` forward codes. -/
def CryEntry.codeLen (e : CryEntry) (n : Nat) : Nat := if e.fwd = 1 then 2 * n else if e.fwd = 3 then n else ceilDiv n 2
/-- Where the scales lie (R275). -/
def CryEntry.scaleAddr (e : CryEntry) : Nat := e.fwdAddr + roundUp (e.codeLen e.n) 4096
/-- The forward span, in bytes (R275). -/
def CryEntry.span (e : CryEntry) : Nat :=
  if e.size = 0 then e.codeLen e.n else roundUp (e.codeLen e.n) 4096 + ceilDiv e.n (blockLen e.size)

/-- A step counter with its torn bit (R289). -/
def State.cryStep (s : State) (t g : Nat) : Nat × Bool :=
  match (s.cry t).steps.find g with
  | some x => x
  | none => match s.cryEntry t g with
    | some e => (e.t0, false)
    | none => (0, false)

/-- A step counter replaced. -/
def State.setCryStep (s : State) (t g : Nat) (x : Nat × Bool) : State := s.modCry t fun y => { y with steps := y.steps.set g x }

/-- CRY_STEP_g. -/
def State.cryStepReg (s : State) (t g : Nat) : W64 := let x := s.cryStep t g; putBit 32 x.2 ||| put 0 x.1

/-! ## The scalar path (R274, R278) -/

/-- Binary64 rounding. -/
def r64 (x : Fp) : Fp := fp64.rnd x

/-- β^τ by binary exponentiation from the most significant set bit down (R274). -/
def powFrom (b : Fp) (tau : Nat) : Nat → Fp → Fp
  | 0, x => x
  | k + 1, x =>
    let sq := r64 (x.mul x)
    powFrom b tau k (if bitOf tau k then r64 (sq.mul b) else sq)

/-- β^τ. -/
def betaPow (b : Fp) (tau : Nat) : Fp := powFrom b tau (Nat.log2 tau + 1) Fp.one

/-- 1 / (1 - β^τ), as FP32 (R274). -/
def cryC (b : Fp) (tau : Nat) : Fp := fp32.rnd (r64 (Fp.one.div (r64 (Fp.one.add (betaPow b tau).neg))))

/-- A binary64 result within 1 ulp of the exact value `v` (R278): the part's own code where it lies there. -/
def ulp64 (v : Fp) (code : BitVec 64) : Fp := fp64.within v (fp64.ulp v) code.toNat

/-- The part's binary64 exp, within 1 ulp (R278). [DESIGN CHOICE, log entry 13] -/
def exp64 (x : Fp) : Fp :=
  match x with
  | .nan => .nan
  | .inf neg => if neg then .zero else .inf false
  | .fin _ _ _ => ulp64 x.exp (Config.exp64 (BitVec.ofNat 64 (fp64.enc x)))

/-- The part's binary64 ln, within 1 ulp (R278). [DESIGN CHOICE, log entry 13] -/
def ln64 (x : Fp) : Fp :=
  match x with
  | .nan => .nan
  | .inf _ => .inf false
  | .fin _ m e =>
    if m = 0 then .inf true
    else if decide (Fp.lt false x .one) || decide (Fp.lt false .one x) then ulp64 (Fp.ln (.fin false m e)) (Config.ln64 (BitVec.ofNat 64 (fp64.enc x)))
    else .zero

/-- A breakpoint (Table 12-2): exponential, t, η. -/
abbrev Brk := Bool × Nat × Fp

/-- The fields of a breakpoint. -/
def brkOf (e : List Byte) : Brk := (u e 1 1 == 1, u e 4 4, fp64.decode (u e 8 8))

/-- η(τ) (R278). -/
def eta (tau : Nat) : List Brk → Fp
  | [] => .zero
  | [b] => b.2.2
  | a :: b :: rest =>
    if b.2.1 ≤ tau then eta tau (b :: rest)
    else
      let f := r64 ((Fp.ofNat (tau - a.2.1)).div (Fp.ofNat (b.2.1 - a.2.1)))
      if a.1 then r64 (a.2.2.mul (exp64 (r64 ((ln64 (r64 (b.2.2.div a.2.2))).mul f))))
      else r64 (a.2.2.add (r64 ((r64 (b.2.2.add a.2.2.neg)).mul f)))

/-- The breakpoints of a schedule, read from HBM by the crystallizer of tile t; none where a read fails (R127, R278). [DEDUCED, log entry 67] -/
def State.readSched (s : State) (t n : Nat) : Option (List Brk) × State :=
  let es := s.entries 0x0A noInst
  let base := match es.head? with | some e => u e 0 8 | none => 0
  let ks := (List.range (es.length - 1)).filter fun k => u (es.getD (k + 1) []) 0 1 == n
  ks.foldl (fun (x : Option (List Brk) × State) k => match x.1 with
    | none => x
    | some l => match x.2.fetch (some t) .engine (base + 16 * k) 16 with
      | ((0, bs), s) => (some (l ++ [brkOf bs]), s)
      | (_, s) => (none, s)) (some [], s)

/-- The trust ratio r (R274). [DEDUCED, log entry 67] -/
def trustRatio (e : CryEntry) (w un : Fp) : Fp :=
  if !e.trust || w.isZero || un.isZero then Fp.one
  else
    let r := r64 (r64 (w.div un)).sqrt
    if Fp.lt false e.trustMax r then e.trustMax else r

/-! ## The element path (R273) -/

/-- What the element path makes of one element: g, m1, v1 and u. -/
structure CryElem where
  g : Fp
  m1 : Fp
  v1 : Fp
  u : Fp
  deriving DecidableEq, Repr

/-- 1 - β formed in FP64 and rounded to FP32. -/
def oneMinus (b : Fp) : Fp := fp32.rnd (r64 (Fp.one.add b.neg))

/-- FP32 rounding with subnormals kept. -/
def q32 (x : Fp) : Fp := fp32.rnd x

/-- R273, up to u. -/
def cryElem (e : CryEntry) (c1 c2 gin m v w : Fp) : CryElem :=
  let g := q32 (gin.mul e.gScale)
  let a := q32 ((oneMinus e.beta1).mul g)
  let m1 := q32 ((e.beta1.mul m).add a)
  let b := q32 ((q32 ((oneMinus e.beta2).mul g)).mul g)
  let v1 := q32 ((e.beta2.mul v).add b)
  let mh := q32 (m1.mul c1)
  let vh := q32 (v1.mul c2)
  let q := q32 (mh.div (q32 ((q32 vh.sqrt).add e.eps)))
  { g := g, m1 := m1, v1 := v1, u := q32 ((e.lambda.mul w).add q) }

/-- w1 (R273). -/
def cryW1 (sc w un : Fp) : Fp := q32 ((sc.neg.mul un).add w)

/-- An element is non-finite (R273). -/
def CryElem.bad (x : CryElem) : Bool := x.g.nonFinite || x.m1.nonFinite || x.v1.nonFinite || x.u.nonFinite

/-- Lane sums with the squares of one vector added (R279). -/
def addSquares (lanes : List Nat) (xs : List Fp) : List Nat :=
  (List.range 48).map fun l => match xs[l]? with
    | some x => fp64.enc (r64 ((fp64.decode (lanes.getD l 0)).add (x.mul x)))
    | none => lanes.getD l 0

/-- One level of the tree over the lane sums; an odd member passes up (R279). -/
def pair64 : List Fp → List Fp
  | a :: b :: r => r64 (a.add b) :: pair64 r
  | [a] => [a]
  | [] => []

/-- The sum of the 48 lanes (R279). -/
def laneTotal (lanes : List Nat) : Fp :=
  (pair64 (pair64 (pair64 (pair64 (pair64 (pair64 (lanes.map fp64.decode))))))).headD .zero

/-! ## Passes -/

/-- The context of a crystallizer's reports, with their detail (Table 16-3). -/
def State.cryRpt (s : State) (t : Nat) (torn inj : Bool) : Rpt :=
  { injected := inj, ctx := some (s.tile t).ctx, detail := s.rg (blkR (cryBlk t) (if torn then 0x0B0 else 0x0A0)) }

/-- A group is skipped (Table 12-3, R288): its counter, CRY_LAST_SKIP, its detector, and its completion. -/
def State.crySkip (s : State) (t g row cnt : Nat) (det : Option Nat) : State :=
  let s := (s.sat (blkR (cryBlk t) cnt) 0 32 1).setRg (blkR (cryBlk t) 0x0A0) (put 51 g ||| put 40 row ||| put 0 (s.cryStep t g).1)
  let s := match det with | some d => s.flag (cryBlk t) d (s.cryRpt t false false) | none => s
  s.cryEntryDone t g

/-- A group's update pass stops part-way (R285). -/
def State.cryTear (s : State) (t g at_ : Nat) : State :=
  let s := s.setCryStep t g ((s.cryStep t g).1, true)
  (s.setRg (blkR (cryBlk t) 0x0B0) (put 51 g ||| put 0 at_)).sat (blkR (cryBlk t) 0x080) 0 32 1

/-- A read of the crystallizer (R12, R127, R137); its rights are not checked (R128). -/
def State.cryRead (s : State) (t a n : Nat) : Option (List Byte) × State :=
  match s.fetch (some t) .engine (addrOff a) n with
  | ((0, bs), s) => (some bs, s)
  | (_, s) => (none, s)

/-- The elements of a run of bytes, FP32 or BF16. -/
def cryVals (size k : Nat) (bs : List Byte) : List Fp :=
  (List.range k).map fun i => if size = 2 then bf16.decode (u bs (2 * i) 2) else fp32.decode (u bs (4 * i) 4)

/-- The four inputs of a vector of `k` elements from element `at_`: gradient, m, v and w. -/
def State.cryInputs (s : State) (t at_ k : Nat) (e : CryEntry) : Option (List Fp × List Fp × List Fp × List Fp) × State :=
  match s.cryRead t (e.gAddr + e.gradSize * at_) (e.gradSize * k) with
  | (none, s) => (none, s)
  | (some g, s) => match s.cryRead t (e.mAddr + e.momSize * at_) (e.momSize * k) with
    | (none, s) => (none, s)
    | (some m, s) => match s.cryRead t (e.vAddr + e.momSize * at_) (e.momSize * k) with
      | (none, s) => (none, s)
      | (some v, s) => match s.cryRead t (e.state + 4 * at_) (4 * k) with
        | (none, s) => (none, s)
        | (some w, s) => (some (cryVals e.gradSize k g, cryVals e.momSize k m, cryVals e.momSize k v, cryVals 4 k w), s)

/-- The elements of a vector through the element path. -/
def cryVec (e : CryEntry) (c1 c2 : Fp) (x : List Fp × List Fp × List Fp × List Fp) (k : Nat) : List CryElem :=
  (List.range k).map fun i => cryElem e c1 c2 (x.1.getD i .zero) (x.2.1.getD i .zero) (x.2.2.1.getD i .zero) (x.2.2.2.getD i .zero)

/-- The residue check of a vector (R285): 0 passes, 1 recomputed, 2 a second mismatch. -/
def State.cryResidue (s : State) (t mism : Nat) : Bool × State :=
  let (i0, s) := s.takeInject (cryBlk t) 0
  let (i1, s) := s.takeInject (cryBlk t) 1
  let m := if i1 then 2 else max mism (if i0 then 1 else 0)
  let s := if 1 ≤ m then (s.sat (blkR (cryBlk t) 0x098) 0 32 1).flag (cryBlk t) 0 { ctx := some (s.tile t).ctx, injected := decide (mism = 0) } else s
  (decide (2 ≤ m), s)

/-- A norm pass fails locally: its chunk carries the mark, and the pass ends (R282). [DEDUCED, log entry 67] -/
def State.cryNormBad (s : State) (t g : Nat) (e : CryEntry) (det : Nat) (inj : Bool) : State :=
  (s.modCryGrp t g fun y => { y with bad := true, at_ := e.n }).flag (cryBlk t) det (s.cryRpt t false inj)

/-- A vector of a pass as far as its results (R285): its inputs and what the element path makes of them, or the detector that failed it and
whether the failure was injected. The check of the residue follows the reads. -/
def State.cryElems (s : State) (t : Nat) (e : CryEntry) (y : CryGrp) (mism : Nat) :
    Except (Nat × Bool) (List Fp × List CryElem) × State :=
  let k := min 48 (e.n - y.at_)
  let (mf, s) := s.takeInject (cryBlk t) 2
  match s.cryInputs t y.at_ k e with
  | (none, s) => (.error (2, false), s)
  | (some x, s) =>
    if mf then (.error (2, true), s)
    else match s.cryResidue t mism with
      | (true, s) => (.error (1, decide (mism < 2)), s)
      | (false, s) => (.ok (x.2.2.2, cryVec e (fp32.decode y.c1) (fp32.decode y.c2) x k), s)

/-- One vector of a norm pass (R279). -/
def State.cryNormVec (s : State) (t g : Nat) (e : CryEntry) (y : CryGrp) (mism : Nat) : State :=
  match s.cryElems t e y mism with
  | (.error d, s) => s.cryNormBad t g e d.1 d.2
  | (.ok (w, r), s) =>
    (s.modCryGrp t g fun y => { y with at_ := y.at_ + w.length, sw := addSquares y.sw w, su := addSquares y.su (r.map fun z => z.u),
                                        bad := y.bad || r.any CryElem.bad }).progress (cryBlk t)

/-- Writes of the crystallizer in turn; true where one failed. -/
def State.cryWriteAll (s : State) (t : Nat) : List (Nat × List Byte) → Bool × State
  | [] => (false, s)
  | (a, bs) :: r => match s.put_ (some t) .engine (addrOff a) bs with
    | (0, s) => s.cryWriteAll t r
    | (_, s) => (true, s)

/-- The writes of one vector; true where one failed: then memory keeps its old contents, whatever was reported (R285: the elements from the
vector on hold old values). An answer of the CXL tier that never came is not waited for again. [DEDUCED, log entry 67] -/
def State.cryWrites (s : State) (t : Nat) (ws : List (Nat × List Byte)) : Bool × State :=
  match s.cryWriteAll t ws with
  | (false, s') => (false, s')
  | (true, s') => (true, { s' with mem := s.mem, upsets := s.upsets.filter fun x => x.2 != .late || (s'.upsets.find x.1).isSome })

/-- The forward codes and scales of the blocks that end within elements `at_` to `at_ + k - 1` (R275, R284): the writes, and what they
count. `tail` holds the new masters of the block's elements before `at_`, so no written element is read again (R283). -/
def cryForward (e : CryEntry) (at_ k : Nat) (tail w1 : List Fp) : List (Nat × List Byte) × Nat × Nat :=
  let B := if e.size = 0 then 48 else blockLen e.size
  let f := fmtOf e.fwd
  let val := fun i => (tail ++ w1).getD (i + tail.length - at_) .zero
  let js := (List.range (ceilDiv e.n B)).filter fun j => let last := min ((j + 1) * B) e.n - 1; at_ ≤ last && last < at_ + k
  let blk := fun j =>
    let xs := (List.range (min ((j + 1) * B) e.n - j * B)).map fun i => val (j * B + i)
    if e.size = 0 then encVals f e.nanOver 0 xs else encBlock f e.nanOver xs
  let one := fun j =>
    let b := blk j
    let codes := if e.fwd = 5 then packNibbles b.codes else b.codes
    let bytes := codes.flatMap fun c => leBytes (if e.fwd = 1 then 2 else 1) c
    (e.fwdAddr + e.codeLen (j * B), bytes) :: (if e.size = 0 then [] else [(e.scaleAddr + j, leBytes 1 b.scale)])
  (js.flatMap one, (js.map fun j => (blk j).flushed).foldl (· + ·) 0, (js.map fun j => (blk j).ovf).foldl (· + ·) 0)

/-- The new masters that the next vector needs for the block it goes on with. -/
def cryTail (e : CryEntry) (at_ k : Nat) (tail w1 : List Nat) : List Nat :=
  let B := if e.size = 0 then 48 else blockLen e.size
  let all := tail ++ w1
  all.drop (all.length - (at_ + k) % B)

/-- The update pass of a group stops at a vector (R285). -/
def State.cryUpdBad (s : State) (t g at_ det : Nat) (inj : Bool) : State :=
  let s := s.cryTear t g at_
  (s.flag (cryBlk t) det (s.cryRpt t true inj)).cryEntryDone t g

/-- One vector of an update pass (R283, R284). -/
def State.cryUpdVec (s : State) (t g : Nat) (e : CryEntry) (y : CryGrp) (mism : Nat) : State :=
  match s.cryElems t e y mism with
  | (.error d, s) => s.cryUpdBad t g y.at_ d.1 d.2
  | (.ok (w, r), s) =>
    let k := w.length
    let w1 := (w.zip r).map fun z => cryW1 (fp32.decode y.s) z.1 z.2.u
    let codes := w1.map fp32.enc
    let mom := fun (z : Fp) => if e.mom16 then leBytes 2 (bf16.enc z) else leBytes 4 (fp32.enc z)
    let fwd := cryForward e y.at_ k (y.tail.map fp32.decode) w1
    let ws := [(e.mAddr + e.momSize * y.at_, r.flatMap fun z => mom z.m1), (e.vAddr + e.momSize * y.at_, r.flatMap fun z => mom z.v1),
               (e.state + 4 * y.at_, codes.flatMap (leBytes 4))] ++ fwd.1
    match s.cryWrites t ws with
    | (true, s) => s.cryUpdBad t g y.at_ 2 false
    | (false, s) =>
      let s := s.modCryGrp t g fun y =>
        { y with at_ := y.at_ + k, flushed := y.flushed + fwd.2.1, ovf := y.ovf + fwd.2.2, tail := cryTail e y.at_ k y.tail codes }
      (s.wrap (blkR (cryBlk t) 0x050) 48 k).progress (cryBlk t)

/-- The group of the pass in progress: the norm pass, or the update pass (R287: one of each may run). -/
def Cry.pass (x : Cry) (upd : Bool) : Option (Nat × CryGrp) :=
  x.groups.find? fun (g : Nat × CryGrp) => g.2.st == (if upd then 4 else 0)

/-- The pass in progress, with its entry, where the crystallizer works. -/
def State.cryPass (s : State) (t : Nat) (upd : Bool) : Option (Nat × CryGrp × CryEntry) :=
  if !(s.cry t).active || !s.ok (cryBlk t) then none
  else match (s.cry t).pass upd with
    | some g => (s.cryEntry t g.1).map fun e => (g.1, g.2, e)
    | none => none

/-- CRY_VECTOR (R285): one vector of the norm pass, or of the update pass, in progress. [DESIGN CHOICE, log entry 4, DEDUCED, log entry 67] -/
def State.cryVector (s : State) (t : Nat) (upd : Bool) (mism : Nat) : State :=
  match s.cryPass t upd with
  | none => s
  | some (g, y, e) => if e.n ≤ y.at_ then s else if upd then s.cryUpdVec t g e y mism else s.cryNormVec t g e y mism

/-! ## Order (R287) -/

/-- A descriptor that the crystallizer makes for a start of its own (R280, R286). -/
def cryDesc (g op operator fmt count addr aux : Nat) : List Byte :=
  leBytes 2 g ++ leBytes 2 0 ++ leBytes 1 op ++ leBytes 1 operator ++ leBytes 1 fmt ++ leBytes 1 1 ++ leBytes 2 0 ++ leBytes 2 0 ++
  leBytes 4 count ++ leBytes 8 addr ++ leBytes 8 0 ++ leBytes 8 0 ++ leBytes 4 aux ++ List.replicate 20 0

/-- The norm chunk (R280). -/
def normChunk (w un : Fp) (bad : Bool) : List Byte :=
  leBytes 4 (fp32.enc (r64 w.sqrt)) ++ leBytes 4 (fp32.enc (r64 un.sqrt)) ++ leBytes 4 (if bad then 0x3F800000 else 0) ++ List.replicate 4084 0

/-- The group's norm collective starts: its EXPECT, then its SEND (R280). -/
def State.cryNormStart (s : State) (t g : Nat) (e : CryEntry) (chunk : List Byte) : State :=
  let d := cryDesc e.norm 1 4 0 1024 0 (s.cryStep t g).1
  let s := s.modCryGrp t g fun y => { y with st := 1 }
  let s := s.startColl { tile := t, kind := 2, bytes := d, tally := 249, cry := some g }
  s.startColl { tile := t, kind := 1, bytes := d, tally := 255, cry := some g, data := chunk }

/-- CRY_STATE follows the passes: UPDATE and its group while an update pass runs, else NORM and its group (Table 12-7). With no pass in
progress it keeps what it showed. [DESIGN CHOICE, log entry 96] -/
def Cry.show_ (x : Cry) : Cry :=
  match x.pass true, x.pass false with
  | some g, _ => { x with st := 2, cur := g.1 }
  | none, some g => { x with st := 1, cur := g.1 }
  | none, none => x

/-- The next owner group: frozen groups are passed over; a group that a failed step skips contributes the mark and reads nothing
(R287, R296). -/
def State.cryOwner (s : State) (t g : Nat) (e : CryEntry) : State :=
  let s := s.modCry t fun x => { x with nextOwner := g + 1 }
  if e.frozen then (s.sat (blkR (cryBlk t) 0x060) 0 32 1).cryEntryDone t g
  else
    let tau := (s.cryStep t g).1 + 1
    let s := s.modCryGrp t g fun _ =>
      { at_ := 0, sw := List.replicate 48 0, su := List.replicate 48 0, c1 := fp32.enc (cryC e.beta1 tau), c2 := fp32.enc (cryC e.beta2 tau) }
    if (s.cry t).skip then s.cryNormStart t g e (normChunk .zero .zero true)
    else match s.readSched t e.sched with
      | (some bs, s) => s.modCryGrp t g fun y => { y with eta := fp64.enc (eta tau bs) }
      | (none, s) => s.cryNormBad t g e 2 false

/-- The update pass that may start: the oldest group in flight that has not ended its update pass, once its norm result is decided (R287). -/
def Cry.nextUpd (x : Cry) : Option Nat :=
  match x.groups.find? fun (g : Nat × CryGrp) => g.2.st != 5 with
  | some g => if g.2.st = 3 then some g.1 else none
  | none => none

/-- The owner group whose norm pass may start: the next one, once the norm pass before it has ended and fewer than 4 groups are in flight
(R287). -/
def State.cryNextOwner (s : State) (t : Nat) : Option Nat :=
  let x := s.cry t
  let es := s.cryEntries t
  if (x.pass false).isSome || 4 ≤ x.groups.length then none
  else (List.range es.length).find? fun g => x.nextOwner ≤ g && (match es[g]? with | some e => !e.replica | none => false)

/-- One action of the crystallizer that needs no command: an update pass that may start, else the next owner group (R287). [DEDUCED, log entry 67] -/
def State.cryKickOne (s : State) (t : Nat) : State :=
  let x := s.cry t
  if !x.active || x.st = 3 || x.st = 4 then s
  else match x.nextUpd with
    | some g => s.modCryGrp t g fun y => { y with st := 4, at_ := 0 }
    | none => match s.cryNextOwner t with
      | some g => match s.cryEntry t g with
        | some e => s.cryOwner t g e
        | none => s
      | none => s

/-- Replica entries that may issue: the first on each multicast group that has not completed (R286). -/
def State.cryReplicas (s : State) (t : Nat) : State :=
  let es := s.cryEntries t
  (List.range es.length).foldl (fun s g => match es[g]? with
    | none => s
    | some e =>
      let x := s.cry t
      let blocked := (List.range g).any fun h => match es[h]? with
        | some f => f.replica && f.mcast == e.mcast && !x.done.contains h
        | none => false
      if !e.replica || x.issued.contains g || x.done.contains g || blocked then s
      else if e.frozen then s.cryEntryDone t g
      else
        let d := cryDesc e.mcast 5 255 7 e.span e.fwdAddr 0
        let s := s.modCry t fun x => { x with issued := x.issued ++ [g] }
        let s := s.startColl { tile := t, kind := 2, bytes := d, tally := 251, cry := some g }
        s.startColl { tile := t, kind := 3, bytes := d, tally := 255, cry := some g }) s

/-- Everything that the crystallizer of a tile can do without a command. [DEDUCED, log entry 67] -/
def State.cryKick (s : State) (t : Nat) : State :=
  if (s.cry t).active && (s.cry t).st != 3 && (s.cry t).st != 4 then
    let s := s.cryReplicas t
    ((List.range ((s.entries 0x09 t).length + 8)).foldl (fun s _ => s.cryKickOne t) s).modCry t Cry.show_
  else s

/-- Harvest control starts the crystallizer of a tile; one without entries is done at once (R287). -/
def State.cryStart (s : State) (t : Nat) (skip : Bool) : State :=
  let none_ := (s.entries 0x09 t).isEmpty
  let s := s.modCry t fun x => { st := if none_ then 3 else 1, active := true, skip := skip, steps := x.steps }
  s.cryKick t

/-- CRY_NORM_PASS_DONE (R280). -/
def State.cryNormDone (s : State) (t : Nat) : State :=
  match s.cryPass t false with
  | none => s
  | some (g, y, e) => if y.at_ < e.n then s else (s.cryNormStart t g e (normChunk (laneTotal y.sw) (laneTotal y.su) y.bad)).cryKick t

/-- CRY_NORM_DECIDE (R282, Table 12-3). -/
def State.cryDecide (s : State) (t g : Nat) : State :=
  let x := s.cry t
  match x.groups.find g, s.cryEntry t g with
  | some y, some e =>
    match y.res with
    | some (status, w, un, bad, skew) =>
      if !x.active || y.st ≠ 2 || !s.ok (cryBlk t) then s
      else
        let (skewed, s) := s.takeInject (cryBlk t) 3
        let (nonfin, s) := s.takeInject (cryBlk t) 5
        let (limit, s) := s.takeInject (cryBlk t) 6
        let (failed, s) := s.takeInject (cryBlk t) 4
        let tt := (s.cryStep t g).1
        let s :=
          if status ≠ 0 || failed then s.crySkip t g 1 0x078 (some 4)
          else if !(fp32.decode skew).isZero || skewed then s.crySkip t g 2 0x068 (some 3)
          else if !(fp32.decode bad).isZero || nonfin then s.crySkip t g 3 0x070 (some 5)
          else if tt = 2 ^ 32 - 1 || limit then s.crySkip t g 4 0x078 (some 6)
          else
            let r := trustRatio e (fp32.decode w) (fp32.decode un)
            s.modCryGrp t g fun y => { y with st := 3, r := fp64.enc r, s := fp32.enc (r64 ((fp64.decode y.eta).mul r)) }
        s.cryKick t
    | none => s
  | _, _ => s

/-- CRY_UPDATE_PASS_DONE (R283, R284, R286). -/
def State.cryUpdateDone (s : State) (t : Nat) : State :=
  match s.cryPass t true with
  | none => s
  | some (g, y, e) =>
    if y.at_ < e.n then s
    else
      let st := s.cryStep t g
      let s := s.setCryStep t g (st.1 + 1, st.2)
      let s := (s.wrap (blkR (cryBlk t) 0x058) 32 1).setRg (blkR (cryBlk t) 0x0A8) (BitVec.ofNat 64 y.r)
      let s := (s.sat (blkR (cryBlk t) 0x088) 0 32 y.flushed).sat (blkR (cryBlk t) 0x090) 0 32 y.ovf
      let s := s.modCryGrp t g fun y => { y with st := 5 }
      let s := if e.mcast = 0xFFFF then s.cryEntryDone t g
        else s.startColl { tile := t, kind := 1, bytes := cryDesc e.mcast 5 255 7 e.span e.fwdAddr 0, tally := 255, cry := some g }
      s.cryKick t

/-- Every group not yet completed is skipped, and an update pass in progress is torn (R288). -/
def State.crySkipAll (s : State) (t : Nat) : State :=
  if !(s.cry t).active || (s.cry t).st = 3 || (s.cry t).st = 4 then s
  else
    let s := (s.cry t).groups.foldl (fun s (g : Nat × CryGrp) => if g.2.st = 4 then s.cryTear t g.1 g.2.at_ else s) s
    (List.range (s.entries 0x09 t).length).foldl (fun s g =>
      if (s.cry t).done.contains g then s else s.crySkip t g 6 0x078 none) s

/-- The context of the tile is marked closing (R288). -/
def State.cryStop (s : State) (t : Nat) : State :=
  if !(s.cry t).active || (s.cry t).st = 3 then s.modCry t fun x => { x with active := false }
  else
    let s := (s.cry t).groups.foldl (fun s (g : Nat × CryGrp) => if g.2.st = 4 then s.cryTear t g.1 g.2.at_ else s) s
    s.modCry t fun x => { x with st := 4, active := false, groups := [] }

/-- A crystallizer that works no more skips what it has left (R288); one that works goes on. -/
def State.cryTick (s : State) (t : Nat) : State := if s.ok (cryBlk t) then s.cryKick t else s.crySkipAll t

/-- CRY_STEP_WRITE (R289); ignored while the domain is not ON (R18). [DEDUCED, log entry 67] -/
def State.cryStepWrite (s : State) (t g : Nat) (v : W64) : State :=
  let x := s.tile t
  if !s.domOn (36 + t) then s
  else if x.active && (s.ctx x.ctx).st ≠ 0 then s.flag (cryBlk t) 9
  else s.setCryStep t g (v.fld 0 32, v.bit 32)

/-- CRY_STATE (Table 12-7). -/
def State.cryState (s : State) (t : Nat) : W64 :=
  let x := s.cry t
  put 29 (min x.groups.length 4) ||| put 16 x.cur ||| put 0 x.st

end Sys2Proof.Machine
end

