-- ==== Sys2Proof/Machine/Ports.lean ====
section
/-!
DEFINITION. The fabric ports (chapter 07): the board lane table (R158), the states of Table 7-7, training and adaptation (R159, R160),
electrical idle (R161, R162), link loss (R163), and the hello exchange (R164 to R166).
-/
namespace Sys2Proof.Machine

/-- The block index of a port (R17). -/
abbrev portB (p : Nat) : Nat := 24 + p

/-- PORT_CFG of a port. -/
def State.portCfg (s : State) (p : Nat) : W64 := s.rg (blkR (portB p) 0x050)

/-- PORT_CFG.fom_min. -/
def State.fomMin (s : State) (p : Nat) : Nat := (s.portCfg p).fld 0 8

/-- PORT_CFG.fom_warn. -/
def State.fomWarn (s : State) (p : Nat) : Nat := (s.portCfg p).fld 8 8

/-- PORT_CFG.retrain_max. -/
def State.retrainMax (s : State) (p : Nat) : Nat := (s.portCfg p).fld 16 8

/-- DISC_EXPECT of a port, as the installed plan gives it (R169). -/
def State.discExpect (s : State) (p : Nat) : W64 := match s.hst.plan with | some x => x.expect.getD p 0 | none => 0

/-! ## The board lane table (R158) -/

/-- The entries of a lane table, 16 B each. -/
def laneEntries (t : List Byte) : List (List Byte) := chunksOf 16 (u t 6 2) (t.drop 32)

/-- A table that may be used: magic, version, CRC-32C, and no two entries for the same lane and path. -/
def laneTableOk (t : List Byte) : Bool :=
  let es := laneEntries t
  let keys := es.map fun e => (u e 0 2, u e 2 1)
  decide (t.take 4 = ascii "MBLT") && u t 4 2 == 1 && decide (32 + 16 * u t 6 2 ≤ t.length) &&
  u t 28 4 == crc32c ((t.drop 32).take (16 * u t 6 2)) && decide (keys.Nodup)

/-- The path in force of a port's group (R151): electrical on MB-CX96-E; else what the last commit selected, or the default path. -/
def State.pathOf (s : State) (p : Nat) : Nat :=
  if !Config.variantH then 0
  else match s.paths with
    | some m => m / 2 ^ (p / 4) % 2
    | none => (s.port p).path

/-- The lasers of a group's optical engine may emit (R394); otherwise the clamp of Table 14-9 holds them off. [DESIGN CHOICE, log entry 77] -/
def State.lasersOn (s : State) (g : Nat) : Bool :=
  s.pathOf (4 * g) == 1 && s.domOn (6 + g) && (List.range 4).any fun k => (s.port (4 * g + k)).st != 0

/-- The entry of a lane of a port in the table that Osaux holds; empty where there is none. -/
def State.laneEntry (s : State) (p l : Nat) : List Byte :=
  if laneTableOk s.hst.lane then
    ((laneEntries s.hst.lane).find? fun e => u e 0 2 == 4 * p + l && u e 2 1 == s.pathOf p).getD []
  else []

/-- A lane of a port. -/
def Port.lane (x : Port) (l : Nat) : Lane := x.lanes.get {} l

/-- The four lanes of a port, each changed. -/
def Port.mapLanes (x : Port) (f : Nat → Lane → Lane) : Port :=
  { x with lanes := (List.range 4).map fun (l : Nat) => (l, f l (x.lane l)) }

/-- The lanes of a port take their table entries, and stand at the table values. [DEDUCED, log entry 30] -/
def State.applyEntries (s : State) (p : Nat) : State :=
  s.modPort p fun x => x.mapLanes fun l y => { y with entry := s.laneEntry p l, trims := [] }

/-- A trim of a lane. -/
def Lane.trim (x : Lane) (k : Nat) : Int := x.trims.getD k 0

/-- LANE_TRIM (Table 7-11). -/
def Lane.trimReg (x : Lane) : W64 :=
  BitVec.ofNat 64 ((List.range 10).foldl (fun n k => n + (x.trim k % 32).toNat * 2 ^ (5 * k)) 0)

/-- LANE_STATE. -/
def Lane.stateReg (x : Lane) : W64 := putBit 16 x.locked ||| put 8 x.fom ||| put 0 x.st

/-- LANE_TX_BASE. -/
def Lane.txBase (x : Lane) : W64 := put 0 (u x.entry 4 6)

/-- LANE_RX_BASE. -/
def Lane.rxBase (x : Lane) : W64 := put 8 (u x.entry 11 3) ||| put 0 (u x.entry 10 1 % 32)

/-! ## States -/

/-- PORT_STATE (Table 7-9). -/
def State.portState (s : State) (p : Nat) : W64 :=
  let x := s.port p
  put 32 (x.attempts % 256) ||| put 16 x.cause ||| put 8 (u (x.lane 0).entry 3 1 % 8) ||| put 4 (s.pathOf p) ||| put 0 x.st

/-- A detector of a port reports; the detail is PORT_STATE (Table 16-3). -/
def State.portFlag (s : State) (p d : Nat) (injected : Bool := false) : State :=
  s.flag (portB p) d { injected := injected, detail := s.portState p }

/-- A port's state and cause change (R167): PORT_STATE, MSI-X, a recorder entry, a message for a change into or out of UP, and the
flits of a port that carries traffic no longer (R168, R182, R192). [DESIGN CHOICE, log entry 22, DEDUCED, log entry 30] -/
def State.portGo (s : State) (p st cause : Nat) : State :=
  let x := s.port p
  let s := s.setPort p { x with st := st, cause := cause }
  if x.st = st then s
  else
    let s := ((s.note (portB p) 2 (s.portState p)).wantVec (portB p))
    let s := if (x.st == 3) != (st == 3) then s.tell (.portState s.chip p (s.portState p)) else s
    if x.carries && !(s.port p).carries then
      ((s.modPort p fun x => { x with eiSent := false, eiStop := false, exiting := false, reeval := false }).requeue p).vcDrop p
    else s

/-- A hello evaluation starts afresh: no hellos counted, no verdicts. -/
def Port.clearEval (x : Port) : Port := { x with hellos := 0, hello := none, verdict := none, peer := none, told := false }

/-- Lanes go off, as in ABSENT and UNUSED, where only bursts are sent. [DEDUCED, log entry 30] -/
def State.lanesOff (s : State) (p : Nat) : State :=
  s.modPort p fun x => x.mapLanes fun _ y => { y with st := 0, fom := 0, locked := false }

/-- Training starts, in TRAINING or in RETRAIN, from the trims that the lanes hold; bursts are sent. [DEDUCED, log entry 30] -/
def State.portTrain (s : State) (p : Nat) (retrain : Bool) : State :=
  let s := s.portGo p (if retrain then 9 else 1) 0
  (s.modPort p fun x => (({ x with trained := false, rxSlot := none, ctls := [] }).clearEval).mapLanes
    fun _ y => { y with st := 2, locked := false }).emit (.burst p)

/-- The port goes to HELLO and its evaluation starts. -/
def State.portHello (s : State) (p : Nat) : State := (s.portGo p 2 0).modPort p Port.clearEval

/-- ABSENT or UNUSED. -/
def State.portAway (s : State) (p st cause : Nat) : State := (s.portGo p st cause).lanesOff p

/-- A port leaves OFF with its domain ON: TRAINING, or ABSENT where a lane has no table entry (Table 7-7, R158). [DEDUCED, log entry 30] -/
def State.portStart (s : State) (p : Nat) : State :=
  let x := s.port p
  let missing := (List.range 4).any fun l => (x.lane l).entry.isEmpty
  let (inj, s) := if missing then (false, s) else s.takeInject (portB p) 7
  if missing || inj then (s.portAway p 7 13).portFlag p 7 (inj && !missing) else s.portTrain p false

/-- The domain of a port's group came ON (R158, R151): from OFF the lane table applies; from RET the lanes keep their trims. -/
def State.portOn (s : State) (p : Nat) (fromOff : Bool) : State :=
  let s := if fromOff then
      (s.modPort p fun x => { x with path := if laneTableOk s.hst.lane then u s.hst.lane 16 2 / 2 ^ (p / 4) % 2 else 0 }).applyEntries p
    else s
  s.portStart p

/-- A port goes to OFF; its lanes keep their entries and trims, and it keeps its count of attempts (R163). -/
def State.portDrop (s : State) (p : Nat) : State :=
  (s.portGo p 0 0).modPort p fun x =>
    ({ x with trained := false, rxSlot := none, lostRun := 0, ctls := [], rx := [], nbr := none }.clearEval).mapLanes
      fun _ y => { y with st := 0, fom := 0, locked := false }

/-- A commit changed the path of a port's group: its lanes take the entries of the new path (R158), and a port that is not OFF trains on it (R152). [DEDUCED, log entry 30] -/
def State.portPath (s : State) (p : Nat) : State :=
  let s := s.applyEntries p
  if (s.port p).st = 0 then s else s.portStart p

/-! ## Link loss (R163) -/

/-- The neighbour that DISC_SEEN names. -/
def State.seen (s : State) (p : Nat) : Nat × Nat :=
  let v := s.rg (blkR (portB p) 0x108)
  (v.fld 0 14, v.fld 48 6)

/-- A port in UP or UP_IDLE leaves for RETRAIN, in an episode's first attempt. -/
def State.portLoss (s : State) (p : Nat) (down injected : Bool) : State :=
  let s := s.sat (blkR (portB p) 0x090) 0 16 1
  let s := s.modPort p fun x => { x with nbr := some (s.seen p), attempts := 1, lostRun := 0 }
  let s := s.portTrain p true
  if down then s.portFlag p 1 injected else s

/-- An attempt failed: the next one starts, or the port goes to ABSENT. -/
def State.portFail (s : State) (p : Nat) : State :=
  let x := s.port p
  let (inj, s) := s.takeInject (portB p) 2
  let real := decide (s.retrainMax p ≤ x.attempts)
  if real || inj then (s.portAway p 7 12).portFlag p 2 (inj && !real)
  else (s.modPort p fun x => { x with attempts := x.attempts + 1 }).portTrain p true

/-- The FOM of each lane. -/
def State.setFoms (s : State) (p : Nat) (fs : List Byte) : State :=
  s.modPort p fun x => x.mapLanes fun l y => { y with fom := (fs.getD l 0).toNat }

/-- Training is done (R160): every lane shows fom_min, and the port has locked to the codeword boundaries. [DESIGN CHOICE, log entry 6] -/
def State.trainingDone (s : State) (p : Nat) (fs : List Byte) : State :=
  let x := s.port p
  if x.st = 1 || (x.st = 9 && !x.trained) then
    let s := s.setFoms p fs
    if fs.all fun f => decide (s.fomMin p ≤ f.toNat) then
      let s := s.modPort p fun x => x.mapLanes fun _ y => { y with locked := true }
      if x.st = 1 then s.portHello p else s.modPort p fun x => { x with trained := true }.clearEval
    else s
  else s

/-- train_max passes (R163, Table 7-7). [DEDUCED, log entry 30] -/
def State.trainTimeout (s : State) (p : Nat) (signal : Bool) : State :=
  let x := s.port p
  if x.st = 1 then
    if s.hst.plan.isNone then
      (s.modPort p fun x => x.mapLanes fun _ y => { y with trims := [] }).portTrain p false
    else if (s.discExpect p).bit 63 then s.portAway p 7 (if signal then 10 else 9)
    else s.portAway p 8 0
  else if x.st = 9 && !x.trained then s.portFail p
  else s

/-- hello_timeout passes without a valid hello. -/
def State.helloTimeout (s : State) (p : Nat) : State :=
  let x := s.port p
  if x.hello.isSome then s
  else if x.st = 2 then if s.hst.plan.isSome then s.portAway p 7 11 else s
  else if x.st = 9 && x.trained then s.portFail p
  else s

/-! ## Adaptation (R159) -/

/-- A lane that holds a parameter at its limit while its FOM is low is counted and reported, at most once a second. [DESIGN CHOICE, log entry 3] -/
def State.trimLimit (s : State) (p l : Nat) : State :=
  let y := (s.port p).lane l
  let held := (List.range 10).any fun k => y.trim k == 8 || y.trim k == -8
  let due := match y.limitAt with
    | none => true
    | some t => decide (t + 400000000 ≤ s.cclk)
  let (inj, s) := s.takeInject (portB p) 5
  let real := held && decide (y.fom < s.fomWarn p) && due
  if real || inj then
    let s := s.modPort p fun x => { x with lanes := x.lanes.set l { x.lane l with limitAt := some s.cclk } }
    (s.sat (blkR (portB p) (0x228 + 0x40 * l)) 0 16 1).portFlag p 5 (inj && !real)
  else s

/-- A trim moves by one step within its limit of 8 steps. -/
def State.moveTrim (s : State) (p l k : Nat) (up : Bool) : State :=
  s.modPort p fun x =>
    let y := x.lane l
    let v := y.trim k + (if up then 1 else -1)
    if v < -8 || 8 < v then x
    else { x with lanes := x.lanes.set l { y with trims := (List.range 10).map fun j => if j = k then v else y.trim j } }

/-- A control flit waits for a free position 0, once. -/
def State.queueCtl (s : State) (p : Nat) (c : Ctl) : State :=
  s.modPort p fun x => if x.ctls.contains c then x else { x with ctls := x.ctls ++ [c] }

/-- One adaptation step of a lane that trains or is UP: the receiver moves its own CTLE and DFE, and asks the neighbour to move a
transmit tap. -/
def State.laneAdapt (s : State) (p l k : Nat) (up : Bool) (fom : Nat) : State :=
  let x := s.port p
  if x.st = 1 || x.st = 3 || (x.st = 9 && !x.trained) then
    let s := s.modPort p fun x => { x with lanes := x.lanes.set l { x.lane l with fom := fom } }
    let s := if k < 6 then s.queueCtl p (.trim l k up) else s.moveTrim p l k up
    s.trimLimit p l
  else s

/-- A lane of an UP port stayed below fom_warn for a whole millisecond (R160). -/
def State.fomLow (s : State) (p l fom : Nat) : State :=
  if (s.port p).st = 3 then
    let s := s.modPort p fun x => { x with lanes := x.lanes.set l { x.lane l with fom := fom } }
    let (inj, s) := s.takeInject (portB p) 6
    let real := decide (fom < s.fomWarn p)
    if real || inj then s.portFlag p 6 (inj && !real) else s
  else s

/-! ## Electrical idle (R161, R162) -/

/-- A port in UP may enter electrical idle, but for idle_time: it is enabled, its wheel holds no pinned slot, nothing is queued. [DEDUCED, log entry 87] -/
def State.mayIdle (s : State) (p : Nat) : Bool :=
  let x := s.port p
  x.st == 3 && (s.rg (blkR (portB p) 0x058)).bit 0 && s.reserved p == 0 && x.occ == 0 && !x.reeval

/-- No traffic flit for idle_time. [DESIGN CHOICE, log entry 3] -/
def State.quiet (s : State) (p : Nat) : Bool :=
  decide ((s.rg (blkR (portB p) 0x058)).fld 8 24 ≤ s.sclkSince (s.port p).traffic)

/-- EI_IDLE_TIMEOUT: idle_time passed, and the port sends EI_REQ. [DEDUCED, log entry 87] -/
def State.eiRequest (s : State) (p : Nat) : State :=
  if s.mayIdle p && s.quiet p && !(s.port p).eiSent then s.queueCtl p .eiReq else s

/-- An EI_REQ, an EI_ACK or an EI_NAK arrives at a port in UP. [DEDUCED, log entry 87] -/
def State.eiHears (s : State) (p : Nat) (c : Ctl) : State :=
  let x := s.port p
  if x.st ≠ 3 then s
  else match c with
    | .eiReq =>
      if x.eiSent then s.modPort p fun x => { x with eiStop := true }
      else if s.mayIdle p && s.quiet p then s.queueCtl p .eiAck
      else (s.modPort p fun x => { x with traffic := s.cclk }).queueCtl p .eiNak
    | .eiAck => if x.eiSent then s.modPort p fun x => { x with eiStop := true } else s
    | .eiNak => s.modPort p fun x => { x with eiSent := false, traffic := s.cclk }
    | _ => s

/-- A port in UP_IDLE starts its exit: the transmitters leave idle and send a burst. [DEDUCED, log entry 87] -/
def State.eiExit (s : State) (p : Nat) : State :=
  let x := s.port p
  if x.st = 4 && !x.exiting then (s.setPort p { x with exiting := true }).emit (.burst p) else s

/-- The port stops transmitting at the end of a frame and enters UP_IDLE; a flit that was queued in the meantime starts the exit. [DEDUCED, log entry 87] -/
def State.eiEnter (s : State) (p : Nat) : State :=
  let s := s.modPort p fun x => { x.mapLanes (fun _ y => { y with st := 1 }) with eiSent := false, eiStop := false }
  let s := (s.portGo p 4 0).wrap (blkR (portB p) 0x088) 32 1
  if (s.port p).occ = 0 && !(s.port p).reeval then s else s.eiExit p

/-- The exit is complete: UP, or RETRAIN on a FOM below fom_min. -/
def State.eiDone (s : State) (p : Nat) (fs : List Byte) : State :=
  let x := s.port p
  if x.st = 4 && x.exiting then
    let s := s.setFoms p fs
    if fs.any fun f => decide (f.toNat < s.fomMin p) then s.portLoss p true false
    else
      let s := s.modPort p fun x => { x.mapLanes (fun _ y => { y with st := 2 }) with exiting := false, traffic := s.cclk }
      s.portGo p 3 0
  else s

/-! ## The hello exchange (R164 to R166) -/

/-- The hello that a port sends (Table 7-4). -/
def State.myHello (s : State) (p : Nat) : Hello :=
  { chipValid := s.hst.plan.isSome, planValid := s.hst.plan.isSome, variantH := Config.variantH, chip := s.chip, port := p,
    rack := s.pins.rack, plan := BitVec.ofNat 64 (match s.hst.plan with | some x => u x.hash 0 8 | none => 0),
    fw := match s.hst.fw with | some f => f.version | none => 0,
    lowest := match s.hst.fw with | some f => f.lowest | none => 0,
    highest := match s.hst.fw with | some f => f.highest | none => 0 }

/-- DISC_FW_WINDOW. -/
def State.fwWindow (s : State) : W64 :=
  match s.hst.fw with | some f => put 32 f.highest ||| put 0 f.lowest | none => 0

/-- The port evaluates hellos: HELLO, the HELLO part of RETRAIN, or UP while it re-evaluates. -/
def Port.evaluating (x : Port) : Bool := x.st == 2 || (x.st == 9 && x.trained) || (x.st == 3 && x.reeval)

/-- What a hello shows is taken into the DISC registers (R164). -/
def State.takeHello (s : State) (p : Nat) (h : Hello) : State :=
  let r := blkR (portB p)
  (((s.setRg (r 0x108) (putBit 63 true ||| putBit 62 h.chipValid ||| put 56 (h.rack % 64) ||| put 48 (h.port % 64) |||
      put 32 (h.part % 65536) ||| put 0 (h.chip % 16384))).setRg (r 0x110) h.plan).setRg (r 0x118) (put 0 (h.fw % 2 ^ 32))).setRg
    (r 0x120) (put 32 (h.highest % 2 ^ 32) ||| put 0 (h.lowest % 2 ^ 32))

/-- The verdict on a hello (Table 7-6); `inj3` and `inj4` make checks 3 and 4 fail (R400). -/
def State.verdictOn (s : State) (p : Nat) (h : Hello) (inj3 inj4 : Bool) : Nat :=
  let e := s.discExpect p
  let m := s.myHello p
  if h.part ≠ 0x0096 then 5
  else if !h.planValid || h.plan ≠ m.plan then 3
  else if !e.bit 63 || inj3 then 6
  else if h.chip % 16384 ≠ e.fld 0 14 || h.port ≠ e.fld 48 6 || inj4 then 1
  else if h.rack % 64 ≠ e.fld 56 6 then 4
  else if h.fw < m.lowest || m.highest < h.fw || m.fw < h.lowest || h.highest < m.fw then 2
  else 0

/-- The state that the verdicts lead to (R166, R163): state, cause and detector; none while the neighbour's verdict is awaited, or while
this port has yet to send the verdict UP that its neighbour waits for. [DEDUCED, log entry 32] -/
def State.verdictGoes (s : State) (p : Nat) : Option (Nat × Nat × Option Nat) :=
  let x := s.port p
  match x.verdict, x.peer with
  | none, _ => none
  | some 6, _ => some (6, 6, some 4)
  | some 0, none => none
  | some 0, some 0 => if x.told then some (3, 0, none) else none
  | some 0, some _ => some (5, 7, some 3)
  | some v, _ => some (5, v, some 3)

/-- The evaluation ends where the verdicts allow it. [DEDUCED, log entry 32] -/
def State.portDecide (s : State) (p : Nat) (injected : Bool) : State :=
  if !(s.port p).evaluating then s
  else match s.verdictGoes p with
    | none => s
    | some (st, cause, det) =>
      let s := (s.portGo p st cause).modPort p fun x => { x with reeval := false, traffic := s.cclk }
      match det with
      | some d => s.portFlag p d injected
      | none => s

/-- A control flit has left: a verdict that is this port's own may be what its state waits for (R166), and an EI_REQ that was sent may be
answered (R161). [DEDUCED, log entry 32] -/
def State.ctlSent (s : State) (p : Nat) (c : Ctl) : State :=
  match c, (s.port p).verdict with
  | .verdict v, some w => if v = w then (s.modPort p fun x => { x with told := true }).portDecide p false else s
  | .eiReq, _ => s.modPort p fun x => { x with eiSent := true }
  | _, _ => s

/-- A valid hello arrives (R164, R165). In RETRAIN a verdict UP on another neighbour than before the loss is NEIGHBOUR (R163). [DEDUCED, log entry 32] -/
def State.hearHello (s : State) (p : Nat) (h : Hello) : State :=
  let s := s.wrap (blkR (portB p) 0x130) 32 1
  let x := s.port p
  let n := if x.hello = some h then x.hellos + 1 else 1
  let s := s.setPort p { x with hello := some h, hellos := n }
  if n ≠ 3 then s
  else
    let s := s.takeHello p h
    if !x.evaluating || s.hst.plan.isNone then s
    else
      let (inj3, s) := s.takeInject (portB p) 4
      let (inj4, s) := s.takeInject (portB p) 3
      let v := s.verdictOn p h inj3 inj4
      let real := s.verdictOn p h false false
      let moved := x.st == 9 && (match x.nbr with | some n => n != s.seen p | none => false)
      let v' := if v = 0 && moved then 1 else v
      (s.modPort p fun x => { x with verdict := some v', told := false }).portDecide p (v != real)

/-- A verdict arrives (R166). -/
def State.hearVerdict (s : State) (p code : Nat) : State :=
  let s := s.setRg (blkR (portB p) 0x138) (putBit 8 true ||| put 0 (code % 256))
  (s.modPort p fun x => { x with peer := some code }).portDecide p false

/-- A valid control flit of a known type is processed (R157). A port that trains performs TRIM requests only. -/
def State.hearCtl (s : State) (p : Nat) (c : Ctl) : State :=
  let x := s.port p
  match c with
  | .trim l k up => if k < 6 && l < 4 then (s.moveTrim p l k up).trimLimit p l else s
  | .hello h => if x.st = 1 || (x.st = 9 && !x.trained) then s else s.hearHello p h
  | .verdict v => if x.st = 1 || (x.st = 9 && !x.trained) then s else s.hearVerdict p v
  | .eiReq => s.eiHears p .eiReq
  | .eiAck => s.eiHears p .eiAck
  | .eiNak => s.eiHears p .eiNak
  | .idle => s
  | .pinned _ _ => s

/-! ## PORT_CTRL and plan installation (R169, R170) -/

/-- The evaluation of a held port restarts: TRAINING if its lanes are off, else HELLO (Table 7-7). -/
def State.portAgain (s : State) (p : Nat) : State :=
  if ((s.port p).lane 0).st = 0 then s.portTrain p false else s.portHello p

/-- PORT_CTRL.retrain. [DEDUCED, log entry 30] -/
def State.portRetrain (s : State) (p : Nat) : State :=
  let x := s.port p
  if x.st = 0 then s
  else if x.carries then s.portLoss p false false
  else if x.st = 1 then s.portTrain p false
  else if x.st = 9 then s.portTrain p true
  else if x.st = 2 then s.modPort p Port.clearEval
  else s.portAgain p

/-- PORT_CTRL.hold_down: the lanes are active in HELD_DOWN (R168). [DEDUCED, log entry 30] -/
def State.portHold (s : State) (p : Nat) : State :=
  if (s.port p).st = 0 then s else (s.portGo p 6 8).modPort p fun x => x.mapLanes fun _ y => { y with st := 2 }

/-- PORT_CTRL.release. -/
def State.portRelease (s : State) (p : Nat) : State :=
  if (s.port p).st = 6 && (s.port p).cause = 8 then s.portHello p else s

/-- A write of PORT_CTRL (R170): more than one bit set is an ACCESS_SIZE fault. -/
def State.portCtrl (s : State) (p : Nat) (v : W64) : State :=
  match v.fld 0 3 with
  | 1 => s.portRetrain p
  | 2 => s.portHold p
  | 4 => s.portRelease p
  | 0 => s
  | _ => s.sizeFault (portB p) (blkR (portB p) 0x048)

/-- A plan has been installed: the evaluation of a port restarts (R169). -/
def State.portPlan (s : State) (p : Nat) : State :=
  let x := s.port p
  if x.st = 0 || x.st = 1 then s
  else if x.st = 9 || x.st = 2 then s.modPort p Port.clearEval
  else if x.st = 3 then s.modPort p fun x => { x with reeval := true }.clearEval
  else if x.st = 4 then (s.modPort p fun x => { x with reeval := true }.clearEval).eiExit p
  else s.portAgain p

/-! ## The group PLL (R172) -/

/-- SERDES_PLL: the four ports of a group go to OFF and report in the same cycle. -/
def State.serdesLoss (s : State) (g : Nat) (injected : Bool) : State :=
  let ps := (List.range 4).map fun k => 4 * g + k
  let s := ps.foldl State.portDrop (s.pllLoss (2 + g))
  ps.foldl (fun s p => s.portFlag p 8 injected) s

/-- Step 1 has relocked the group PLL: the ports leave OFF with the trims kept. -/
def State.serdesBack (s : State) (p : Nat) : State :=
  let s := s.pllLock (2 + p / 4)
  if (s.port p).st = 0 && s.domOn (blkDom (portB p)) then s.portStart p else s

end Sys2Proof.Machine
end

