-- ==== Sys2Proof/Machine/Contexts.lean ====
section
/-!
DEFINITION. Contexts: opening and closing (R212, R213), and the stages of teardown (R215 to R217).
-/
namespace Sys2Proof.Machine

/-- A request of CTX_CTRL has its result in CTX_RESULT (Table 9-5). -/
def State.ctxResult (s : State) (op c status : Nat) : State :=
  s.setRg (blkR 4 0x060) (put 24 status ||| put 8 c ||| put 0 op)

/-- A quiescent load that checks or commits, or a harvest load that commits, refuses an open (R45). -/
def State.loadingBars (s : State) : Bool := s.ld.state == 3 || (s.ld.state == 1 && !s.ld.atHarvest)

/-- A tile that a context cannot open on. -/
def State.tileDown (s : State) (t : Nat) : Bool := !s.domOn (20 + t) || s.inS3 (spnBlk t) || s.inReset (spnBlk t)

/-- The status of an open, by the checks of Table 9-5 in code order. -/
def State.openStatus (s : State) (c : Nat) (setGen : Option Nat) : Nat :=
  if s.inForce.isNone then 1
  else match s.ctxEntry c with
    | none => 2
    | some (_, tiles, _) =>
      if (s.ctx c).st ≠ 0 then 3
      else if s.loadingBars then 4
      else if (match setGen with
          | some g => let d := (g + 65536 - (s.ctx c).gen) % 65536; d < 1 || 32767 < d
          | none => false) then 5
      else if (tilesOf tiles).any s.tileDown then 6
      else 0

/-- A tile starts its context's program (Table 3-11). -/
def State.tileStart (s : State) (t c : Nat) : State :=
  s.modTile t fun x => { x with ctx := c, gen := (s.ctx c).gen, active := true, spn := 1, pc := 0, waitT := 0, hold := none, loops := [],
                                refill := false, tallies := [], expects := [], vu := [] }

/-- CTX_CTRL open (R212, R213): the context's collective state and its counters start afresh (R141, R230, R234). [DESIGN CHOICE, log entry 5] -/
def State.ctxOpen (s : State) (c : Nat) (setGen : Option Nat) : State :=
  if !s.up 4 then s
  else match s.openStatus c setGen, s.ctxEntry c with
    | 0, some (priv, tiles, sub) =>
      let s := s.setCtx c { st := 1, gen := setGen.getD (s.ctx c).gen, tiles := tiles, priv := priv, sub := sub }
      let s := (tilesOf tiles).foldl (fun s t => s.tileStart t c) s
      ((s.resetGroups c false).dropOrder c).ctxResult 1 c 0
    | st, _ => s.ctxResult 1 c st

/-! ## Teardown -/

/-- Stage 1 (Table 9-7): CLOSING, the generation advances, and the context's tiles stop; a harvest in progress is abandoned. -/
def State.teardown (s : State) (c cause : Nat) : State :=
  let x := s.ctx c
  let s := s.setCtx c { x with st := 2, gen := (x.gen + 1) % 65536, stage := 1, cause := cause, closedAt := s.cclk, phase := 0,
                               stepped := 0, failedInst := false, stepFailed := false, held := false, residue := false, timedOut := false }
  let s := (tilesOf x.tiles).foldl (fun s t =>
    let s := s.modTile t fun y => if y.spn = 0 then y else { y with spn := 7, hold := none }
    ((List.range 4).foldl (fun s a => s.arrClose (4 * t + a)) s).cryStop t) s
  s.dropRequests c

/-- CTX_CTRL close. -/
def State.ctxClose (s : State) (c : Nat) : State :=
  if !s.up 4 then s
  else match (s.ctx c).st with
    | 0 => s.ctxResult 2 c 7
    | 1 => (s.teardown c 1).ctxResult 2 c 0
    | _ => s.ctxResult 2 c 8

/-- Osaux tears down the context of a spindle in ERROR (R72). -/
def State.errorTeardown (s : State) (t : Nat) : State :=
  let x := s.tile t
  if x.spn = 6 && (s.ctx x.ctx).st = 1 && s.dev.osaux then s.teardown x.ctx 2 else s

/-- Every open context is torn down with cause IMAGE_LOST (R43, R337). -/
def State.imageLost (s : State) : State :=
  s.ctxs.foldl (fun s (x : Nat × Ctx) => if x.2.st = 1 then s.teardown x.1 3 else s) s

/-- The arrays of the context's tiles have reported their teardown complete. -/
def State.arraysDown (s : State) (tiles : Nat) : Bool :=
  (tilesOf tiles).all fun t => (List.range 4).all fun a => !(s.arr (4 * t + a)).tearing

/-- Stage 5: packets of the old generation, chunks in VC buffers, held bobbins, those of requests that await the CXL tier among them, and tallies
go. What a ring has begun to send of a discarded
chunk counts no more. -/
def State.discardCtx (s : State) (c : Nat) : State :=
  let x := s.ctx c
  let s := (s.purge fun k => k.ctx == c && k.gen != x.gen).dropOrder c
  let mine := fun (k : Chunk) => k.ctx == c
  let flits := s.ports.foldl (fun (n : Nat) (p : Nat × Port) =>
    n + p.2.vcs.foldl (fun (m : Nat) (v : Nat × List Chunk) =>
      m + chunkFlits * (v.2.filter mine).length - (match v.2.head?, p.2.tx.find (v.1 / 2) with
        | some k, some (vc, sent) => if mine k && vc == v.1 % 2 then sent else 0
        | _, _ => 0)) 0) 0
  let cut := fun (p : Port) =>
    { p with tx := p.tx.filter (fun (r : Nat × Nat × Nat) => match p.vcs.get [] (2 * r.1 + r.2.1) with
               | k :: _ => !mine k
               | [] => false),
             vcs := p.vcs.map fun (v : Nat × List Chunk) => (v.1, v.2.filter fun k => !mine k) }
  let staged := fun (r : CxlReq) => match r.pkt with | some k => k.ctx == c && k.gen != x.gen | none => false
  let s := { s with ports := s.ports.map fun (p : Nat × Port) => (p.1, cut p.2),
                    cxls := s.cxls.map fun (y : Nat × Cxl) => (y.1, { y.2 with reqs := y.2.reqs.filter fun r => !staged r }) }
  (tilesOf x.tiles).foldl (fun s t => s.modTile t fun y => { y with tallies := [], vu := [], expects := [], loops := [] }) (s.pinDrop flits)

/-- Stage 6: the tiles' contexts are inactive, and their spindles IDLE. -/
def State.idleTiles (s : State) (tiles : Nat) : State :=
  (tilesOf tiles).foldl (fun s t => s.modTile t fun y => { y with active := false, spn := 0 }) s

/-- The context is FREE (Table 9-6). [DESIGN CHOICE, log entry 22, DEDUCED, log entry 80] -/
def State.ctxFree (s : State) (c : Nat) : State :=
  let x := s.ctx c
  let v : W64 := put 32 (min (s.cclk - x.closedAt) (2 ^ 32 - 1)) ||| put 8 x.cause ||| put 0 c
  ((s.setCtx c { gen := x.gen }).setRg (blkR 4 0x070) v).wantVec 4 |>.note 4 4 v

/-- A context's stage replaced. -/
def State.setStage (s : State) (c n : Nat) : State := s.setCtx c { s.ctx c with stage := n }

/-- The blocks that a pending stage waits on. -/
def State.stageBlks (s : State) (c : Nat) : List Nat :=
  let x := s.ctx c
  if x.stage = 3 then (tilesOf x.tiles).flatMap fun t =>
    (if s.moversIdle t then [] else [movBlk t]) ++
    ((List.range 4).filter fun a => (s.arr (4 * t + a)).tearing).map fun a => arrBlk (4 * t + a)
  else if x.stage = 4 then [5]
  else []

/-- TEARDOWN_STAGE_ADVANCE (R215): the stage in progress is complete, and the next begins. [DESIGN CHOICE, log entry 68] -/
def State.teardownNext (s : State) (c : Nat) : State :=
  let x := s.ctx c
  if x.st ≠ 2 then s
  else match x.stage with
    | 1 => s.setStage c 2
    | 2 =>
      let s := (tilesOf x.tiles).foldl (fun s t => s.moversAbort t) (s.setStage c 3)
      if s.ok 5 then s.closeGroups c else s
    | 3 =>
      if s.arraysDown x.tiles && (tilesOf x.tiles).all fun t => s.ok (movBlk t) || s.moversIdle t then
        ((tilesOf x.tiles).foldl (fun s t => s.moversRest t) s).setStage c 4
      else s
    | 4 => if s.ok 5 then ((s.closeGroups c).setStage c 5).discardCtx c else s
    | 5 => (s.setStage c 6).idleTiles x.tiles
    | _ => s.ctxFree c

/-- TEARDOWN_TIMEOUT: the context is STUCK, and step 1 runs on the blocks that its stage waits on (Table 15-5). [DESIGN CHOICE, log entry 3] -/
def State.teardownLate (s : State) (c : Nat) (injected : Bool := false) : State :=
  if (s.ctx c).st = 2 then
    let bs := s.stageBlks c
    let s := ((s.setCtx c { s.ctx c with st := 3 }).faultNames 4 1 c).flag 4 1 { ctx := some c, injected := injected }
    bs.foldl (fun s b => s.wantStep b 0) s
  else s

/-- STUCK contexts whose blocks have completed their reset go on (Table 9-6). [DESIGN CHOICE, log entry 68] -/
def State.teardownResume (s : State) : State :=
  s.ctxs.foldl (fun s (x : Nat × Ctx) =>
    if x.2.st = 3 && !(s.stageBlks x.1).any (fun b => s.inReset b || s.newSteps.any fun n => n.1 == b) then
      s.setCtx x.1 { s.ctx x.1 with st := 2 }
    else s) s

/-- CTX_STATE_c (Table 9-9). [DEDUCED, log entry 80] -/
def State.ctxState (s : State) (c : Nat) : W64 :=
  let x := s.ctx c
  put 32 x.harvest ||| put 16 x.gen ||| put 8 x.tiles ||| putBit 7 x.priv ||| put 4 x.stage ||| put 2 x.cause ||| put 0 x.st

/-- A write of CTX_CTRL (Table 9-9). -/
def State.ctxCtrl (s : State) (v : W64) : State :=
  let c := v.fld 8 6
  match v.fld 0 2 with
  | 1 => s.ctxOpen c (if v.bit 16 then some (v.fld 32 16) else none)
  | 2 => s.ctxClose c
  | _ => s.flag 4 0

end Sys2Proof.Machine
end

