-- ==== Sys2Proof/Machine/Harvest.lean ====
section
/-!
DEFINITION. The harvest of a context (chapter 13): the step end, the phases of Table 13-1, the empty start (R295), the holds of tagged
work (R301), and the release.
-/
namespace Sys2Proof.Machine

/-- A tile reports its step end (R68): its arrays have their clear to do, and the harvest starts once every assigned tile has
reported. -/
def State.stepReport (s : State) (t : Nat) : State :=
  let c := (s.tile t).ctx
  let x := s.ctx c
  let s := (List.range 4).foldl (fun s a => s.modArr (4 * t + a) fun y => { y with empty := false }) s
  let s := s.setCtx c { x with stepped := if bitOf x.stepped t then x.stepped else x.stepped + 2 ^ t }
  if x.phase = 0 && x.st = 1 && (tilesOf x.tiles).all fun u => (s.tile u).spn == 4 then
    s.setCtx c { s.ctx c with phase := 1, timerAt := s.cclk, timedOut := false }
  else s

/-- A context that can harvest (R44): it has a tile, and none of its spindles is HALTED. -/
def State.canHarvest (s : State) (c : Nat) : Bool :=
  let ts := tilesOf (s.ctx c).tiles
  !ts.isEmpty && ts.all fun t => (s.tile t).spn != 5

/-- The drain conditions of R294. -/
def State.drained (s : State) (c : Nat) : Bool :=
  let ts := tilesOf (s.ctx c).tiles
  let cry := s.cryGroups c
  let prog := ((s.ctxGroups c).map fun x => x.1).filter fun g => !cry.contains g
  ts.all (fun t =>
    (List.range 4).all (fun a => (s.arr (4 * t + a)).empty) && s.moversIdle t && (s.tile t).expects.isEmpty &&
    s.outstanding t == 0 && !(s.tile t).vu.any fun r => r.enc.isSome) && s.noInsts prog

/-- HARVEST_DRAIN_END (R294, R296): step_failed is fixed, and the crystallizers start. -/
def State.drainEnd (s : State) (c : Nat) : State :=
  let x := s.ctx c
  if x.phase = 1 && s.drained c then
    let s := s.setCtx c { x with phase := 2, stepFailed := x.failedInst }
    let s := if x.failedInst then s.sat (devR 0x130) 0 32 1 else s
    (tilesOf x.tiles).foldl (fun s t => s.cryStart t (x.failedInst && (s.rg (devR 0x100)).bit 0)) s
  else s

/-- HARVEST_CRYSTALLIZE_END: every assigned crystallizer is done. -/
def State.crystallizeEnd (s : State) (c : Nat) : State :=
  let x := s.ctx c
  if x.phase = 2 && (tilesOf x.tiles).all fun t => (s.cry t).st == 3 then s.setCtx c { x with phase := 3 } else s

/-- A queued packet that carries a harvest number of the context (R295, R297). -/
def ofHarvest (c h : Nat) (k : Pkt) : Bool := (k.kind == 5 || k.kind == 6) && k.ctx == c && k.harvest == h

/-- What CLEAR finds left over (R295). [DESIGN CHOICE, log entry 68] -/
def State.residueOf (s : State) (c : Nat) : Bool :=
  let ts := tilesOf (s.ctx c).tiles
  ts.any (fun t => !(s.tile t).expects.isEmpty ||
    (List.range 4).any fun a => let x := s.arr (4 * t + a); !x.acc.isEmpty || x.sets.any fun w => w.2.cls.isSome) ||
  !s.noInsts ((s.ctxGroups c).map fun x => x.1) ||
  s.countPkts (fun k => ofHarvest c (s.ctx c).harvest k && k.src != s.chip) != 0

/-- A harvest load or a swap at harvest that waits holds the context now (R44, R197): the named context at the harvest named, any other
when it next completes a harvest after that one is held (`met`). DEDUCED. [DEDUCED, log entry 19] -/
def holdNow (c ctx h target : Nat) (met : Bool) : Bool := if c = ctx then h == target else met

/-- DEV_LOAD_HARVEST names a context and a harvest number. [DEDUCED, log entry 19] -/
def State.loadTarget (s : State) : Nat × Nat := let v := s.rg (devR 0x088); (v.fld 32 6, v.fld 0 32)

/-- RTE_SWAP_HARVEST names a context and a harvest number. [DEDUCED, log entry 19] -/
def State.swapTarget (s : State) : Nat × Nat := let v := s.rg (blkR 3 0x0F8); (v.fld 32 6, v.fld 0 32)

/-- A test of a block that more than one context uses (Table 15-11: every open context held). [DEDUCED, log entry 27] -/
def testAll (code : Nat) : Bool := code == 3 || code == 4

/-- A self-test tagged to a harvest that has not ended holds the context it names, or every context (R301). [DEDUCED, log entry 27] -/
def State.testHolds (s : State) (c : Nat) : Bool :=
  (s.dev.test.state == 1 || s.dev.test.state == 2 && s.dev.test.tagged) && (s.dev.test.ctx == c || testAll s.dev.test.code)

/-- The holds that a context owes at the end of CLEAR (R298, R301). [DEDUCED, log entry 19] -/
def State.owesHold (s : State) (c : Nat) : Bool :=
  let h := (s.ctx c).harvest
  (s.ld.state == 2 && holdNow c s.loadTarget.1 h s.loadTarget.2 s.ld.met) ||
    (s.swc.pend && holdNow c s.swapTarget.1 h s.swapTarget.2 s.swc.met)

/-- Context `c` is held: the first hold of a pending load or swap starts its limit, and that of the context it names is remembered. -/
def State.holdClock (s : State) (c : Nat) : State :=
  let s := if s.ld.state = 2 then
      { s with ld := { s.ld with heldAt := s.ld.heldAt.or (some s.cclk), met := s.ld.met || s.loadTarget.1 == c } }
    else s
  if s.swc.pend then s.modSwc fun x => { x with heldAt := x.heldAt.or (some s.cclk), met := x.met || s.swapTarget.1 == c } else s

/-- The release (Table 13-1): the harvest number advances, and each spindle fetches bundle 0 (R68). [DESIGN CHOICE, log entry 68] -/
def State.release (s : State) (c : Nat) : State :=
  let x := s.ctx c
  let v : W64 := put 32 (min (s.cclk - x.timerAt) (2 ^ 32 - 1)) ||| putBit 8 x.stepFailed ||| put 0 c
  let s := s.setCtx c { x with harvest := (x.harvest + 1) % 2 ^ 32, phase := 0, stepped := 0, failedInst := false, stepFailed := false,
                               timedOut := false, held := false, residue := false }
  let s := s.setRg (devR 0x138) v
  (tilesOf x.tiles).foldl (fun s t =>
    let s := s.modCry t fun y => { y with st := if y.st = 3 then 0 else y.st, active := false, issued := [], done := [] }
    s.modTile t fun y => if y.spn = 4 then { y with spn := 1, pc := 0, loops := [], tallies := [], hold := none } else y) s

/-- The actions of CLEAR (R295), and what follows: the hold, the release, or HARVEST_RESIDUE. [DESIGN CHOICE, log entry 68] -/
def State.clear (s : State) (c : Nat) : State :=
  let x := s.ctx c
  let own := fun (k : Pkt) => ofHarvest c x.harvest k && k.src == s.chip
  let left := s.residueOf c
  let n := s.countPkts own
  let s := ((s.resetGroups c).ratesReset.purge own).sat (devR 0x128) 0 32 n
  let s := (tilesOf x.tiles).foldl (fun s t => s.modTile t fun y => { y with tallies := [] }) (s.setCtx c { x with phase := 4 })
  let (bad, s) := s.detect 0 8 left { ctx := some c }
  if bad then (s.setCtx c { s.ctx c with residue := true }).faultNames 0 8 c
  else if s.owesHold c then (s.setCtx c { s.ctx c with phase := 5, held := true }).holdClock c
  else if s.testHolds c then s.setCtx c { s.ctx c with phase := 5 }
  else s.release c

/-- HARVEST_SETTLE_END (R293): the crystallizer groups' instances have ended. -/
def State.settleEnd (s : State) (c : Nat) : State :=
  if (s.ctx c).phase = 3 && s.noInsts (s.cryGroups c) then s.clear c else s

/-- HARVEST_HOLD_END (R301): every item of tagged work has finished or been refused. -/
def State.holdEnd (s : State) (c : Nat) : State :=
  let x := s.ctx c
  if x.phase = 5 && !x.held && !s.testHolds c then s.release c else s

/-- HARVEST_TIMEOUT (R293), once per harvest. [DESIGN CHOICE, log entry 3] -/
def State.harvestLate (s : State) (c : Nat) (injected : Bool := false) : State :=
  let x := s.ctx c
  if 1 ≤ x.phase && !x.timedOut then (s.setCtx c { x with timedOut := true }).flag 0 7 { ctx := some c, injected := injected } else s

/-- Every open context is held (R44). -/
def State.allHeld (s : State) : Bool := s.ctxs.all fun (x : Nat × Ctx) => x.2.st != 1 || x.2.held

/-- The held contexts are released, unless a test still holds them (R44, R301). -/
def State.releaseAll (s : State) : State :=
  s.ctxs.foldl (fun s (x : Nat × Ctx) =>
    if x.2.held then (s.setCtx x.1 { s.ctx x.1 with held := false }).holdEnd x.1 else s) s

/-- NO_HARVEST_CTX_HOLD (R44): a context that cannot harvest is held once its work has drained. [DEDUCED, log entry 19, DESIGN CHOICE, log entry 68] -/
def State.holdIdle (s : State) (c : Nat) : State :=
  let x := s.ctx c
  let ts := tilesOf x.tiles
  if x.st = 1 && !x.held && !s.canHarvest c && (s.ld.state == 2 || s.swc.pend || s.testHolds c) &&
     ts.all (fun t => s.moversIdle t && (s.tile t).expects.isEmpty) && s.noInsts ((s.ctxGroups c).map fun x => x.1) &&
     !(s.swc.reqs.any fun r => r.pkt.ctx == c) then
    (s.setCtx c { x with held := true }).holdClock c
  else s

/-- HRV_STATE_c (Table 13-5). -/
def State.hrvState (s : State) (c : Nat) : W64 :=
  let x := s.ctx c
  if x.st = 0 then 0 else put 32 x.harvest ||| put 8 x.stepped ||| putBit 4 x.stepFailed ||| put 0 x.phase

end Sys2Proof.Machine
end

