-- ==== Sys2Proof/Machine/Crypto.lean ====
section
/-!
DEFINITION. The two algorithms that the spec names without writing them out: SHA-384, and the verification of an ECDSA signature on the
curve brainpoolP384r1 (R35, R367, R371, R372). Numbers are plain and every loop is over a list.
-/
namespace Sys2Proof.Machine

/-! ## SHA-384 -/

/-- The round constants. [PRESUMED, log entry 12] -/
def shaK : List Nat :=
  [0x428A2F98D728AE22, 0x7137449123EF65CD, 0xB5C0FBCFEC4D3B2F, 0xE9B5DBA58189DBBC, 0x3956C25BF348B538,
   0x59F111F1B605D019, 0x923F82A4AF194F9B, 0xAB1C5ED5DA6D8118, 0xD807AA98A3030242, 0x12835B0145706FBE,
   0x243185BE4EE4B28C, 0x550C7DC3D5FFB4E2, 0x72BE5D74F27B896F, 0x80DEB1FE3B1696B1, 0x9BDC06A725C71235,
   0xC19BF174CF692694, 0xE49B69C19EF14AD2, 0xEFBE4786384F25E3, 0x0FC19DC68B8CD5B5, 0x240CA1CC77AC9C65] ++
  [0x2DE92C6F592B0275, 0x4A7484AA6EA6E483, 0x5CB0A9DCBD41FBD4, 0x76F988DA831153B5, 0x983E5152EE66DFAB,
   0xA831C66D2DB43210, 0xB00327C898FB213F, 0xBF597FC7BEEF0EE4, 0xC6E00BF33DA88FC2, 0xD5A79147930AA725,
   0x06CA6351E003826F, 0x142929670A0E6E70, 0x27B70A8546D22FFC, 0x2E1B21385C26C926, 0x4D2C6DFC5AC42AED,
   0x53380D139D95B3DF, 0x650A73548BAF63DE, 0x766A0ABB3C77B2A8, 0x81C2C92E47EDAEE6, 0x92722C851482353B] ++
  [0xA2BFE8A14CF10364, 0xA81A664BBC423001, 0xC24B8B70D0F89791, 0xC76C51A30654BE30, 0xD192E819D6EF5218,
   0xD69906245565A910, 0xF40E35855771202A, 0x106AA07032BBD1B8, 0x19A4C116B8D2D0C8, 0x1E376C085141AB53,
   0x2748774CDF8EEB99, 0x34B0BCB5E19B48A8, 0x391C0CB3C5C95A63, 0x4ED8AA4AE3418ACB, 0x5B9CCA4F7763E373,
   0x682E6FF3D6B2B8A3, 0x748F82EE5DEFB2FC, 0x78A5636F43172F60, 0x84C87814A1F0AB72, 0x8CC702081A6439EC] ++
  [0x90BEFFFA23631E28, 0xA4506CEBDE82BDE9, 0xBEF9A3F7B2C67915, 0xC67178F2E372532B, 0xCA273ECEEA26619C,
   0xD186B8C721C0C207, 0xEADA7DD6CDE0EB1E, 0xF57D4F7FEE6ED178, 0x06F067AA72176FBA, 0x0A637DC5A2C898A6,
   0x113F9804BEF90DAE, 0x1B710B35131C471B, 0x28DB77F523047D84, 0x32CAAB7B40C72493, 0x3C9EBE0A15C9BEBC,
   0x431D67C49C100D4C, 0x4CC5D4BECB3E42B6, 0x597F299CFC657E2A, 0x5FCB6FAB3AD6FAEC, 0x6C44198C4A475817]

/-- The initial hash value. [PRESUMED, log entry 12] -/
def shaInit : List Nat :=
  [0xCBBB9D5DC1059ED8, 0x629A292A367CD507, 0x9159015A3070DD17, 0x152FECD8F70E5939,
   0x67332667FFC00B31, 0x8EB44A8768581511, 0xDB0C2E0D64F98FA7, 0x47B5481DBEFA4FA4]

/-- A 64-bit word rotated right. -/
def rotr64 (x n : Nat) : Nat := (x / 2 ^ n) ||| (x * 2 ^ (64 - n) % 2 ^ 64)

/-- The next word of the message schedule, whose words stand newest first. -/
def shaNext (w : List Nat) : Nat :=
  let a := w.getD 1 0
  let b := w.getD 14 0
  let s1 := rotr64 a 19 ^^^ rotr64 a 61 ^^^ (a / 2 ^ 6)
  let s0 := rotr64 b 1 ^^^ rotr64 b 8 ^^^ (b / 2 ^ 7)
  (s1 + w.getD 6 0 + s0 + w.getD 15 0) % 2 ^ 64

/-- The message schedule of a block's sixteen words. -/
def shaSchedule (ws : List Nat) : List Nat := ((List.range 64).foldl (fun w _ => shaNext w :: w) ws.reverse).reverse

/-- The eight working variables of the compression. -/
structure ShaVars where
  a : Nat
  b : Nat
  c : Nat
  d : Nat
  e : Nat
  f : Nat
  g : Nat
  h : Nat

/-- One round, with its schedule word and constant. -/
def ShaVars.round (v : ShaVars) (x : Nat × Nat) : ShaVars :=
  let s1 := rotr64 v.e 14 ^^^ rotr64 v.e 18 ^^^ rotr64 v.e 41
  let ch := (v.e &&& v.f) ^^^ ((v.e ^^^ (2 ^ 64 - 1)) &&& v.g)
  let t1 := v.h + s1 + ch + x.1 + x.2
  let s0 := rotr64 v.a 28 ^^^ rotr64 v.a 34 ^^^ rotr64 v.a 39
  let maj := (v.a &&& v.b) ^^^ (v.a &&& v.c) ^^^ (v.b &&& v.c)
  ⟨(t1 + s0 + maj) % 2 ^ 64, v.a, v.b, v.c, (v.d + t1) % 2 ^ 64, v.e, v.f, v.g⟩

/-- The hash value after a block of 128 bytes. -/
def shaBlock (hs : List Nat) (block : List Byte) : List Nat :=
  let ws := (chunksOf 8 16 block).map beNat
  let at_ := fun i => hs.getD i 0
  let v := ((shaSchedule ws).zip shaK).foldl ShaVars.round ⟨at_ 0, at_ 1, at_ 2, at_ 3, at_ 4, at_ 5, at_ 6, at_ 7⟩
  (hs.zip [v.a, v.b, v.c, v.d, v.e, v.f, v.g, v.h]).map fun x => (x.1 + x.2) % 2 ^ 64

/-- A byte string padded to whole blocks: a one bit, zeros, and the length in bits in sixteen bytes, big-endian. -/
def shaPad (bs : List Byte) : List Byte :=
  bs ++ [0x80] ++ List.replicate ((239 - bs.length % 128) % 128) 0 ++ (leBytes 16 (8 * bs.length)).reverse

/-- SHA-384 of a byte string, 48 bytes. [PRESUMED, log entry 12] -/
def sha384 (bs : List Byte) : List Byte :=
  let p := shaPad bs
  ((chunksOf 128 (p.length / 128) p).foldl shaBlock shaInit).take 6 |>.flatMap fun w => (leBytes 8 w).reverse

/-! ## brainpoolP384r1 -/

/-- The prime of the field. [PRESUMED, log entry 12] -/
def bpP : Nat := 0x8CB91E82A3386D280F5D6F7E50E641DF152F7109ED5456B412B1DA197FB71123ACD3A729901D1A71874700133107EC53
/-- The coefficient A. [PRESUMED, log entry 12] -/
def bpA : Nat := 0x7BC382C63D8C150C3C72080ACE05AFA0C2BEA28E4FB22787139165EFBA91F90F8AA5814A503AD4EB04A8C7DD22CE2826
/-- The coefficient B. [PRESUMED, log entry 12] -/
def bpB : Nat := 0x04A8C7DD22CE28268B39B55416F0447C2FB77DE107DCD2A62E880EA53EEB62D57CB4390295DBC9943AB78696FA504C11
/-- The base point's x. [PRESUMED, log entry 12] -/
def bpX : Nat := 0x1D1C64F068CF45FFA2A63A81B7C13F6B8847A3E77EF14FE3DB7FCAFE0CBD10E8E826E03436D646AAEF87B2E247D4AF1E
/-- The base point's y. [PRESUMED, log entry 12] -/
def bpY : Nat := 0x8ABE1D7520F9C2A45CB1EB8E95CFD55262B70B29FEEC5864E19C054FF99129280E4646217791811142820341263C5315
/-- The order of the base point. [PRESUMED, log entry 12] -/
def bpN : Nat := 0x8CB91E82A3386D280F5D6F7E50E641DF152F7109ED5456B31F166E6CAC0425A7CF3AB6AF6B7FC3103B883202E9046565

/-- The difference of two residues. -/
def subMod (a b m : Nat) : Nat := (a + (m - b % m)) % m

/-- A power of a residue, over the 384 bits of the exponent. -/
def powMod (x e m : Nat) : Nat :=
  (List.range 384).foldr (fun i acc => let q := acc * acc % m; if bitOf e i then q * x % m else q) 1 |> fun y => y % m

/-- A point of the curve in Jacobian coordinates; z = 0 is the point at infinity. -/
structure EcPt where
  x : Nat
  y : Nat
  z : Nat

/-- The point at infinity. -/
def EcPt.inf : EcPt := ⟨1, 1, 0⟩

/-- A point doubled. -/
def EcPt.dbl (a : EcPt) : EcPt :=
  if a.z = 0 || a.y = 0 then EcPt.inf
  else
    let yy := a.y * a.y % bpP
    let zz := a.z * a.z % bpP
    let s := 4 * a.x * yy % bpP
    let m := (3 * a.x * a.x + bpA * (zz * zz % bpP)) % bpP
    let x := subMod (m * m) (2 * s) bpP
    ⟨x, subMod (m * subMod s x bpP) (8 * (yy * yy % bpP)) bpP, 2 * a.y * a.z % bpP⟩

/-- Two points added. -/
def EcPt.add (a b : EcPt) : EcPt :=
  if a.z = 0 then b
  else if b.z = 0 then a
  else
    let za := a.z * a.z % bpP
    let zb := b.z * b.z % bpP
    let u1 := a.x * zb % bpP
    let u2 := b.x * za % bpP
    let s1 := a.y * (zb * b.z % bpP) % bpP
    let s2 := b.y * (za * a.z % bpP) % bpP
    if u1 = u2 then (if s1 = s2 then a.dbl else EcPt.inf)
    else
      let h := subMod u2 u1 bpP
      let r := subMod s2 s1 bpP
      let hh := h * h % bpP
      let hhh := h * hh % bpP
      let v := u1 * hh % bpP
      let x := subMod (r * r) (hhh + 2 * v) bpP
      ⟨x, subMod (r * subMod v x bpP) (s1 * hhh) bpP, h * (a.z * b.z % bpP) % bpP⟩

/-- A multiple of a point, over the 384 bits of the factor. -/
def EcPt.mul (a : EcPt) (k : Nat) : EcPt :=
  (List.range 384).foldr (fun i (q : EcPt) => let q := q.dbl; if bitOf k i then q.add a else q) EcPt.inf

/-- An uncompressed point of 97 bytes: 0x04, x and y (Table 17-3). -/
def ecPoint (key : List Byte) : Option EcPt :=
  let x := beNat (slice key 1 48)
  let y := beNat (slice key 49 48)
  if u key 0 1 = 4 && key.length = 97 && x < bpP && y < bpP && y * y % bpP = (x * x * x + bpA * x + bpB) % bpP then some ⟨x, y, 1⟩ else none

/-- ECDSA verification of a 96-byte signature r and s, big-endian, over a 48-byte digest (R35). [PRESUMED, log entry 12] -/
def ecdsaOk (key digest sig : List Byte) : Bool :=
  let r := beNat (slice sig 0 48)
  let s := beNat (slice sig 48 48)
  match ecPoint key with
  | none => false
  | some q =>
    if sig.length ≠ 96 || r = 0 || bpN ≤ r || s = 0 || bpN ≤ s then false
    else
      let w := powMod s (bpN - 2) bpN
      let z := beNat (digest.take 48)
      let t := ((⟨bpX, bpY, 1⟩ : EcPt).mul (z * w % bpN)).add (q.mul (r * w % bpN))
      if t.z = 0 then false
      else
        let i := powMod t.z (bpP - 2) bpP
        t.x * (i * i % bpP) % bpP % bpN == r

end Sys2Proof.Machine
end

