-- ==== Sys2Proof/Machine/Boot.lean ====
section
/-!
DEFINITION. The ROM and Osaux: firmware images and their verification (R366 to R368), the ROM run, and the start of Osaux.
-/
namespace Sys2Proof.Machine

/-- The staging SRAM (R364): 6 MiB. -/
def stagingSize : Nat := 0x600000

/-- A write of the staging SRAM; every other offset ignores it. -/
def State.stagingWrite (s : State) (off : Nat) (bs : List Byte) : State :=
  (bs.zip (List.range bs.length)).foldl (fun s (x : Byte × Nat) =>
    if off + x.2 < stagingSize then { s with hst := { s.hst with staging := s.hst.staging.set (off + x.2) x.1 } } else s) s

/-- The bytes of the staging SRAM, `len` of them (R364, R366). -/
def State.staged (s : State) (len : Nat) : List Byte := (List.range len).map fun i => s.hst.staging.get 0 i

/-- "OSAUXFW" and a zero byte. -/
def fwMagic : List Byte := ascii "OSAUXFW" ++ [0]

/-- The signer key of a firmware image (Table 17-3). -/
def fwSigner (img : List Byte) : List Byte := slice img 0x20 97

/-- The signature of a firmware image verifies under its signer key (R367). -/
def fwSigned (img : List Byte) : Bool :=
  let n := u img 8 4
  ecdsaOk (fwSigner img) (sha384 (img.take (n - 96))) (slice img (n - 96) 96)

/-- The checks of R367 in order: 0 accepted, else the reason code. `staged` is the staged length, `keyHash` the Malbor key hash in the
fuses; `able` says that the security block works. -/
def fwCheck (img : List Byte) (staged svnMin : Nat) (keyHash : List Byte) (able : Bool) : Nat :=
  let len := u img 8 4
  if img.isEmpty || allZero (img.take 8) then 1
  else if img.take 8 ≠ fwMagic then 2
  else if len < 512 || 6291456 < len || len ≠ staged then 6
  else if sha384 (fwSigner img) ≠ keyHash then 3
  else if !(able && fwSigned img) then 4
  else if u img 0x18 2 < svnMin then 5
  else 0

/-- The firmware record of an accepted image (Table 17-3). -/
def fwOf (img : List Byte) : Fw :=
  { version := u img 0x0C 4, lowest := u img 0x10 4, highest := u img 0x14 4, svn := u img 0x18 2, hash := sha384 img }

/-- The fused minimum security version: the part's own until SVN_ADVANCE burns a higher one (R367). -/
def State.svnMin (s : State) : Nat := max s.hst.svnMin Config.svnFused.toNat

/-- HST_BOOT_STATUS.state changes: vector 258 (Table 17-2). -/
def State.bootState (s : State) (n : Nat) : State :=
  if s.hst.boot = n then s else ({ s with hst := { s.hst with boot := n } }).msix 258

/-- An image refused under R367 counts in SEC_FW_REJECT_CNT; FW_REJECT reports one that the host supplied (Table 15-10). [DEDUCED, log entry 97] -/
def State.fwRefused (s : State) (fromHost : Bool) : State :=
  let s := s.sat (blkR 9 0x088) 0 16 1
  if fromHost then s.flag 9 0 else s

/-- The ROM rejects an image: the reason is recorded (R366, R367). [DESIGN CHOICE, log entry 70] -/
def State.fwReject (s : State) (reason : Nat) (fromHost : Bool) : State :=
  ({ s with hst := { s.hst with reason := reason } }).fwRefused fromHost

/-- Osaux starts from a verified image (R366 step 4). Reading the lane table and the votes of R321 follow. -/
def State.osauxStart (s : State) (img : List Byte) (fromHost : Bool) : State :=
  let s := { s with hst := { s.hst with fw := some (fwOf img), fromHost := fromHost, mb := 0, lane := s.hst.flash.lane,
                                         keys := s.hst.keyFlash },
                    dev := { s.dev with osaux := true } }
  let s := s.bootState 3
  let s := (s.wrap (blkR 9 0x080) 48 1).progress 9
  s.vote 0 3 ((List.range 14).map (· + 6))

/-- The ROM restarts: debug ends, and the flash is read again unless the host is the source (R366, R375). -/
def State.romRun (s : State) (fuseOk : Bool) : State :=
  let s := { s with dev := { s.dev with osaux := false },
                    hst := { s.hst with debug := false, debugSecs := 0, mb := 0, fw := none, mbRange := none } }
  let s := (s.clearSlot 5).bootState 0
  let s := if fuseOk then s else s.flag 9 2
  if (s.rg (blkR 8 0x068)).bit 0 then s.bootState 2 else s

/-- The ROM has read the flash into the staging SRAM and verifies what it read (R366 step 2). [DESIGN CHOICE, log entry 5, DESIGN CHOICE, log entry 6, DESIGN CHOICE, log entry 17] -/
def State.romFlash (s : State) : State :=
  if s.hst.boot = 0 && !s.dev.osaux && !(s.rg (blkR 8 0x068)).bit 0 then
    let img := s.hst.flash.fw
    let s := (s.stagingWrite 0 img).bootState 1
    match fwCheck img (u img 8 4) s.svnMin s.hst.fwKey true with
    | 0 => s.osauxStart img false
    | r => (s.fwReject r false).bootState 2
  else s

/-- HST_BOOT_CTRL.go: verify the host-staged image (R366 step 3). Outside WAITING_HOST it is discarded. -/
def State.bootGo (s : State) : State :=
  if s.hst.boot = 2 then
    let len := (s.rg (blkR 8 0x070)).fld 0 23
    let img := s.staged (min len 6291456)
    let s := s.bootState 1
    match fwCheck img len s.svnMin s.hst.fwKey true with
    | 0 => s.osauxStart img true
    | r => (s.fwReject r true).bootState 2
  else s

end Sys2Proof.Machine
end

