-- ==== Sys2Proof/Machine/Mailbox.lean ====
section
/-!
DEFINITION. The host mailbox (R370): the doorbell, the state of HST_MB_STATUS, the payload and the response registers, the
owner key store (R372), debug access (R375), and the attestation report (R376).
-/
namespace Sys2Proof.Machine

/-- The codes of Table 17-6. -/
abbrev MbResult := Nat

/-- The command code and payload length in HST_MB_CMD. -/
def State.mbCode (s : State) : Nat := (s.rg (blkR 8 0x088)).fld 0 8

/-- The payload bytes in HST_MB_IN. [DESIGN CHOICE, log entry 18] -/
def State.mbPayload (s : State) (len : Nat) : List Byte :=
  ((List.range (ceilDiv len 8)).flatMap fun i => leBytes 8 (s.rg (blkR 8 (0x1000 + 8 * i))).toNat).take len

/-- A command of a code waits for Osaux: the doorbell has made the state BUSY (R370). -/
def State.mbBusy (s : State) (code : Nat) : Bool := s.hst.mb == 1 && s.mbCode == code && s.dev.osaux && !s.dev.down

/-- The codes whose payload names a staged HBM range (Table 17-5). -/
def mbNamesRange (code : Nat) : Bool := code == 1 || code == 6 || code == 8

/-- HST_MB_CTRL.doorbell (R370): BUSY, with the staged range protected; ignored and counted while BUSY, while Osaux does not
run, and while the device is down. -/
def State.doorbell (s : State) : State :=
  if s.hst.mb = 1 || !s.dev.osaux || s.dev.down then s.sat (blkR 8 0x0A0) 0 16 1
  else
    let p := s.mbPayload 16
    let r := if mbNamesRange s.mbCode then some (u p 0 8, u p 8 8) else none
    { s with hst := { s.hst with mb := 1, mbRange := r } }

/-- Osaux ends a command: response, result, DONE, vector 256 (R370). -/
def State.mbDone (s : State) (result : MbResult) (rsp : List Byte := []) : State :=
  let s := (chunksOf 8 (ceilDiv (min rsp.length 4096) 8) rsp).zip (List.range 512) |>.foldl
    (fun s w => s.setRg (blkR 8 (0x2000 + 8 * w.2)) (BitVec.ofNat 64 (leNat w.1))) s
  ({ s with hst := { s.hst with mb := 2, mbResult := result, mbLen := rsp.length, mbRange := none } }).msix 256

/-- HST_MB_STATUS (Table 17-7). -/
def State.mbStatus (s : State) : W64 :=
  put 16 s.hst.mbLen ||| put 8 s.hst.mbResult ||| putBit 4 s.hst.mbPlaced ||| put 0 s.hst.mb

/-- HST_MB_CTRL.out_ack: the next message is placed (R370). -/
def State.mbAck (s : State) : State :=
  if s.hst.mbPlaced then ({ s with hst := { s.hst with mbPlaced := false } }).placeOut else s

/-- One signing or verification operation completed (Tables 15-2 and 17-11). -/
def State.secOp (s : State) : State := (s.wrap (blkR 9 0x080) 48 1).progress 9

/-- Signing and verification work: no KEY_PARITY since the last reset of the block (Table 15-10). [DESIGN CHOICE, log entry 70] -/
def State.secOk (s : State) : Bool := s.ok 9

/-- The 64-bit identifier of a public key (R371). [PRESUMED, log entry 12] -/
def keyId (key : List Byte) : Nat := u (sha384 key) 0 8

/-- The owner key in a slot; empty where there is none. -/
def State.keyAt (s : State) (k : Nat) : List Byte := s.hst.keys.get [] k

/-- SEC_OWNER_KEY_k: the key's identifier, 0 for an empty slot (R372). -/
def State.keyReg (s : State) (k : Nat) : Nat := if (s.keyAt k).isEmpty then 0 else keyId (s.keyAt k)

/-- The slot of an enrolled key. -/
def State.keySlot (s : State) (id : Nat) : Option Nat :=
  (List.range 4).find? fun k => !(s.keyAt k).isEmpty && s.keyReg k == id

/-- The first empty slot. -/
def State.freeKeySlot (s : State) : Option Nat := (List.range 4).find? fun k => (s.keyAt k).isEmpty

/-- No owner key is enrolled. -/
def State.noKeys (s : State) : Bool := (List.range 4).all fun k => (s.keyAt k).isEmpty

/-- The owner key store replaced, in the security block and in flash (R372). -/
def State.setKey (s : State) (slot : Nat) (key : List Byte) : State :=
  let keys := s.hst.keys.set slot key
  { s with hst := { s.hst with keys := keys, keyFlash := keys } }

/-- A signature over a message verifies under the enrolled key of an identifier (R35, R374). -/
def State.signedBy (s : State) (id : Nat) (msg sig : List Byte) : Bool :=
  match s.keySlot id with
  | some k => ecdsaOk (s.keyAt k) (sha384 msg) sig
  | none => false

/-- A signature over a message verifies under an enrolled key (R372, R375). -/
def State.signedByAny (s : State) (msg sig : List Byte) : Bool :=
  (List.range 4).any fun k => !(s.keyAt k).isEmpty && ecdsaOk (s.keyAt k) (sha384 msg) sig

/-- The bytes of a payload after the first `n`, 96 of them: an authorising signature. [DESIGN CHOICE, log entry 18] -/
def State.mbSig (s : State) (n : Nat) : List Byte := (s.mbPayload (n + 96)).drop n

/-- The command payload before its signature, with the identity key's identifier (R372). [DESIGN CHOICE, log entry 18] -/
def State.mbSigned (s : State) (n : Nat) : List Byte := s.mbPayload n ++ leBytes 8 Config.idKeyId.toNat

/-- OWNER_ENROL (R372): the payload is the public key and the authorising signature. [DESIGN CHOICE, log entry 18] -/
def State.enrol (s : State) : State :=
  let key := s.mbPayload 97
  if !s.quiescent then s.mbDone 2
  else if (ecPoint key).isNone then s.mbDone 4
  else if !s.noKeys && !(s.secOk && s.signedByAny (s.mbSigned 97) (s.mbSig 97)) then (if s.secOk then s.secOp else s).mbDone 3
  else
    let s := if s.noKeys then s else s.secOp
    match s.freeKeySlot with
    | some k => (s.setKey k key).mbDone 0
    | none => s.mbDone 5

/-- The owner key of the image in force (Table 2-1). -/
def State.imgKey (s : State) : Nat := match s.inForce with | some i => u i.hdr 0x50 8 | none => 0

/-- OWNER_REMOVE (R372, Table 17-5): the payload is the key's identifier and the authorising signature. [DESIGN CHOICE, log entry 18] -/
def State.unenrol (s : State) : State :=
  let id := u (s.mbPayload 8) 0 8
  if !s.quiescent then s.mbDone 2
  else match s.keySlot id with
    | none => s.mbDone 10
    | some k =>
      if !(s.secOk && s.signedByAny (s.mbSigned 8) (s.mbSig 8)) then (if s.secOk then s.secOp else s).mbDone 3
      else if s.inForce.isSome && s.imgKey = id then s.secOp.mbDone 6
      else (s.secOp.setKey k []).mbDone 0

/-- SVN_ADVANCE (R367, Table 17-5): the payload's first two bytes are the new minimum. -/
def State.svnAdvance (s : State) : State :=
  let n := u (s.mbPayload 2) 0 2
  if !s.quiescent then s.mbDone 2
  else if (match s.hst.fw with | some f => f.svn | none => 0) < n then s.mbDone 8
  else ({ s with hst := { s.hst with svnMin := max s.hst.svnMin n } }).mbDone 0

/-- What a debug token signs: the identity key identifier, the current nonce and the duration (R375). [DESIGN CHOICE, log entry 18] -/
def State.tokenMsg (s : State) (secs : Nat) : List Byte := leBytes 8 Config.idKeyId.toNat ++ leBytes 4 s.hst.nonce ++ leBytes 4 secs

/-- DEBUG_ENABLE (R375): the payload is the duration and the token's signature; another nonce replaces the one that it was made for. [DESIGN CHOICE, log entry 18, DESIGN CHOICE, log entry 89] -/
def State.debugOn (s : State) (nonce : Nat) : State :=
  let secs := u (s.mbPayload 4) 0 4
  if s.noKeys then s.mbDone 10
  else if !(s.secOk && s.signedByAny (s.tokenMsg secs) (s.mbSig 4)) then (if s.secOk then s.secOp else s).mbDone 3
  else
    let next := if nonce = s.hst.nonce then (nonce + 1) % 2 ^ 32 else nonce
    ({ s.secOp with hst := { s.secOp.hst with debug := true, debugSecs := secs, nonce := next } }).mbDone 0

/-- Debug ends: every V5 vote is cleared (R375). -/
def State.debugOff (s : State) : State :=
  ({ s with hst := { s.hst with debug := false, debugSecs := 0 } }).clearSlot 5

/-- The attestation report less its signature (Table 17-9). [DESIGN CHOICE, log entry 11] -/
def State.report (s : State) (nonce : List Byte) : List Byte :=
  let pad := fun (n : Nat) (l : List Byte) => (l ++ List.replicate n 0).take n
  let fw := s.hst.fw
  ascii "MBAR" ++ leBytes 2 1 ++ leBytes 2 320 ++ pad 32 nonce ++ leBytes 8 Config.idKeyId.toNat ++
  leBytes 2 (s.chip + (if s.hst.plan.isSome then 0x8000 else 0)) ++ leBytes 2 0x0096 ++
  leBytes 1 (if Config.variantH then 1 else 0) ++
  leBytes 1 ((if s.deterministic then 1 else 0) + (if s.inForce.isSome then 2 else 0) + (if s.hst.plan.isSome then 4 else 0) +
    (if s.hst.debug then 8 else 0) + (if s.hst.fromHost then 16 else 0)) ++
  leBytes 2 0 ++ leBytes 4 (match fw with | some f => f.version | none => 0) ++
  leBytes 2 (match fw with | some f => f.svn | none => 0) ++ leBytes 2 s.svnMin ++
  pad 48 (match fw with | some f => f.hash | none => []) ++
  pad 48 (match s.inForce with | some i => i.hash | none => []) ++
  pad 48 (match s.hst.plan with | some p => p.hash | none => []) ++
  leBytes 8 s.imgKey ++ leBytes 4 s.dev.resets ++ leBytes 4 0

/-- ATTEST (R376): refused while the loader is COMMITTING. -/
def State.attest (s : State) : State :=
  if s.ld.state = 3 then s.mbDone 1
  else
    let r := s.report (s.mbPayload 32)
    if s.secOk then s.secOp.mbDone 0 (r ++ (Config.idSign r ++ List.replicate 96 0).take 96) else s.mbDone 3

/-- The certificate chain in flash (Table 17-4). -/
def State.getCert (s : State) : State := s.mbDone 0 s.hst.flash.cert

/-- SEC_DEBUG (Table 17-11). [DESIGN CHOICE, log entry 89] -/
def State.secDebug (s : State) : W64 :=
  put 32 s.hst.nonce ||| put 2 (s.hst.debugSecs % 2 ^ 30) ||| putBit 0 s.hst.debug

end Sys2Proof.Machine
end

