-- ==== Sys2Proof/Machine/Checks.lean ====
section
/-!
DEFINITION. The load checks of stages 1 to 5 (R30 to R35, R40 to R42, R75, Table 2-8), each the first failure in order, and what the
checks of stage 6 share.
-/
namespace Sys2Proof.Machine

/-- A refusal: its reason (Table 2-7), the directory index of the section, the entry index, and the value and the limit (R41, R42). -/
structure LdFail where
  reason : Nat
  sect : Nat := 0xFF
  index : Nat := 0
  value : Nat := 0
  limit : Nat := 0
  deriving DecidableEq, Repr

/-- The failure where the condition holds. -/
def failIf (bad : Bool) (f : LdFail) : Option LdFail := if bad then some f else none

/-- The first failure of a list of checks. -/
def firstFail (xs : List (Option LdFail)) : Option LdFail := xs.findSome? id

/-- The first failure among numbered entries. -/
def failAt {α : Type} (f : Nat → α → Option LdFail) (xs : List α) : Option LdFail :=
  ((List.range xs.length).zip xs).findSome? fun (x : Nat × α) => f x.1 x.2

/-- The lowest offset in `[lo, lo + n)` whose byte is not zero. -/
def firstNonZero (bs : List Byte) (lo n : Nat) : Option Nat := (List.range n).findSome? fun i => if u bs (lo + i) 1 = 0 then none else some (lo + i)

/-! ## The directory (R30, R32) -/

/-- A directory entry. -/
structure DirEntry where
  typ : Nat
  inst : Nat
  flags : Nat
  off : Nat
  len : Nat
  crc : Nat
  resv : Nat
  deriving DecidableEq, Repr

/-- The number of directory entries that the header gives. -/
def dirCount (c : List Byte) : Nat := u c 0x48 4

/-- Directory entry `k` of a container. -/
def dirEntry (c : List Byte) (k : Nat) : DirEntry :=
  let e := slice c (u c 0x4C 4 + 32 * k) 32
  ⟨u e 0 2, u e 2 2, u e 4 4, u e 8 8, u e 0x10 8, u e 0x18 4, u e 0x1C 4⟩

/-- The directory. -/
def dirAll (c : List Byte) : List DirEntry := (List.range (dirCount c)).map (dirEntry c)

/-- The body of a section. -/
def DirEntry.body (e : DirEntry) (c : List Byte) : List Byte := slice c e.off e.len

/-- The image of a container. -/
def imageOf (c : List Byte) : Image :=
  { hdr := c.take 256, secs := (dirAll c).map fun e => ⟨e.typ, e.inst, e.body c⟩, hash := sha384 c }

/-! ## Stage 1 -/

/-- The owner signature of a container verifies under the enrolled key that its header names (R35). -/
def State.ownerSigOk (s : State) (c : List Byte) : Bool :=
  let e := dirEntry c (dirCount c - 1)
  s.signedBy (u c 0x50 8) (c.take e.off) (slice c e.off 96)

/-- Stage 1 (Table 2-6, R35): format, key, signature. `len` is the staged length; `able` says that the security block verifies. [DEDUCED, log entry 33] -/
def State.stage1 (s : State) (c : List Byte) (len : Nat) (able : Bool) : Option LdFail :=
  let n := dirCount c
  let e := dirEntry c (n - 1)
  firstFail [
    failIf (c.take 8 ≠ ascii "DZITU" ++ [0, 0, 0] || u c 0x10 8 ≠ len) { reason := 0x10 },
    failIf (n = 0 || len < u c 0x4C 4 + 32 * n || e.typ ≠ 0xF0 || e.len ≠ 96 || len < e.off + 96) { reason := 0x10 },
    failIf (s.keySlot (u c 0x50 8)).isNone { reason := 0x11, sect := n - 1 },
    failIf (!(able && s.ownerSigOk c)) { reason := 0x12, sect := n - 1 }]

/-! ## Stage 2 -/

/-- A section type of Table 2-2. -/
def knownType (t : Nat) : Bool := t == 0xF0 || secTypes.any fun x => x.1 == t

/-- A type with one section for each tile. -/
def perTile (t : Nat) : Bool := secTypes.any fun x => x.1 == t && x.2.1

/-- Directory form (R32): sorted strictly by type and then by number, aligned, inside the container, apart, and OWNER_SIG last. [DEDUCED, log entry 33] -/
def dirBad (c : List Byte) (es : List DirEntry) (k : Nat) (e : DirEntry) : Bool :=
  let owner := e.typ == 0xF0
  let before := es.take k
  (k == 0 && u c 0x4C 4 % 64 != 0) || e.flags != 0 || e.resv != 0 || e.off % 64 != 0 || c.length < e.off + e.len ||
  (knownType e.typ && (if perTile e.typ then 8 ≤ e.inst else e.inst != noInst)) ||
  (match before.getLast? with
   | some p => !(p.typ < e.typ || (p.typ == e.typ && p.inst < e.inst))
   | none => false) ||
  (owner != (k + 1 == es.length)) || (owner && (e.off + e.len != c.length || e.crc != 0)) ||
  before.any fun p => e.off < p.off + p.len && p.off < e.off + e.len

/-- Section form (R34): the first bad byte offset in the body. [DEDUCED, log entry 33] -/
def formBad (typ : Nat) (b : List Byte) : Option Nat :=
  if b.length < 16 || b.length ≠ 16 + u b 0 4 * u b 4 4 then some 0
  else if u b 4 4 ≠ entrySize typ then some 4
  else firstNonZero b 8 8

/-- The form of TILE_PROG (R75, Table 3-19): the first bad byte offset in the body. -/
def progBad (x : Section) : Option Nat :=
  let h := progHdr x
  let b := x.body
  let at_ := fun (bad : Bool) (o : Nat) => if bad then some (16 + o) else none
  if x.count ≠ h.total then some 0
  else [at_ (h.bundles = 0 || 16777216 < h.bundles) 0, at_ (65536 < h.arrDescs) 4, at_ (32768 < h.movDescs) 8, at_ (65536 < h.fabDescs) 0xC,
        at_ (h.regions = 0 || 256 < h.regions) 0x10, at_ (h.progBase % 4096 ≠ 0 || 2 ^ 31 ≤ h.progBase) 0x14,
        at_ (h.descBase % 4096 ≠ 0 || 2 ^ 31 ≤ h.descBase) 0x18, firstNonZero b (16 + 0x1C) 36, firstNonZero b (16 + 64 + 32) 32,
        firstNonZero b (16 + 64 * 4 + 16 * h.regions) (64 * ceilDiv h.regions 4 - 16 * h.regions)].findSome? id

/-- Stage 2 (Table 2-6). No check of the table reads header_size or the reserved bytes of the container's header: a container is accepted
whatever they hold. [DESIGN CHOICE, log entry 93] -/
def stage2 (c : List Byte) : Option LdFail :=
  let es := dirAll c
  let secs := (imageOf c).secs
  firstFail [
    failIf (u c 8 2 ≠ 1) { reason := 0x20 },
    failIf (2 < u c 0xA 2) { reason := 0x21 },
    failAt (fun k e => failIf (dirBad c es k e) { reason := 0x22, sect := k }) es,
    failAt (fun k (e : DirEntry) => failIf (!knownType e.typ) { reason := 0x23, sect := k }) es,
    failAt (fun k (x : Section) =>
      if x.typ = 0xF0 then none
      else match formBad x.typ x.body with
        | some o => some { reason := 0x24, sect := k, index := o }
        | none => if x.typ = 1 then (progBad x).map fun o => { reason := 0x24, sect := k, index := o } else none) secs,
    failAt (fun k (e : DirEntry) => failIf (e.typ ≠ 0xF0 && crc32c (e.body c) ≠ e.crc) { reason := 0x25, sect := k }) es,
    secTypes.findSome? fun x =>
      failIf ((secs.filter fun y => y.typ == x.1).length < (if x.2.1 then 8 else 1)) { reason := 0x26, index := x.1 }]

/-! ## Stages 3 and 4 -/

/-- The directory index of a section. -/
def Image.secIx (i : Image) (typ inst : Nat) : Nat := (findIdxOpt (fun (x : Section) => x.typ == typ && x.inst == inst) i.secs 0).getD 0xFF

/-- The path that LINK_CLASS selects for a group; none where it names the group nowhere. -/
def Image.path (i : Image) (g : Nat) : Option Nat := ((i.all 0x0D noInst).find? fun e => u e 0 1 == g).map fun e => u e 1 1

/-- Stage 3: part, variant and link class. -/
def stage3 (i : Image) : Option LdFail :=
  firstFail [
    failIf (u i.hdr 0x18 2 ≠ 0x0096) { reason := 0x30 },
    failIf (1 < u i.hdr 0x1A 1 || (u i.hdr 0x1A 1 = 1 && !Config.variantH)) { reason := 0x31 },
    (i.all 0x0D noInst).findSome? fun e =>
      failIf (u e 1 1 = 1 && !Config.variantH) { reason := 0x32, sect := i.secIx 0x0D noInst, index := u e 0 1 }]

/-- Stage 4: the tile count. [DEDUCED, log entry 33] -/
def stage4 (i : Image) : Option LdFail := failIf (u i.hdr 0x1B 1 ≠ 8) { reason := 0x40 }

/-! ## Stage 5 (R42, Table 2-8) -/

/-- The V2 vote that POWER_VOTES gives a domain. -/
def Image.vote (i : Image) (d : Nat) : Nat := match (i.all 0x0B noInst).find? fun e => u e 0 1 == d with | some e => u e 1 1 | none => 0

/-- One resource check. -/
def overLimit (reason sect index value limit : Nat) : Option LdFail := failIf (limit < value) ⟨reason, sect, index, value, limit⟩

/-- The sum of numbers. -/
def total (xs : List Nat) : Nat := xs.foldl (· + ·) 0

/-- The wheel slots of port p. -/
def Image.wheel (i : Image) (p : Nat) : List Nat :=
  match i.sec 0x06 noInst with
  | some x => (List.range 1024).filterMap fun k => if 1024 * p + k < x.count then some (u (x.entry (1024 * p + k)) 0 2) else none
  | none => []

/-- The number of bits set. -/
def bitCount (w v : Nat) : Nat := ((List.range w).filter fun k => bitOf v k).length

/-- One past the highest bit set. -/
def bitTop (w v : Nat) : Nat := maxOf ((List.range w).map fun k => if bitOf v k then k + 1 else 0)

/-- The TILE_PROG section of a tile. -/
def Image.prog (i : Image) (t : Nat) : Section := (i.sec 1 t).getD ⟨1, t, []⟩

/-- Stage 5. -/
def stage5 (i : Image) : Option LdFail :=
  let gs := i.all 0x03 noInst
  firstFail [
    (List.range 8).findSome? fun t => overLimit 0x50 (i.secIx 1 t) t (total ((progRegions (i.prog t)).map fun r => r.2.1)) 2147483648,
    (List.range 4).findSome? fun q =>
      overLimit 0x51 (i.secIx 3 noInst) q (total ((gs.filter fun e => u e 0x18 1 == q).map fun e => u e 0x1C 2)) (if i.vote (2 + q) = 3 then 1536 else 0),
    overLimit 0x52 (i.secIx 8 noInst) 0 (total ((i.all 0x08 noInst).map fun e => u e 4 4)) 520192,
    (List.range 48).findSome? fun p =>
      overLimit 0x53 (i.secIx 6 noInst) p ((i.wheel p).filter fun r => r != 0xFFFF).length (if i.vote (6 + p / 4) = 3 then 960 else 0),
    (List.range 8).findSome? fun t =>
      let m := progTallyMap (i.prog t)
      overLimit 0x54 (i.secIx 1 t) t (max (bitCount 256 m) (bitTop 256 m)) 248,
    overLimit 0x55 (i.secIx 3 noInst) 0 gs.length 16384,
    overLimit 0x56 (i.secIx 0xE noInst) 0 (i.all 0x0E noInst).length 64]

/-! ## What stage 6 shares -/

/-- BAD_REFERENCE at an entry of section `k` of the directory. -/
def badRef (k i : Nat) : LdFail := { reason := 0x64, sect := k, index := i }

/-- A range of offsets lies wholly within regions, given as base and length. [DEDUCED, log entry 33] -/
def covered (rs : List (Nat × Nat)) : Nat → Nat → Nat → Bool
  | 0, lo, hi => hi ≤ lo
  | f + 1, lo, hi =>
    if hi ≤ lo then true
    else match rs.find? fun r => r.1 ≤ lo && lo < r.1 + r.2 with
      | some r => covered rs f (r.1 + r.2) hi
      | none => false

/-- A range of `n` bytes lies wholly within regions. -/
def inRegions (rs : List (Nat × Nat)) (lo n : Nat) : Bool := covered rs rs.length lo (lo + n)

/-- A range of `n` bytes lies wholly within one region. -/
def inOne (rs : List (Nat × Nat)) (lo n : Nat) : Bool := rs.any fun r => r.1 ≤ lo && lo + n ≤ r.1 + r.2

/-- Two ranges share a byte. -/
def overlap (a b : Nat × Nat) : Bool := decide (a.1 < b.1 + b.2) && decide (b.1 < a.1 + a.2)

/-- The chip number and the machine size of an image. -/
def Image.chip (i : Image) : Nat := u i.hdr 0x20 2
/-- machine_size. -/
def Image.machine (i : Image) : Nat := u i.hdr 0x24 4

/-- The context that an image assigns to a tile. -/
def Image.tileCtx (i : Image) (t : Nat) : Option Nat := ((i.all 0x0E noInst).find? fun e => bitOf (u e 2 1) t).map fun e => u e 0 1

/-- The regions of a tile store that satisfy a test of their kind. -/
def Image.tileRegs (i : Image) (t : Nat) (p : Nat → Bool) : List (Nat × Nat) :=
  ((progRegions (i.prog t)).filter fun r => p r.2.2).map fun r => (r.1, r.2.1)

/-- The HBM and CXL regions that satisfy a test of their kind and owner. -/
def Image.memRegs (i : Image) (p : Nat → Nat → Bool) : List (Nat × Nat) :=
  (((i.all 0x0C noInst).drop 1).filter fun e => p (u e 0x11 1) (u e 0x10 1)).map fun e => (u e 0 8, u e 8 8)

/-- A range that a device address begins lies in one declared data region of tile t, on the image's chip (Table 4-5). -/
def Image.inTileRegion (i : Image) (t a n : Nat) : Bool :=
  n == 0 || (addrChip a == i.chip && storeBase t ≤ addrOff a && inOne (i.tileRegs t (· == 2)) (addrOff a - storeBase t) n)

/-- A range that a device address begins lies within data regions of tile t, on the image's chip (R229). -/
def Image.inTileData (i : Image) (t a n : Nat) : Bool :=
  n == 0 || (addrChip a == i.chip && storeBase t ≤ addrOff a && inRegions (i.tileRegs t (· == 2)) (addrOff a - storeBase t) n)

/-- A range that a device address begins lies within declared regions, or on another chip of the machine (R50). [DEDUCED, log entry 33] -/
def Image.declared (i : Image) (a n : Nat) : Bool :=
  if addrChip a ≠ i.chip then decide (addrChip a < i.machine)
  else
    let o := addrOff a
    if storeBase 0 ≤ o && o < storeBase 8 then
      let t := (o - storeBase 0) / 0x80000000
      inRegions (i.tileRegs t fun _ => true) (o - storeBase t) n
    else inRegions (i.memRegs fun _ _ => true) o n

/-- The groups of GROUP_TABLE. -/
def Image.groups (i : Image) : List (List Byte) := i.all 0x03 noInst

/-- Flag bits of a GROUP_TABLE entry. -/
def grpFlag (e : List Byte) (k : Nat) : Bool := bitOf (u e 0x19 1) k

/-- The member lists by group: of each entry with flags[3] = 0, its chip numbers in MEMBER_LISTS (R397). -/
def memberLists (chips : List Nat) : List (List Byte) → List (List Nat)
  | [] => []
  | e :: es =>
    let n := if grpFlag e 3 then 0 else u e 2 2
    chips.take n :: memberLists (chips.drop n) es

/-- Every member list, by group. -/
def Image.lists (i : Image) : List (List Nat) := memberLists ((i.all 0x04 noInst).map fun e => u e 0 2) i.groups

/-- The path in force of a port group (R151). -/
def State.groupPath (s : State) (g : Nat) : Nat := s.pathOf (4 * g)

/-- LINK_CLASS leaves a group on the path in force. -/
def State.pathKept (s : State) (i : Image) (g : Nat) : Bool := (i.path g).getD (s.groupPath g) == s.groupPath g

/-- The installed plan's hash: DEV_PLAN_HASH. -/
def State.planHash (s : State) : Nat := match s.hst.plan with | some p => u p.hash 0 8 | none => 0

end Sys2Proof.Machine
end

