-- ==== Sys2Proof/Machine/Stage6.lean ====
section
/-!
DEFINITION. Stage 6 of the load checks, in the order of R398: the header against the plan, the sections in directory order, and the
open contexts of a harvest load.
-/
namespace Sys2Proof.Machine

/-! ## TILE_PROG: bundles (R50, R52, R54, R57, R58, R84, R119) -/

/-- The loops open at each bundle, innermost first, each by the first bundle of its body (R50, R69). -/
def loopScan (ws : List Nat) : Nat → List Nat → List (List Nat)
  | i, st => match ws with
    | [] => []
    | w :: ws =>
      let code := fld (bunSync w) 34 6
      let st' := if code = 4 then (i + 1) :: st else if code = 5 then st.drop 1 else st
      st :: loopScan ws (i + 1) st'

/-- The loops still open after the last bundle. -/
def loopsLeft (ws : List Nat) : Nat → List Nat → List Nat
  | i, st => match ws with
    | [] => st
    | w :: ws =>
      let code := fld (bunSync w) 34 6
      loopsLeft ws (i + 1) (if code = 4 then (i + 1) :: st else if code = 5 then st.drop 1 else st)

/-- The tallies that a bundle names (R76): sync tallies, and those of its operation slots but for 0xFF. -/
def bunTallies (w : Nat) : List Nat :=
  let sy := bunSync w
  let op := fun (busy : Bool) (t : Nat) => if busy && t != 255 then [t] else []
  (if 1 ≤ fld sy 34 6 && fld sy 34 6 ≤ 3 then [fld sy 26 8] else []) ++
  ((List.range 4).flatMap fun a => op (fld (bunArr w a) 34 6 != 0) (fld (bunArr w a) 8 8)) ++
  ((List.range 2).flatMap fun i => op (fld (bunVec w i) 40 8 != 0) (fld (bunVec w i) 0 8)) ++
  ((List.range 4).flatMap fun i => op (fld (bunMov w i) 26 6 != 0) (fld (bunMov w i) 0 8)) ++
  (List.range 2).flatMap fun i => op (fld (bunFab w i) 34 6 != 0) (fld (bunFab w i) 8 8)

/-- A tally field of an operation slot is in range. -/
def tallyOk (t : Nat) : Bool := t < 248 || t == 255

/-- The sync slot is legal (Table 3-9, R50), in the loops given. -/
def syncOk (y : Nat) (open_ : List Nat) : Bool :=
  match fld y 34 6 with
  | 0 => fld y 0 34 == 0
  | 1 | 2 | 3 => fld y 26 8 < 248
  | 4 => fld y 10 24 != 0 && fld y 0 10 == 0 && open_.length < 8
  | 5 => fld y 0 34 == 0 && !open_.isEmpty
  | 6 | 7 => fld y 0 34 == 0 && open_.isEmpty
  | _ => false

/-- A vector slot is legal (Tables 3-3 and 3-4, R54, R57, R58, R119). -/
def vecOk (x : Section) (i y : Nat) : Bool :=
  let op := fld y 40 8
  let imm := fld y 8 10
  let sz := fld imm 0 4
  let k := fld imm 4 5
  let arith := decide (0x10 ≤ op) && decide (op ≤ 0x19)
  op == 0 ||
  ((vcodeOf op).isSome && (arith == (i == 0)) && fld y 38 2 != 3 && tallyOk (fld y 0 8) &&
   (!(0x30 ≤ op && op ≤ 0x40) || (1 ≤ sz && sz ≤ 11)) && (op != 0x40 || (1 ≤ k && k ≤ 16 && k ≤ 2 ^ sz)) &&
   (op != 2 || fld imm 0 2 != 3) && (op != 0x48 || (progProfile x sz).bit 9))

/-- The shape code that ARRAY_SHAPES gives array `a` of tile `t` at a bundle (R80). -/
def Image.shapeAt (i : Image) (t a bundle : Nat) : Nat :=
  match ((i.all 0x02 t).filter fun e => u e 0 4 ≤ bundle).getLast? with
  | some e => u e (4 + a) 1
  | none => 0

/-- An array slot is legal in its shape (Table 3-2, R52, and the checks of Table 4-5 reported by bundle). -/
def arrOk (x : Section) (shape y : Nat) : Bool :=
  let op := fld y 34 6
  let half := fld y 32 2
  let desc := fld y 16 16
  let d := progArr x desc
  let blk := if op = 1 then u d 0x46 2 else u d 0x44 2
  fld y 0 8 == 0 &&
  (op == 0 ||
   (op ≤ 4 && tallyOk (fld y 8 8) && desc < (progHdr x).arrDescs && half != 3 && ((half == 0) == decide (shape < 5)) &&
    (op == 1 || u d 0x3E 2 + u d 0x3C 2 ≤ shapeKs shape) &&
    (op == 4 || fld blk 0 3 == 0 || bitOf blk 3 || blockLen (fld blk 0 3) ≤ shapeKs shape)))

/-- A mover slot is legal (Table 3-6). -/
def movOk (x : Section) (y : Nat) : Bool :=
  fld y 26 6 == 0 || (fld y 26 6 == 1 && fld y 8 15 < (progHdr x).movDescs && tallyOk (fld y 0 8))

/-- A fabric slot is legal (Table 3-8). -/
def fabOk (x : Section) (y : Nat) : Bool :=
  fld y 32 2 == 0 && fld y 0 8 == 0 &&
  (fld y 34 6 == 0 || (fld y 34 6 ≤ 3 && fld y 16 16 < (progHdr x).fabDescs && tallyOk (fld y 8 8)))

/-- Every check of a bundle. -/
def Image.bundleOk (i : Image) (t k w : Nat) (open_ : List Nat) : Bool :=
  let x := i.prog t
  fld w 508 4 == 0 && fld w 504 4 == 1 && syncOk (bunSync w) open_ &&
  (List.range 4).all (fun a => arrOk x (i.shapeAt t a k) (bunArr w a)) &&
  (List.range 2).all (fun v => vecOk x v (bunVec w v)) &&
  (List.range 4).all (fun m => movOk x (bunMov w m)) &&
  (List.range 2).all fun f => fabOk x (bunFab w f)

/-! ## TILE_PROG: descriptors -/

/-- An array descriptor by itself (Table 4-5). In w_expand mode 0 the target names nothing, and any value of it is accepted. [DESIGN CHOICE, log entry 41] -/
def arrDescOk (d : List Byte) : Bool :=
  let xf := u d 0x40 1
  let wf := u d 0x41 1
  let xb := u d 0x44 2
  let wb := u d 0x46 2
  let we := u d 0x48 1
  let mode := fld we 0 2
  [0x00, 0x10, 0x28].all (fun o => u d o 8 % 64 == 0) && [0x30, 0x34, 0x38].all (fun o => u d o 4 % 64 == 0) && u d 0x3C 2 != 0 &&
  xf < 6 && wf < 8 && u d 0x42 1 ≤ 2 && u d 0x43 1 ≤ 1 && fld xb 0 3 != 7 && xb < 32 && fld wb 0 3 != 7 && wb < 32 && fld we 2 2 == 0 &&
  mode != 3 && allZero (slice d 0x49 55) && ((wf == 6 || wf == 7) == (mode != 0)) &&
  (mode == 0 || fld we 4 4 == 1 || fld we 4 4 == 3) && (mode != 1 || wf == 7) &&
  (fld xb 0 3 == 0 || (3 ≤ xf && xf ≤ 5)) && (fld wb 0 3 == 0 || 3 ≤ wf)

/-- The ranges of device addresses that an operation of a kind touches under a shape (R82, R106 to R108). -/
def arrRanges (d : List Byte) (op shape : Nat) : List (Nat × Nat) :=
  let ks := shapeKs shape
  let ns := shapeNs shape
  let rows := u d 0x3C 2
  let run := fun (o stride n len : Nat) => (List.range n).map fun k => (u d o 8 + k * stride, len)
  if op = 4 then run 0x28 (u d 0x38 4) rows (ns * (if u d 0x42 1 = 0 then 4 else 2))
  else if op = 1 then
    let (b, alongN, _) := blkSet (u d 0x46 2)
    let mode := fld (u d 0x48 1) 0 2
    let n := if b = 0 then (if mode = 2 then 1 else 0) else scaleCount alongN b ks ns
    run 0x10 (u d 0x34 4) ks (rowBytes (u d 0x41 1) ns) ++ [(u d 0x18 8, if mode = 2 then 4 * n else n)] ++
    [(u d 0x20 8, if mode = 1 then rowBytes (fld (u d 0x48 1) 4 4) 16 else 0)]
  else
    let (b, alongM, _) := blkSet (u d 0x44 2)
    run 0 (u d 0x30 4) rows (rowBytes (u d 0x40 1) ks) ++ [(u d 8 8, if b = 0 then 0 else scaleCount (!alongM) b rows ks)]

/-- The bundles of a tile, as numbers. -/
def Image.bundles (i : Image) (t : Nat) : List Nat := (List.range (progHdr (i.prog t)).bundles).map (progBundle (i.prog t))

/-- The operations that name an array descriptor, with their shapes. -/
def Image.arrUses (i : Image) (t desc : Nat) : List (Nat × Nat) :=
  ((List.range (progHdr (i.prog t)).bundles).zip (i.bundles t)).flatMap fun (b : Nat × Nat) => (List.range 4).filterMap fun a =>
    let y := bunArr b.2 a
    if fld y 34 6 != 0 && fld y 16 16 == desc then some (fld y 34 6, i.shapeAt t a b.1) else none

/-- Every check of an array descriptor. [DESIGN CHOICE, log entry 41] -/
def Image.arrDescOk (i : Image) (t desc : Nat) : Bool :=
  let d := progArr (i.prog t) desc
  Machine.arrDescOk d && (i.arrUses t desc).all fun (v : Nat × Nat) => (arrRanges d v.1 v.2).all fun (r : Nat × Nat) => i.inTileRegion t r.1 r.2

/-- Every check of a mover descriptor (R50, R60). -/
def Image.movDescOk (i : Image) (d : List Byte) : Bool :=
  let kind := movKind d
  let rb := movRowBytes d
  let rows := movRowCount d
  let y := u d 0x29 1
  [0, 8, 0x18, 0x20].all (fun o => u d o 8 % 64 == 0) && 64 ≤ rb && rb ≤ 16777216 && rb % 64 == 0 && 1 ≤ rows && rows ≤ 1048576 && kind ≤ 2 &&
  u d 0x2A 2 ≤ 3 && allZero (slice d 0x2C 20) &&
  (kind == 0 || (rb == (if movLanes16 d then 4096 else 8192) && y ≤ 31 && rows ≤ 32 - y)) &&
  (kind == 2 || (List.range rows).all fun r => i.declared (movAddr d 0 r) rb) &&
  (kind == 1 || (List.range rows).all fun r => i.declared (movAddr d 8 r) rb)

/-- The fabric slots (1 SEND, 2 EXPECT, 3 JOIN) that name a fabric descriptor. -/
def Image.fabUses (i : Image) (t desc : Nat) : List Nat :=
  (i.bundles t).flatMap fun w => (List.range 2).filterMap fun f =>
    let y := bunFab w f
    if fld y 34 6 != 0 && fld y 16 16 == desc then some (fld y 34 6) else none

/-- The ranges that a fabric descriptor gives its slots (R226, R228, R241, R243). -/
def fabRanges (g : GrpCfg) (d : List Byte) (uses : List Nat) : List (Nat × Nat) :=
  let op := u d 4 1
  let n := g.n
  let count := u d 0xC 4
  let a := u d 0x10 8
  let bytes := count * colSize (u d 6 1)
  let c := ceilDiv bytes 4096
  let sh := ceilDiv c n
  let lo := g.my * sh * 4096
  let own := min bytes ((g.my + 1) * sh * 4096) - lo
  let slot := if n ≤ 512 then count else g.cap
  let send := match op with | 3 => (a + lo, own) | 6 => (a, n * count) | 7 => (a, count) | 8 => (a, 0) | _ => (a, bytes)
  let exp := match op with
    | 2 => (a, own)
    | 4 => (a, if g.my = u d 0xA 2 then bytes else 0)
    | 6 => (a, n * slot)
    | 7 => (a, count)
    | 8 => (a, 0)
    | _ => (a, bytes)
  (if uses.contains 1 then [send] else []) ++ (if uses.contains 2 then [exp] else []) ++
  (if op = 7 || (op = 6 && u d 0x18 8 ≠ 0) then [(u d 0x18 8, 8 * n)] else []) ++
  (if u d 0x20 8 ≠ 0 then [(u d 0x20 8, 32)] else [])

/-- Every check of a fabric descriptor (R227, R229, R250). [DEDUCED, log entry 33] -/
def Image.fabDescOk (i : Image) (t desc : Nat) : Bool :=
  let d := progFab (i.prog t) desc
  let uses := i.fabUses t desc
  let op := u d 4 1
  let fmt := u d 6 1
  let named := u d 5 1
  match i.groups[u d 0 2]? with
  | none => false
  | some e =>
    let g := grpOf e
    let oper := if named = 0xFF then g.defOp else named
    let reduces := op == 1 || op == 2 || op == 4
    let wide := reduces && isWide oper
    u d 0 2 < 16384 && !g.treeOnly && i.tileCtx t == some g.ctx && 1 ≤ op && op ≤ 8 && (fmt ≤ 2 || fmt == 7) && u d 7 1 ≤ 1 &&
    u d 0x28 4 == 0 && allZero (slice d 0x2C 20) && (op == 6 || op == 7 || u d 0x18 8 == 0) &&
    (!(uses.contains 3 && !uses.contains 1 && !uses.contains 2) || u d 0x10 8 == 0) &&
    (if reduces then oper ≤ 4 && fmt ≤ 2 else if op == 8 then (named == 0xFF || named == 2) && fmt ≤ 2 else named == 0xFF) &&
    u d 0xA 2 < g.n && (op != 7 || g.n ≤ 512) &&
    (!wide || (-256 ≤ signed 16 (u d 8 2) && signed 16 (u d 8 2) ≤ 256)) && (!(wide && (fmt == 1 || fmt == 2)) || g.window != 1) &&
    (fabRanges g d uses).all fun (r : Nat × Nat) => i.inTileData t r.1 r.2

/-! ## TILE_PROG as a whole (R76, R119, R398) -/

/-- The first 4 KiB boundary at or after an offset. -/
def page (o : Nat) : Nat := roundUp o 4096

/-- Where the three descriptor tables of a tile lie, with their lengths (R76). -/
def descTables (h : ProgHdr) : List (Nat × Nat) :=
  let a := (h.descBase, 128 * h.arrDescs)
  let m := (page (a.1 + a.2), 64 * h.movDescs)
  [a, m, (page (m.1 + m.2), 64 * h.fabDescs)]

/-- The end of the last table that holds a descriptor. -/
def descEnd (h : ProgHdr) : Nat := maxOf ((descTables h).map fun x => if x.2 = 0 then 0 else x.1 + x.2)

/-- The tally map that the bundles ask for. -/
def talliesNamed (ws : List Nat) : Nat :=
  let ts := ws.flatMap bunTallies
  total ((List.range 256).map fun k => if ts.contains k then 2 ^ k else 0)

/-- The checks of the TILE_PROG section of tile `t`, section `k` of the directory. -/
def Image.checkProg (i : Image) (k t : Nat) : Option LdFail :=
  let x := i.prog t
  let h := progHdr x
  let rs := progRegions x
  let ws := i.bundles t
  let opens := loopScan ws 0 []
  firstFail [
    failAt (fun r (v : Nat × Nat × Nat) =>
      let e := slice (x.entry (h.regAt + r / 4)) (16 * (r % 4)) 16
      failIf (2 < v.2.2 || !allZero (slice e 9 7) || v.1 % 4096 ≠ 0 || v.2.1 % 4096 ≠ 0 || v.2.1 < 4096 || 2147483648 < v.1 + v.2.1 ||
        (List.range rs.length).any fun j => j != r && overlap (v.1, v.2.1) (let w := progRegion x j; (w.1, w.2.1)))
        (badRef k (0x40000000 + r))) rs,
    failIf (!inOne (i.tileRegs t (· == 0)) h.progBase (64 * h.bundles)) (badRef k 0),
    failIf (descEnd h ≠ 0 && !inOne (i.tileRegs t (· == 1)) h.descBase (descEnd h - h.descBase)) (badRef k 0),
    failIf (talliesNamed ws ≠ progTallyMap x) (badRef k 1),
    (List.range 16).findSome? fun n =>
      let v := progProfile x n
      failIf (v.bit 9 && (v.fld 0 3 < 3 || 5 < v.fld 0 3 || v.bit 3 || 6 < v.fld 4 3 || v.bit 7 || v.fld 10 54 ≠ 0)) (badRef k (0x80000000 + n)),
    failAt (fun b (w : Nat × List Nat) => failIf (!i.bundleOk t b w.1 w.2) (badRef k b)) (ws.zip opens),
    (match loopsLeft ws 0 [] with
     | b :: _ => some (badRef k (b - 1))
     | [] => none),
    failIf (ws.all fun w => fld (bunSync w) 34 6 != 6 && fld (bunSync w) 34 6 != 7) (badRef k (h.bundles - 1)),
    (List.range h.arrDescs).findSome? fun d => failIf (!i.arrDescOk t d) (badRef k d),
    (List.range h.movDescs).findSome? fun d => failIf (!i.movDescOk (progMov x d)) (badRef k d),
    (List.range h.fabDescs).findSome? fun d => failIf (!i.fabDescOk t d) (badRef k d)]

/-! ## The other sections -/

/-- ARRAY_SHAPES of tile `t` (R80). -/
def Image.checkShapes (i : Image) (k t : Nat) : Option LdFail :=
  let es := i.all 0x02 t
  let opens := loopScan (i.bundles t) 0 []
  failAt (fun j e =>
    let st := u e 0 4
    failIf (4096 ≤ j || (j = 0 && st ≠ 0) || (0 < j && st ≤ u (es.getD (j - 1) []) 0 4) || (progHdr (i.prog t)).bundles ≤ st ||
      [4, 5, 6, 7].any (fun o => 5 < u e o 1) || 48000 < u e 8 4 || u e 0xC 4 ≠ 0 || (opens.getD st []).any (· != st)) (badRef k j)) es

/-- A member list is sound: no chip twice, none at or above machine_size, and this chip at my_index (R225). -/
def Image.listOk (i : Image) (g : GrpCfg) (l : List Nat) : Bool :=
  l.length == g.n && l.all (· < i.machine) && l.eraseDups.length == l.length && l[g.my]? == some i.chip

/-- The ports of a group's tree. -/
def treePorts (g : GrpCfg) : List Nat := (if g.up < 48 then [g.up] else []) ++ (List.range 48).filter fun p => bitOf g.down p

/-- A GROUP_TABLE entry of a member (R225, R132, R397). -/
def Image.groupOk (i : Image) (j : Nat) (e : List Byte) : Bool :=
  let g := grpOf e
  let l := i.lists.getD j []
  let before := (i.groups.take j).filter fun x => !grpFlag x 3
  1 ≤ g.n && g.n ≤ 16384 && g.my < g.n && (if g.n = 1 then g.ring == 0xFFFF else g.ring < 4096) && 1 ≤ g.window &&
  g.window ≤ 16 && g.defOp ≤ 4 && g.quota ≤ 1536 && 4000 ≤ g.pwin && g.pwin ≤ 16777216 && g.cap % 256 == 0 && 256 ≤ g.cap && g.cap ≤ 16777216 &&
  (if g.tree && g.root != g.my then g.up < 48 else g.up == 0xFF) && (!g.tree || g.root < g.n) &&
  (l.length != g.n || i.listOk g l) &&
  (g.n < 2 || (i.all 0x05 noInst).any fun r => (ringOf r).ring == g.ring && !(ringOf r).transit) &&
  inOne (i.memRegs fun k _ => k == 2) g.list (2 * g.n) &&
  !before.any fun x => overlap (g.list, 2 * g.n) ((grpOf x).list, 2 * (grpOf x).n)

/-- A tree_only entry (R225). -/
def treeOnlyOk (e : List Byte) : Bool :=
  let g := grpOf e
  u e 0x19 1 == 0xA && g.up < 48 && !g.deliver && g.ring == 0xFFFF && g.n == 0 && g.my == 0 && g.list == 0 && g.stats == 0 && g.window == 0 &&
  g.quota == 0 && g.cap == 0 && g.pwin == 0 && g.root == 0 && g.defOp ≤ 4

/-- GROUP_TABLE. -/
def State.checkGroups (s : State) (i : Image) (k : Nat) : Option LdFail :=
  failAt (fun j e =>
    let g := grpOf e
    let form := u e 0 2 == j && u e 0x18 1 ≤ 3 && u e 0x19 1 < 16 && g.ctx < 64 && u e 0x1F 1 == 0 && u e 0x27 1 == 0 && fld (u e 0x28 8) 49 15 == 0 &&
      allZero (slice e 0x34 12) && (i.ctxEntry g.ctx).isSome
    let body := if g.treeOnly then treeOnlyOk e else i.groupOk j e
    failIf (!form || !body || (g.tree && (treePorts g).any fun p => !s.pathKept i (p / 4))) (badRef k j)) i.groups

/-- MEMBER_LISTS (R397, R398). -/
def Image.checkLists (i : Image) (k : Nat) : Option LdFail :=
  let es := i.all 0x04 noInst
  firstFail [
    failIf (es.length ≠ total ((i.groups.filter fun e => !grpFlag e 3).map fun e => u e 2 2)) (badRef k 0),
    failAt (fun j e => failIf (i.machine ≤ u e 0 2) (badRef k j)) es]

/-- A port of a ring is up in the sense of stage 6, on a group whose path stays (R152). -/
def State.ringPortOk (s : State) (i : Image) (p : Nat) : Bool :=
  ((s.port p).st == 3 || (s.port p).st == 4) && s.pathKept i (p / 4)

/-- RING_TABLE (R190, R220, R152). -/
def State.checkRings (s : State) (i : Image) (k : Nat) : Option LdFail :=
  let es := i.all 0x05 noInst
  let quota := match (i.all 0x08 noInst)[1]? with | some e => u e 4 4 | none => 0
  failAt (fun j e =>
    let r := ringOf e
    let before := (es.take j).map ringOf
    firstFail [
      failIf (4096 ≤ j || 4096 ≤ r.ring || 1 < u e 2 1 || 1 < r.vcIn || 48 ≤ r.ingress || 48 ≤ r.egress || 1 < r.dateLine || r.vcBuf = 0 || 4 < r.vcBuf ||
        r.slots = 0 || 960 < r.slots || !allZero (slice e 0xA 22) || r.ingress = r.egress ||
        before.any (fun b => b.ring == r.ring && (b.ingress == r.ingress || b.egress == r.egress)) ||
        ((i.wheel r.egress).filter (· == r.ring)).length ≠ r.slots ||
        quota < total ((before ++ [r]).map fun b => 18 * b.vcBuf)) (badRef k j),
      failIf (!s.ringPortOk i r.ingress || !s.ringPortOk i r.egress) { reason := 0x63, sect := k, index := r.ring }]) es

/-- SLOT_WHEEL (R190): each slot names a ring with an entry on that egress port. [DEDUCED, log entry 33] -/
def Image.checkWheel (i : Image) (k : Nat) : Option LdFail :=
  let n := match i.sec 0x06 noInst with | some x => x.count | none => 0
  firstFail [
    (List.range 48).findSome? fun p =>
      failAt (fun j v => failIf (v ≠ 0xFFFF && !(i.all 0x05 noInst).any fun e => (ringOf e).ring == v && (ringOf e).egress == p)
        (badRef k (1024 * p + j))) (i.wheel p),
    failIf (n ≠ 49152) (badRef k (min n 49152))]

/-- SCHED_TREE (R204). [DEDUCED, log entry 33] -/
def Image.checkSched (i : Image) (k : Nat) : Option LdFail :=
  let es := i.all 0x07 noInst
  let subs := (es.drop 8).map fun e => (u e 1 1, u e 2 1)
  firstFail [
    failAt (fun j e =>
      let v := u e 1 1
      let sub := u e 2 1
      let rate := u e 4 2
      failIf (528 ≤ j || (if j < 8 then u e 0 1 ≠ 0 || v ≠ j || sub ≠ 0xFF || !subs.contains (j, 64) else u e 0 1 ≠ 1 || 7 < v || 64 < sub) ||
        u e 3 1 = 0 || 400 < rate || u e 6 2 ≠ 0 || (rate ≠ 0 && (u e 8 4 < 320 || 16777215 < u e 8 4 || v < 2)) || 1 < u e 0xC 1 ||
        !allZero (slice e 0xD 19) || (8 ≤ j && (subs.take (j - 8)).contains (v, sub))) (badRef k j)) es,
    failIf (es.length < 8) (badRef k es.length)]

/-- QUOTA (R220). -/
def Image.checkQuota (i : Image) (k : Nat) : Option LdFail :=
  let es := i.all 0x08 noInst
  firstFail [
    failAt (fun j e => failIf (7 ≤ j || u e 0 1 ≠ j + 1 || !allZero (slice e 1 3) || !allZero (slice e 8 8)) (badRef k j)) es,
    failIf (es.length ≠ 7) (badRef k es.length)]

/-! ### CRY_GROUPS (R276) -/

/-- A finite FP32 code above 0. -/
def posCode (c : Nat) : Bool := 0 < c && c < 0x7F800000
/-- A finite FP32 code at or above 0. -/
def nonNegCode (c : Nat) : Bool := c < 0x7F800000 || c == 0x80000000
/-- An FP32 code in [0, 1). -/
def betaCode (c : Nat) : Bool := c < 0x3F800000 || c == 0x80000000
/-- A finite FP32 code other than 0. -/
def finiteNonZero (c : Nat) : Bool := c % 2 ^ 31 != 0 && c % 2 ^ 31 < 0x7F800000

/-- The ranges of an entry (R275). -/
def cryRanges (b : List Byte) : List (Nat × Nat) :=
  let e := cryEntryOf b
  (if e.replica then [] else [(e.state, 4 * e.n), (e.mAddr, e.momSize * e.n), (e.vAddr, e.momSize * e.n), (e.gAddr, e.gradSize * e.n)]) ++
  [(e.fwdAddr, e.span)]

/-- Every range of every entry on the chip, with its tile and entry. -/
def Image.cryAll (i : Image) : List ((Nat × Nat × Nat) × (Nat × Nat)) :=
  (List.range 8).flatMap fun t => ((List.range (i.all 0x09 t).length).zip (i.all 0x09 t)).flatMap fun (x : Nat × List Byte) =>
    ((List.range (cryRanges x.2).length).zip (cryRanges x.2)).map fun (r : Nat × Nat × Nat) => ((t, x.1, r.1), r.2)

/-- The fields of an entry are in range, and those its role does not use are 0 (Table 12-1, R275). -/
def cryFieldsOk (b : List Byte) : Bool :=
  let flags := u b 1 1
  let fwd := fld (u b 2 1) 4 4
  let size := fld (u b 2 1) 0 3
  let common := u b 0 1 ≤ 1 && (fwd == 1 || fwd == 3 || fwd == 5) && !bitOf (u b 2 1) 3 && size != 7 && (fwd != 1 || size == 0) && 1 ≤ u b 8 4 &&
    u b 8 4 ≤ 2147483648 && u b 0x38 8 % 4096 == 0
  if u b 0 1 = 0 then
    common && flags < 32 && betaCode (u b 0x10 4) && betaCode (u b 0x14 4) && posCode (u b 0x18 4) && nonNegCode (u b 0x1C 4) && posCode (u b 0x20 4) &&
    finiteNonZero (u b 0x24 4) && u b 0x28 8 % 4096 == 0 && u b 0x30 8 % 64 == 0
  else common && flags < 2 && u b 3 1 == 0 && u b 4 2 == 0xFFFF && allZero (slice b 0xC 44)

/-- The groups of an entry serve it (R276). -/
def Image.cryGroupsOk (i : Image) (t : Nat) (b : List Byte) : Bool :=
  let e := cryEntryOf b
  let g := fun (k : Nat) => (i.groups[k]?).map grpOf
  let fabs := (List.range 8).flatMap fun v => let x := i.prog v; (List.range (progHdr x).fabDescs).map fun d => u (progFab x d) 0 2
  let normOk := e.replica || match g e.norm with
    | some c => c.norm && some c.ctx == i.tileCtx t && 20 * c.window ≤ c.quota &&
        (List.range 8).all fun v => v == t || !(i.all 0x09 v).any fun x => !(cryEntryOf x).replica && (cryEntryOf x).norm == e.norm
    | none => false
  let mcastOk := if e.replica then
      match g e.mcast with
      | some c => c.tree && c.root != c.my && c.deliver
      | none => false
    else e.mcast == 0xFFFF || match g e.mcast with
      | some c => c.tree && c.root == c.my
      | none => false
  normOk && mcastOk && !fabs.any (fun f => (!e.replica && f == e.norm) || f == e.mcast) &&
  (e.replica || ((i.all 0x0A noInst).drop 1).any fun x => u x 0 1 == e.sched)

/-- CRY_GROUPS of tile `t`. -/
def Image.checkCry (i : Image) (k t : Nat) : Option LdFail :=
  let all_ := i.cryAll
  let regs := i.memRegs fun kind owner => (kind == 1 || kind == 4) && (owner == 255 || some owner == i.tileCtx t)
  failAt (fun j b =>
    let mine := cryRanges b
    failIf (8192 ≤ j || !cryFieldsOk b || !mine.all (fun r => inRegions regs r.1 r.2) ||
      (((List.range mine.length).zip mine).any fun (r : Nat × Nat × Nat) => all_.any fun x => x.1 != (t, j, r.1) && overlap x.2 r.2) ||
      !i.cryGroupsOk t b || i.vote (36 + t) ≠ 3) (badRef k j)) (i.all 0x09 t)

/-! ### CRY_SCHEDULES, POWER_VOTES, HBM_LAYOUT, LINK_CLASS, CONTEXTS -/

/-- The form of schedule `n` among the breakpoints (R277). -/
def schedOk (bs : List (List Byte)) (n : Nat) : Bool :=
  let own := bs.filter fun b => u b 0 1 == n
  let after := (bs.dropWhile fun b => u b 0 1 != n).dropWhile fun b => u b 0 1 == n
  let eta := fun (b : List Byte) => u b 8 8
  let inf := 0x7FF0000000000000
  1 ≤ own.length && own.length ≤ 64 && (own.head?.map fun b => u b 4 4) == some 0 && (after.all fun b => u b 0 1 != n) &&
  (own.zip (own.drop 1)).all (fun (x : List Byte × List Byte) => u x.1 4 4 < u x.2 4 4 &&
    (u x.1 1 1 != 1 || (0 < eta x.1 && eta x.1 < inf && 0 < eta x.2 && eta x.2 < inf))) &&
  own.all fun b => (eta b < inf || eta b == 2 ^ 63) && u b 1 1 ≤ 1 && u b 2 2 == 0

/-- CRY_SCHEDULES (R132, R277). -/
def Image.checkSchedules (i : Image) (k : Nat) : Option LdFail :=
  let es := i.all 0x0A noInst
  let bs := es.drop 1
  firstFail [
    failIf (!bs.isEmpty && !inOne (i.memRegs fun kind _ => kind == 3) (u (es.getD 0 []) 0 8) (16 * bs.length)) (badRef k 0),
    (List.range (if bs.isEmpty then 0 else maxOf (bs.map fun b => u b 0 1) + 1)).findSome? fun n =>
      failIf (!schedOk bs n) { reason := 0x65, sect := k, index := n }]

/-- The state a vote asks for, as a number: none counts as OFF (R315). -/
def voteRank (v : Nat) : Nat := v - 1

/-- POWER_VOTES (R315). -/
def Image.checkVotes (i : Image) (k : Nat) : Option LdFail :=
  let es := i.all 0x0B noInst
  let vote := fun (d : Nat) => u (es.getD d []) 1 1
  firstFail [
    failAt (fun j e =>
      let v := u e 1 1
      failIf (84 ≤ j || u e 0 1 ≠ j || 3 < v || u e 2 2 ≠ 0 || (j = 0 && v ≠ 3) ||
        (match domParent j with | some p => voteRank (vote p) < voteRank v | none => false) ||
        ((j = 1 || (20 ≤ j && j < 28 && (i.tileCtx (j - 20)).isSome)) && v ≠ 3)) (badRef k j)) es,
    failIf (es.length ≠ 84) (badRef k es.length)]

/-- The old offset of the byte at a stack and location. -/
def offsetOf (striped : Bool) (x : Nat × Nat) : Nat :=
  if striped then (x.2 / 4096 * 8 + x.1) * 4096 + x.2 % 4096 else x.1 * stackSize + x.2

/-- A region under the new interleave shares a byte with the staged range under the interleave in force (R133). -/
def shares (old new : Bool) (reg staged : Nat × Nat) : Bool :=
  if old = new then overlap reg staged
  else (List.range (reg.2 / 4096)).any fun q =>
    let o := offsetOf old (stackOf new (reg.1 + 4096 * q))
    overlap (o, 4096) staged

/-- HBM_LAYOUT (R132, R133). -/
def State.checkLayout (s : State) (i : Image) (k : Nat) : Option LdFail :=
  let es := i.all 0x0C noInst
  let new := bitOf (u (es.getD 0 []) 0x12 1) 0
  let staged := ((s.rg (devR 0x070)).fld 0 50, (s.rg (devR 0x078)).fld 0 33)
  firstFail [
    failIf es.isEmpty (badRef k 0),
    failAt (fun j e =>
      let b := u e 0 8
      let n := u e 8 8
      let owner := u e 0x10 1
      let kind := u e 0x11 1
      let cxl := 0x100000000000 ≤ b && b + n ≤ 0x200000000000
      let bad := !allZero (slice e 0x13 13) ||
        (if j = 0 then kind ≠ 0 || b ≠ 0 || n ≠ 0 || owner ≠ 0xFF || 1 < u e 0x12 1 || (s.ld.atHarvest && new != s.striped)
         else kind = 0 || 4 < kind || u e 0x12 1 ≠ 0 || b % 4096 ≠ 0 || n % 4096 ≠ 0 || n < 4096 || !(b + n ≤ 0x6000000000 || cxl) ||
           (owner ≠ 0xFF && (i.ctxEntry owner).isNone) || (cxl && (kind = 2 || kind = 3)) ||
           (List.range es.length).any fun m => m != 0 && m != j && overlap (b, n) (let x := es.getD m []; (u x 0 8, u x 8 8)))
      firstFail [
        failIf bad (badRef k j),
        failIf (j ≠ 0 && (kind = 2 || kind = 3) && shares s.striped new (b, n) staged) { reason := 0x66, sect := k, index := j }]) es]

/-- LINK_CLASS (R151, R152). [DEDUCED, log entry 33] -/
def State.checkLinks (s : State) (i : Image) (k : Nat) : Option LdFail :=
  failAt (fun j e => firstFail [
    failIf (11 < u e 0 1 || 1 < u e 1 1 || u e 2 2 ≠ 0) (badRef k j),
    failIf (s.ld.atHarvest && u e 1 1 ≠ s.groupPath (u e 0 1)) (badRef k (u e 0 1))]) (i.all 0x0D noInst)

/-- CONTEXTS (R204, R210). -/
def Image.checkCtxs (i : Image) (k : Nat) : Option LdFail :=
  let es := i.all 0x0E noInst
  let nodes := ((i.all 0x07 noInst).drop 8).map fun e => (u e 1 1, u e 2 1)
  failAt (fun j e =>
    let before := es.take j
    failIf (63 < u e 0 1 || 1 < u e 1 1 || 64 < u e 3 1 || !allZero (slice e 4 28) ||
      before.any (fun b => u b 0 1 == u e 0 1 || (List.range 8).any fun t => bitOf (u b 2 1) t && bitOf (u e 2 1) t) ||
      !(List.range 8).all fun v => nodes.contains (v, u e 3 1)) (badRef k j)) es

/-! ## The stage -/

/-- One section's checks. -/
def State.checkSection (s : State) (i : Image) (k : Nat) (x : Section) : Option LdFail :=
  match x.typ with
  | 0x01 => i.checkProg k x.inst
  | 0x02 => i.checkShapes k x.inst
  | 0x03 => s.checkGroups i k
  | 0x04 => i.checkLists k
  | 0x05 => s.checkRings i k
  | 0x06 => i.checkWheel k
  | 0x07 => i.checkSched k
  | 0x08 => i.checkQuota k
  | 0x09 => i.checkCry k x.inst
  | 0x0A => i.checkSchedules k
  | 0x0B => i.checkVotes k
  | 0x0C => s.checkLayout i k
  | 0x0D => s.checkLinks i k
  | 0x0E => i.checkCtxs k
  | _ => none

/-- Every open context stands in CONTEXTS with the same privileged attribute; the first that does not, at a stage (Tables 2-6 and 2-7). -/
def State.checkOpen (s : State) (i : Image) : Option LdFail :=
  s.ctxs.findSome? fun (c : Nat × Ctx) =>
    failIf (c.2.st == 1 && (match i.ctxEntry c.1 with | some (priv, _, _) => priv != c.2.priv | none => true))
      { reason := 0x67, sect := i.secIx 0x0E noInst, index := c.1 }

/-- Stage 6 (R398). -/
def State.stage6 (s : State) (i : Image) : Option LdFail :=
  firstFail [
    failIf (i.chip ≠ s.chip) { reason := 0x60 },
    failIf (u i.hdr 0x28 8 ≠ s.planHash) { reason := 0x61 },
    failIf (some i.machine ≠ s.hst.plan.map fun p => p.machine) { reason := 0x62 },
    failAt (s.checkSection i) i.secs,
    if s.ld.atHarvest then s.checkOpen i else none]

end Sys2Proof.Machine
end

