-- ==== Sys2Proof/Machine/Loader.lean ====
section
/-!
DEFINITION. The loader (Table 2-5, R36 to R45), the swap of destination-table banks at a harvest hold (R197, R198), the commit (R43, R316),
and the return to no image in force (R337, R399).
-/
namespace Sys2Proof.Machine

/-- Harvest number `a` is later than `b` (R292). -/
def laterHarvest (a b : Nat) : Bool := let d := (a + 2 ^ 32 - b) % 2 ^ 32; 1 ≤ d && d < 2 ^ 31

/-- Every open context is held, or no context is open (Table 2-5). -/
def State.holdsComplete (s : State) : Bool := if s.ctxs.any fun (x : Nat × Ctx) => x.2.st == 1 then s.allHeld else s.allFree

/-- A pending request can no longer be met: the context it names has passed the harvest, cannot harvest, or is torn down beside an open one,
without having been held (R44). -/
def State.targetGone (s : State) (t : Nat × Nat) (met : Bool) : Bool :=
  let x := s.ctx t.1
  !met && (if x.st = 1 then !x.held && (laterHarvest x.harvest t.2 || !s.canHarvest t.1)
           else s.ctxs.any fun (y : Nat × Ctx) => y.2.st == 1)

/-! ## Bank swaps -/

/-- The banks swap (R197). [DEDUCED, log entry 34] -/
def State.swapDo (s : State) : State :=
  let s := s.modSwc fun x => { x with bank := 1 - x.bank, pend := false, result := 1, swaps := (x.swaps + 1) % 2 ^ 16, heldAt := none, met := false }
  (s.wantVec 3).note 3 3 s.rteStatus

/-- A pending swap ends without a swap; contexts that no load holds are released (R198). [DESIGN CHOICE, log entry 22, DEDUCED, log entry 88] -/
def State.swapEnd (s : State) (result : Nat) : State :=
  let s := s.modSwc fun x => { x with pend := false, result := result, heldAt := none, met := false }
  if s.ld.state = 2 then s else s.releaseAll

/-- RTE_CTRL.swap_now. [DEDUCED, log entry 34] -/
def State.swapNow (s : State) : State := if !s.up 3 then s else if s.quiescent then s.swapDo else s.flag 3 5

/-- RTE_CTRL.swap_at_harvest (R197, R198). [DEDUCED, log entry 88] -/
def State.swapAtHarvest (s : State) : State :=
  let (c, _) := s.swapTarget
  if !s.up 3 then s
  else if s.swc.pend || (s.ctx c).st ≠ 1 || !s.canHarvest c then s.flag 3 5
  else
    let pending := s.ld.state == 2
    let s := s.modSwc fun x => { x with pend := true, heldAt := if pending then s.ld.heldAt else none, met := pending && s.ld.met }
    if pending && s.loadTarget != s.swapTarget then s.swapEnd 5 else s

/-- RTE_CTRL.cancel. -/
def State.swapCancel (s : State) : State := if s.up 3 && s.swc.pend then s.swapEnd 4 else s

/-- ROUTE_SWAP: every open context is held, and no load shares the hold. [DEDUCED, log entry 88] -/
def State.routeSwap (s : State) : State :=
  if s.up 3 && s.swc.pend && s.ld.state != 2 && s.holdsComplete then s.swapDo.releaseAll else s

/-- RTE_CTRL (Table 8-8). [DEDUCED, log entry 88] -/
def State.rteCtrl (s : State) (v : W64) : State :=
  match v.fld 0 3 with
  | 0 => s
  | 1 => s.swapNow
  | 2 => s.swapAtHarvest
  | 4 => s.swapCancel
  | _ => if s.up 3 then s.flag 3 5 else s

/-! ## States of the loader -/

/-- DEV_LOAD_STATUS (Table 2-4). [DESIGN CHOICE, log entry 35] -/
def State.loadStatus (s : State) : W64 :=
  put 32 s.ld.index ||| put 24 (s.ld.sect % 256) ||| put 16 s.ld.reason ||| put 8 s.ld.stage ||| put 0 s.ld.state

/-- DEV_LOAD_DETAIL (Table 2-4). -/
def State.loadDetail (s : State) : W64 := put 32 (s.ld.limit % 2 ^ 32) ||| put 0 (s.ld.value % 2 ^ 32)

/-- A transition of Table 2-5: status, vector 0 and a recorder entry. [DESIGN CHOICE, log entry 22, DESIGN CHOICE, log entry 35] -/
def State.loadTo (s : State) (state stage : Nat) (f : LdFail := { reason := 0 }) : State :=
  let s := { s with ld := { s.ld with state := state, stage := stage, reason := f.reason, sect := f.sect, index := f.index, value := f.value,
                                      limit := f.limit } }
  (s.wantVec 0).note 0 1 s.loadStatus

/-- A request is refused (R41): the reason, the count, the S0 note, and the release of the contexts that it
held itself: only a load that was pending or committing holds any (Table 2-5, R198). -/
def State.refuse (s : State) (f : LdFail) (stage : Nat) : State :=
  let pending := s.ld.state == 2
  let holds := pending || s.ld.state == 3
  let s := s.loadTo 5 stage f
  let s := { s with ld := { s.ld with img := none, raw := [], cancel := false, copying := false, heldAt := none, met := false } }
  let s := (s.sat (devR 0x0B0) 0 16 1).flag 0 3 { detail := s.loadStatus }
  if !holds then s
  else if pending && s.swc.pend then
    if f.reason = 0x71 then s.swapEnd 2 else if f.reason = 0x04 then s.swapEnd 3 else s
  else s.releaseAll

/-! ## No image in force -/

/-- Loose and tree packets take their places in the scheduler tree that now holds (R203, R205). [DEDUCED, log entry 34] -/
def State.relist (s : State) : State :=
  let insert := fun (q : QPkt) (l : List QPkt) => (l.filter fun k => k.ord ≤ q.ord) ++ [q] ++ l.filter fun k => q.ord < k.ord
  let place := fun (m : Table Node) (q : QPkt) =>
    let n := s.nodeFor q.pkt.service (s.subscriber q.pkt)
    m.set n { m.get {} n with q := (m.get {} n).q ++ [q] }
  let again := fun (x : Port) =>
    let l := (x.nodes.flatMap fun (n : Nat × Node) => n.2.q).foldl (fun l q => insert q l) []
    { x with nodes := l.foldl place [], vt := [] }
  { s with ports := s.ports.map fun (p : Nat × Port) => (p.1, again p.2), shapes := [], newShapes := [] }

/-- The structure returns to the form it has before the first image (R399). -/
def State.structReset (s : State) : State :=
  let s := { s with img := none, ld := { s.ld with gone := false }, vcBobs := [], grps := [] }
  let s := { s with arrs := s.arrs.map fun (a : Nat × Arr) => (a.1, { a.2 with shape := 0, next := [] }) }
  let s := ((List.range 8).flatMap fun t => (List.range 16).map fun n => (t, n)).foldl
    (fun (s : State) (x : Nat × Nat) => s.setRg (blkR (encBlk x.1) (0x080 + 8 * x.2)) 0) s
  s.relist.clearSlot 2

/-- The image is no longer in force; its structure goes once every context is FREE (R399). [DEDUCED, log entry 34] -/
def State.dropImage (s : State) : State :=
  if s.img.isNone then s
  else if s.allFree then s.structReset
  else { s with ld := { s.ld with gone := true } }

/-- STRUCTURE_RESET: the first cycle with no image in force and every context FREE. [DEDUCED, log entry 34] -/
def State.structureReset (s : State) : State := if s.ld.gone && s.allFree then s.structReset else s

/-- IMAGE_LOST (R337): content that the image placed is gone. [DEDUCED, log entry 34] -/
def State.loseImage (s : State) (injected : Bool := false) : State :=
  if s.inForce.isNone then s
  else (s.flag 0 9 { injected := injected }).imageLost.dropImage

/-! ## The commit -/

/-- What a commit writes to HBM: each group's member list (R397), and the breakpoints (R277). -/
def Image.hbmWrites (i : Image) : List (Nat × List Byte) :=
  ((i.groups.zip i.lists).filter fun x => !grpFlag x.1 3).map (fun x => ((grpOf x.1).list, x.2.flatMap (leBytes 2))) ++
  match i.sec 0x0A noInst with
  | some x => if 1 < x.count then [(u (x.entry 0) 0 8, x.entries 1 (x.count - 1))] else []
  | none => []

/-- What a commit writes to the store of tile `t` (R76). -/
def Image.storeWrites (i : Image) (t : Nat) : List (Nat × List Byte) :=
  let x := i.prog t
  let h := progHdr x
  let b := storeBase t
  let at_ := fun (k n : Nat) => x.entries k n
  let lens := [at_ h.arrAt (2 * h.arrDescs), at_ h.movAt h.movDescs, at_ h.fabAt h.fabDescs]
  (b + h.progBase, at_ h.bunAt h.bundles) :: (((descTables h).zip lens).map fun (x : (Nat × Nat) × List Byte) => (b + x.1.1, x.2))

/-- The image selects striped interleave. -/
def Image.striped (i : Image) : Bool := bitOf (u ((i.all 0x0C noInst).getD 0 []) 0x12 1) 0

/-- The stacks that a list of HBM writes touches. -/
def stacksOf (striped : Bool) (ws : List (Nat × List Byte)) : List Nat :=
  (ws.flatMap fun w => (granules w.1 w.2.length).map fun o => (stackOf striped o).1).eraseDups

/-- The domains that receive content at commit and that the image votes above OFF (R316). -/
def Image.contentDoms (i : Image) : List Nat :=
  ([1] ++ (List.range 8).map (20 + ·) ++ ((List.range 8).filter fun t => !(i.all 0x09 t).isEmpty).map (36 + ·) ++
    (stacksOf i.striped i.hbmWrites).map (44 + ·)).filter fun d => 2 ≤ i.vote d

/-- The loader enters COMMITTING: a swap that shares the hold takes effect, stage 7 is checked, and the content domains are voted up. -/
def State.commitStart (s : State) : State :=
  let shared := s.ld.state == 2 && s.swc.pend
  let s := s.loadTo 3 7
  let s := if shared then s.swapDo else s
  match s.ld.img with
  | none => s
  | some i =>
    match firstFail [failIf (u i.hdr 0x28 8 ≠ s.planHash) { reason := 0x70 }, s.checkOpen i] with
    | some f => s.refuse f 7
    | none =>
      let ds := i.contentDoms
      let s := { s with ld := { s.ld with v0 := ds.map fun d => (d, (s.dom d).vote 0) } }
      s.vote 0 3 ds

/-- COMMIT_DOMAINS_ON (R316): the copy begins. -/
def State.commitDomainsOn (s : State) : State :=
  if s.ld.state = 3 && !s.ld.copying && s.ld.v0.all fun d => s.domOn d.1 then { s with ld := { s.ld with copying := true } } else s

/-- The loader's own V0 votes are restored (R316). -/
def State.restoreV0 (s : State) : State :=
  let vs := s.ld.v0
  let s := { s with ld := { s.ld with v0 := [] } }
  (vs.foldl (fun (s : State) (d : Nat × Nat) => s.voteOne 0 d.2 d.1) s).settlePower 0

/-- What fills the last word of a list that does not end a word: what the word reads as, or, where it is uncorrectable, an open value. [DESIGN CHOICE, log entry 93] -/
def State.filler (s : State) (o : Nat) : Nat → List Byte
  | 0 => []
  | n + 1 => (if s.wordOk (wordOf o) then (s.byteAt o).getD 0 else Config.undefByte s.free o) :: s.filler (o + 1) n

/-- Bytes placed at commit, where the domain that holds them is ON: whole words, which the volume counters count (R145, R146). [DEDUCED, log entry 34, DESIGN CHOICE, log entry 93] -/
def State.placeBytes (s : State) (w : Nat × List Byte) : State :=
  let on := match s.place_ w.1 with
    | .hbm k _ => s.domOn (44 + k)
    | .store t _ => s.domOn (20 + t)
    | _ => false
  let e := w.1 + w.2.length
  let bs := w.2 ++ s.filler e ((8 - e % 8) % 8)
  if on then (s.volume w.1 bs.length true).wr w.1 bs else s

/-- The interleave of the image takes effect: every HBM offset then holds an undefined value (R133), but in a stack that is OFF, whose words
stay uncorrectable (R134). [DESIGN CHOICE, log entry 15] -/
def State.interleave (s : State) (striped : Bool) : State :=
  if s.striped = striped then s
  else
    let e := s.free + 1
    let s := s.forget fun o => o < 0x6000000000
    { s with striped := striped, free := e, undef := ((List.range 8).filter fun k => (s.dom (44 + k)).st.lvl != .off).map fun k => (k, e) }

/-- The tile takes its program: an empty cache, and SPN_PROG_BASE and SPN_PROG_LEN (R70, R76, R119). -/
def State.commitTile (i : Image) (s : State) (t : Nat) : State :=
  let h := progHdr (i.prog t)
  let s := (i.storeWrites t).foldl State.placeBytes s
  let s := (List.range 16).foldl (fun (s : State) n => s.setRg (blkR (encBlk t) (0x080 + 8 * n)) (progProfile (i.prog t) n)) s
  let s := s.modCry t fun x => { x with steps := [], groups := [] }
  s.modTile t fun x => { x with cache := [], base := h.progBase, len := h.bundles }

/-- An open context takes the tiles, the subscriber and the attribute that the new CONTEXTS gives it. -/
def State.commitCtx (i : Image) (s : State) (c : Nat) : State :=
  match i.ctxEntry c with
  | none => s
  | some (priv, tiles, sub) =>
    let x := s.ctx c
    let s := s.setCtx c { x with tiles := tiles, sub := sub, priv := priv }
    (tilesOf tiles).foldl (fun s t =>
      if (s.tile t).active && (s.tile t).ctx == c then s
      else (s.tileStart t c).modTile t fun y => { y with spn := if x.phase = 5 then 4 else 1 }) s

/-- The tiles that an open context loses are idle. -/
def State.dropTiles (i : Image) (s : State) (c : Nat) : State :=
  let new := match i.ctxEntry c with | some (_, tiles, _) => tiles | none => 0
  (tilesOf (s.ctx c).tiles).foldl (fun s t =>
    if bitOf new t then s else s.modTile t fun y => { y with active := false, spn := 0, hold := none }) s

/-- The paths that LINK_CLASS selects come into force, and ports on a changed path train (R151, R152). -/
def State.commitPaths (i : Image) (s : State) : State :=
  let old := (List.range 12).map s.groupPath
  let new := ((List.range 12).zip old).map fun (g : Nat × Nat) => (i.path g.1).getD g.2
  let s := { s with paths := some (total (((List.range 12).zip new).map fun (g : Nat × Nat) => g.2 * 2 ^ g.1)) }
  ((List.range 48).filter fun p => old.getD (p / 4) 0 != new.getD (p / 4) 0).foldl (fun s p => s.portPath p) s

/-- The V2 votes of the image replace the old at once (R43, R315). -/
def State.commitVotes (i : Image) (s : State) : State :=
  ((List.range 84).foldl (fun (s : State) d => s.voteOne 2 (i.vote d) d) s).settlePower 2

/-- The image comes into force (R43). [DESIGN CHOICE, log entry 5, DEDUCED, log entry 34] -/
def State.commit (s : State) (i : Image) : State :=
  let s := s.interleave i.striped
  let s := i.hbmWrites.foldl State.placeBytes s
  let s := (List.range 8).foldl (State.commitTile i) s
  let open_ := (s.ctxs.filter fun (x : Nat × Ctx) => x.2.st == 1).map fun x => x.1
  let s := { s with img := some i, ld := { s.ld with gone := false, img := none, raw := [], copying := false }, grps := [] }
  let s := open_.foldl (State.dropTiles i) s
  let s := open_.foldl (State.commitCtx i) s
  let s := s.relist.bobReserve (total (s.rings.map fun r => 18 * r.vcBuf))
  let s := ((s.commitVotes i).restoreV0.loadTo 4 7).commitPaths i
  let s := { s with ld := { s.ld with heldAt := none, met := false, cancel := false } }
  s.releaseAll

/-- COMMIT_FAULT (R43): no image is in force, and every open context is torn down. Of the bytes to copy none has been placed, and the interleave
stays as it was. [DESIGN CHOICE, log entry 93] -/
def State.commitFault (s : State) (sect : Nat) (injected : Bool := false) : State :=
  let s := ((s.flag 0 4 { injected := injected }).restoreV0).imageLost
  (s.refuse { reason := 0x73, sect := sect } 7).dropImage

/-- The copy reads the sections of the staged image in order, up to the first that can no longer be read. -/
def State.copyReads (s : State) : Option Nat × State :=
  let a := (s.rg (devR 0x070)).fld 0 50
  ((dirAll s.ld.raw).zipIdx).foldl (fun (x : Option Nat × State) (e : DirEntry × Nat) =>
    if x.1.isSome then x else let ((st, _), s) := x.2.load (a + e.1.off) e.1.len; (if st = 0 then none else some e.2, s)) (none, s)

/-- COMMIT_COPY_DONE: the copy ends, or meets an uncorrectable word in the section `bad`. An injected COMMIT_FAULT names the first section
of the directory. [DESIGN CHOICE, log entry 4, DESIGN CHOICE, log entry 93] -/
def State.commitCopyDone (s : State) (bad : Option Nat) : State :=
  if s.ld.state = 3 && s.ld.copying then
    let (inj, s) := s.takeInject 0 4
    let (lost, s) := s.copyReads
    match bad.or lost, s.ld.img with
    | some k, _ => s.commitFault k
    | none, some i => if inj then s.commitFault 0 true else s.commit i
    | none, none => s
  else s

/-! ## Requests -/

/-- The loader acts: Osaux runs it. -/
def State.loaderRuns (s : State) : Bool := s.dev.osaux && !s.dev.down

/-- A start request (R36, R44, Table 2-6 stage 0). [DESIGN CHOICE, log entry 74] -/
def State.loadStart (s : State) (atHarvest : Bool) : State :=
  let a := (s.rg (devR 0x070)).fld 0 50
  let n := (s.rg (devR 0x078)).fld 0 33
  let (c, h) := s.loadTarget
  let s := { s with ld := { s.ld with atHarvest := atHarvest, cancel := false, img := none, raw := [], v0 := [], heldAt := none, met := false } }
  match firstFail [
    failIf (!atHarvest && !s.quiescent) { reason := 0x01 },
    failIf (a % 4096 ≠ 0 || 0x6000000000 < a + n || n < 256 || 4294967296 < n) { reason := 0x02 },
    failIf (atHarvest && (s.ctx c).st ≠ 1) { reason := 0x03, index := c },
    failIf (atHarvest && !s.canHarvest c) { reason := 0x05, index := c },
    failIf (atHarvest && laterHarvest (s.ctx c).harvest h) { reason := 0x04, index := c }] with
  | some f => s.refuse f 0
  | none => s.loadTo 1 1

/-- An unload request (Table 2-5, R399); with no image in force nothing changes outside DEV_LOAD_STATUS. [DESIGN CHOICE, log entry 74] -/
def State.loadUnload (s : State) : State :=
  if !s.quiescent then s.refuse { reason := 0x01 } 0
  else if s.inForce.isNone then s.loadTo 0 0 { reason := 0, value := s.ld.value, limit := s.ld.limit }
  else s.dropImage.loadTo 0 0

/-- A cancel request. [DESIGN CHOICE, log entry 74] -/
def State.loadCancel (s : State) : State :=
  if s.ld.state = 1 then { s with ld := { s.ld with cancel := true } }
  else if s.ld.state = 2 then s.refuse { reason := 0x72 } s.ld.stage
  else s

/-- DEV_LOAD_CTRL (Table 2-4, R38): LOAD_BUSY whatever Osaux does; a request is acted on while Osaux runs. [DESIGN CHOICE, log entry 74] -/
def State.loadCtrl (s : State) (v : W64) : State :=
  let busy := 1 ≤ s.ld.state && s.ld.state ≤ 3
  let run := fun (t : State) => if s.loaderRuns then t else s
  match v.bit 0, v.bit 2, v.bit 3 with
  | false, false, false => s
  | true, false, false => if busy then s.flag 0 2 else run (s.loadStart (v.bit 1))
  | false, true, false => run s.loadCancel
  | false, false, true => if busy then s.flag 0 2 else run s.loadUnload
  | _, _, _ => s.flag 0 2

/-! ## The check stages -/

/-- The check of the stage in progress: its failure, if any, with what the stage leaves for the next. DEV_LOAD_ADDR, DEV_LOAD_LEN and
DEV_LOAD_HARVEST are not latched at the start: the registers as they stand are used. [DESIGN CHOICE, log entry 93] -/
def State.stageCheck (s : State) : Option LdFail × State :=
  let i := s.ld.img.getD {}
  match s.ld.stage with
  | 1 =>
    let n := (s.rg (devR 0x078)).fld 0 33
    let ((st, c), s) := s.load ((s.rg (devR 0x070)).fld 0 50) n
    if st ≠ 0 then (some { reason := 0x10 }, s)
    else
      match s.stage1 c n s.secOk with
      | some f => (some f, if f.reason = 0x12 && s.secOk then s.secOp else s)
      | none => (none, { s.secOp with ld := { s.ld with raw := c } })
  | 2 => (stage2 s.ld.raw, { s with ld := { s.ld with img := some (imageOf s.ld.raw) } })
  | 3 => (stage3 i, s)
  | 4 => (stage4 i, s)
  | 5 => (stage5 i, s)
  | _ => (s.stage6 i, s)

/-- The load waits for its harvest (R44); a swap at another target ends with CONFLICT, one at the same target shares the hold (R198). -/
def State.loadPend (s : State) : State :=
  let s := s.loadTo 2 6
  if s.swc.pend then
    if s.loadTarget = s.swapTarget then { s with ld := { s.ld with heldAt := s.swc.heldAt, met := s.swc.met } }
    else
      let s := s.swapEnd 5
      s.releaseAll
  else s

/-- LOAD_STAGE_END (R40, Table 2-5). -/
def State.loadStageEnd (s : State) : State :=
  if s.ld.state = 1 && s.loaderRuns then
    let k := s.ld.stage
    match s.stageCheck with
    | (some f, s) => s.refuse f k
    | (none, s) =>
      if s.ld.cancel then s.refuse { reason := 0x72 } k
      else if k < 6 then { s with ld := { s.ld with stage := k + 1 } }
      else if s.ld.atHarvest then s.loadPend
      else s.commitStart
  else s

/-- LOAD_HOLD_COMPLETE (R44, R45). -/
def State.loadHoldComplete (s : State) : State :=
  if s.ld.state = 2 && s.loaderRuns && s.holdsComplete then s.commitStart else s

/-- The first open context that is not held. -/
def State.firstUnheld (s : State) : Nat := ((s.ctxs.find? fun (x : Nat × Ctx) => x.2.st == 1 && !x.2.held).map fun x => x.1).getD 0

/-- LOAD_HOLD_TIMEOUT (R44). -/
def State.loadHoldTimeout (s : State) : State :=
  if s.ld.state = 2 && s.ld.heldAt.isSome && !s.holdsComplete then s.refuse { reason := 0x71, index := s.firstUnheld } 7 else s

/-- SWAP_HOLD_TIMEOUT (R197, R198). -/
def State.swapHoldTimeout (s : State) : State :=
  if s.swc.pend && s.swc.heldAt.isSome && !s.holdsComplete then
    if s.ld.state = 2 then s.refuse { reason := 0x71, index := s.firstUnheld } 7 else s.swapEnd 2
  else s

/-- HARVEST_PASSED, in the cycle in which a pending request can no longer be met (R44, R198). -/
def State.passedChecks (s : State) : State :=
  let s := if s.ld.state = 2 && s.targetGone s.loadTarget s.ld.met then s.refuse { reason := 0x04, index := s.loadTarget.1 } 7 else s
  if s.swc.pend && s.targetGone s.swapTarget s.swc.met then s.swapEnd 3 else s

/-! ## Views -/

/-- DEV_IMAGE_HASH (R43). [PRESUMED, log entry 12] -/
def State.imageHash (s : State) : W64 := match s.inForce with | some i => BitVec.ofNat 64 (u i.hash 0 8) | none => 0

end Sys2Proof.Machine
end

