-- ==== Sys2Proof/Machine/Spindle.lean ====
section
/-!
DEFINITION. The spindle (chapter 03): the issue of a bundle with all its slots (R48, R51), the sync slot (Table 3-9), waits (R64, R66),
loops (R69), the program cache (R70) and throttling (R71).
-/
namespace Sys2Proof.Machine

/-- The spindle may take a slot of its own: its block works, its state is RUN and no wait that it has seen satisfied still closes a bundle. -/
def State.spnRuns (s : State) (t : Nat) : Bool := (s.tile t).spn == 1 && s.ok (spnBlk t) && (s.tile t).hold.isNone

/-- `n` ACLK cycles of the tile pass with a command of its spindle. [DESIGN CHOICE, log entry 76] -/
def State.aclk (s : State) (t n : Nat) : State := s.modTile t fun x => { x with ac := x.ac + n, vs1 := [] }

/-- Cycle `j` of a run of 64 is throttled (R322). -/
def throttled (duty j : Nat) : Bool := decide (j * duty / 64 < (j + 1) * duty / 64)

/-! ## Waits -/

/-- What a wait finds (R64, R66): an error, the count reached, or neither. -/
inductive Waited where
  | bad (injected : Bool)
  | met
  | held
  deriving DecidableEq, Repr

/-- The condition of a WAIT or TAKE is tested. -/
def State.testWait (s : State) (t : Nat) (h : Hold) : Waited × State :=
  let (inj, s) := s.takeInject (spnBlk t) 5
  let x := s.tally t h.tally
  if x.err || inj then (.bad (!x.err), s) else if h.n ≤ x.count then (.met, s) else (.held, s)

/-- The bundle is held: WAIT, and a held cycle counts. -/
def State.spnHold (s : State) (t : Nat) (h : Hold) : State :=
  (s.wrap (blkR (spnBlk t) 0x068) 48 1).modTile t fun x => { x with spn := 2, waitT := h.tally, hold := some h }

/-! ## The sync slot -/

/-- The bundle has issued: it counts, and the PC moves on (SPN_ISSUE_CNT, BLK_PROGRESS). -/
def State.spnNext (s : State) (t pc : Nat) : State :=
  ((s.wrap (blkR (spnBlk t) 0x060) 48 1).progress (spnBlk t)).modTile t fun x => { x with spn := 1, pc := pc, hold := none, refill := false }

/-- TAKE subtracts at issue. -/
def State.takeTally (s : State) (t : Nat) (h : Hold) : State :=
  if h.take then s.setTally t h.tally { s.tally t h.tally with count := (s.tally t h.tally).count - h.n } else s

/-- LOOP (R69): the next bundle begins a body. -/
def State.loopPush (s : State) (t n : Nat) : State :=
  let s := s.modTile t fun x => { x with loops := (x.pc + 1, n) :: x.loops }
  s.spnNext t ((s.tile t).pc + 1)

/-- ENDLOOP (R69). -/
def State.loopEnd (s : State) (t : Nat) : State :=
  let x := s.tile t
  match x.loops with
  | (b, n + 2) :: rest => (s.modTile t fun x => { x with loops := (b, n + 1) :: rest }).spnNext t b
  | _ :: rest => (s.modTile t fun x => { x with loops := rest }).spnNext t (x.pc + 1)
  | [] => s.spnNext t (x.pc + 1)

/-- STEP_END (R68): the spindle holds in HARVEST, and the step end is reported. -/
def State.stepEnd (s : State) (t : Nat) : State :=
  ((s.spnNext t ((s.tile t).pc + 1)).modTile t fun x => { x with spn := 4 }).stepReport t

/-- The spindle enters HALTED, with the message of vector 259 + c (R72), unless an operation of the same bundle has sent it to ERROR (R59,
R63). [DEDUCED, log entry 37] -/
def State.haltEnd (s : State) (t : Nat) : State :=
  if (s.tile t).spn = 6 then s else (s.modTile t fun x => { x with spn := 5 }).msix (259 + (s.tile t).ctx)

/-- HALT (R72): the program ends. -/
def State.spnHalt (s : State) (t : Nat) : State := (s.spnNext t ((s.tile t).pc + 1)).haltEnd t

/-- The fields of WAIT, TAKE and ADD: tally and count. [DEDUCED, log entry 37] -/
def syncHold (y : Nat) (prog : Bool) : Hold := { tally := fld y 26 8, n := fld y 0 26, take := fld y 34 6 == 2, prog := prog }

/-- The action of a sync slot at issue; a WAIT or TAKE has been found satisfied. A HALT takes effect when the other slots have issued. -/
def State.syncIssue (s : State) (t y : Nat) : State :=
  let h := syncHold y true
  let pc := (s.tile t).pc
  match fld y 34 6 with
  | 2 => (s.takeTally t h).spnNext t (pc + 1)
  | 3 => (s.spnNext t (pc + 1)).tallyAdd t h.tally h.n
  | 4 => s.loopPush t (fld y 10 24)
  | 5 => s.loopEnd t
  | 6 => s.stepEnd t
  | _ => s.spnNext t (pc + 1)

/-! ## A bundle -/

/-- The array slots (Table 3-2). -/
def State.issueArr (s : State) (t w a : Nat) : State :=
  let y := bunArr w a
  match fld y 34 6 with
  | 0 => s
  | k => s.arrIssue t a k (fld y 32 2) (fld y 16 16) (fld y 8 8)

/-- The vector slots (Table 3-3). -/
def State.issueVec (s : State) (t w i : Nat) (e : Ecc) : State :=
  let y := bunVec w i
  match vcodeOf (fld y 40 8) with
  | some c => s.vecIssue t c (vopOf y) e
  | none => s

/-- The mover slots (Table 3-6). -/
def State.issueMov (s : State) (t w i : Nat) : State :=
  let y := bunMov w i
  if fld y 26 6 = 1 then s.movRun t (fld y 23 3) (fld y 8 15) (fld y 0 8) else s

/-- The fabric slots (Table 3-8). -/
def State.issueFab (s : State) (t w i : Nat) : State :=
  let y := bunFab w i
  match fld y 34 6 with
  | 0 => s
  | k => s.fabIssue t k (fld y 16 16) (fld y 8 8)

/-- Every slot of the bundle at the PC issues in one cycle (R51, R53). What is held at this point does not hold it. -/
def State.issueSlots (s : State) (t w : Nat) (y0 y1 : Ecc) : State :=
  let s := s.applyShapes t (s.tile t).pc
  let s := s.syncIssue t (bunSync w)
  let s := (List.range 4).foldl (fun s a => s.issueArr t w a) s
  let s := (s.issueVec t w 0 y0).issueVec t w 1 y1
  let s := (List.range 4).foldl (fun s i => s.issueMov t w i) s
  let s := (List.range 2).foldl (fun s i => s.issueFab t w i) s
  if fld (bunSync w) 34 6 = 7 then s.haltEnd t else s

/-- The bundle at the PC issues, unless its WAIT or TAKE holds it or meets an error. [DEDUCED, log entry 37] -/
def State.tryIssue (s : State) (t : Nat) (y0 y1 : Ecc) : State :=
  match s.prog t with
  | none => s
  | some p =>
    let w := progBundle p (s.tile t).pc
    let code := fld (bunSync w) 34 6
    if code = 1 || code = 2 then
      let h := syncHold (bunSync w) true
      match s.testWait t h with
      | (.bad inj, s) => s.spnError t 5 4 h.tally inj
      | (.held, s) => s.spnHold t h
      | (.met, s) => s.issueSlots t w y0 y1
    else s.issueSlots t w y0 y1

/-- A cycle in which a held wait is tested: the cycle is held, and a wait that is met returns the spindle to RUN, so that the bundle issues
in the next cycle (R64, Table 3-11). Answers whether it was met. A wait of its own closes its bundle there. -/
def State.seeWait (s : State) (t : Nat) : Bool × State :=
  match (s.tile t).hold with
  | none => (false, s)
  | some h =>
    match s.testWait t h with
    | (.bad inj, s) => (false, s.spnError t 5 4 h.tally inj)
    | (.held, s) => (false, s.wrap (blkR (spnBlk t) 0x068) 48 1)
    | (.met, s) =>
      (true, (s.wrap (blkR (spnBlk t) 0x068) 48 1).modTile t fun x => { x with spn := 1, hold := if h.prog then none else some h })

/-! ## The program cache (R70) -/

/-- The line of a bundle index is cached. -/
def Tile.cached (x : Tile) : Bool := x.cache.find (x.pc / 64 % 64) == some (x.pc / 64 * 64)

/-- A line fill starts. [DEDUCED, log entry 38] -/
def State.startFill (s : State) (t : Nat) (again : Bool) : State :=
  (s.wrap (blkR (spnBlk t) 0x078) 32 1).modTile t fun x => { x with spn := 3, refill := again }

/-- The cached word of the bundle is read: whether it may issue (R70). PROG_UE concerns no tally: its field reads 0xFF. [DEDUCED, log entry 38] -/
def State.readWord (s : State) (t : Nat) (e : Ecc) : Bool × State :=
  let (ji, s) := s.takeInject (spnBlk t) 1
  let (jc, s) := s.takeInject (spnBlk t) 0
  if ji then (false, s.spnError t 1 5 255 true)
  else if e = .uncorrectable then
    if (s.tile t).refill then (false, s.spnError t 1 5 255) else (false, s.startFill t true)
  else if e = .corrected || jc then
    (true, s.flag (spnBlk t) 0 { injected := jc && e != .corrected, ctx := some (s.tile t).ctx })
  else (true, s)

/-- The bundle at the PC issues, from a line that is cached. A wait of its own that has been seen satisfied closes the bundle. -/
def State.issueCached (s : State) (t : Nat) (e y0 y1 : Ecc) : State :=
  match (s.tile t).hold with
  | some h => (s.takeTally t h).spnNext t ((s.tile t).pc + 1)
  | none => match s.readWord t e with
    | (true, s) => s.tryIssue t y0 y1
    | (false, s) => s

/-- An ACLK cycle that is throttled issues nothing and counts (R71); another is `f`. -/
def State.unlessThrottled (s : State) (t j : Nat) (f : State → State) : State :=
  let a := 3 * s.cclk + (s.tile t).ac
  let s := s.aclk t 1
  if throttled (s.dutyAt a) j then s.wrap (blkR (spnBlk t) 0x070) 48 1 else f s

/-- BUNDLE_ISSUE: one ACLK cycle of the spindle, which issues in RUN (R48) and tests its wait in WAIT (R64). [DEDUCED, log entry 37, DESIGN CHOICE, log entry 76] -/
def State.bundleIssue (s : State) (t j : Nat) (e y0 y1 : Ecc) : State :=
  let x := s.tile t
  if !s.ok (spnBlk t) then s
  else if x.spn = 2 then s.unlessThrottled t j fun s => (s.seeWait t).2
  else if x.spn = 1 then
    s.unlessThrottled t j fun s => if x.hold.isNone && !x.cached then s.startFill t false else s.issueCached t e y0 y1
  else s.aclk t 1

/-- The tile store that a line fill reads, and whether the word of the bundle at the PC is uncorrectable in it (R70, R137). -/
def State.fillLine (s : State) (t : Nat) : Bool × State :=
  let x := s.tile t
  let o := storeBase t + x.base + x.pc / 64 * 4096
  let at_ := storeBase t + x.base + x.pc * 64
  let (_, s) := s.load o 4096
  ((s.rd at_ 64).isNone, s)

/-- CACHE_FILL_DONE (R70): the line is in the cache, and the missed bundle issues in the next cycle unless that is throttled. [DESIGN CHOICE, log entry 4, DEDUCED, log entry 38] -/
def State.fillDone (s : State) (t j : Nat) (ue : Bool) (y0 y1 : Ecc) : State :=
  let x := s.tile t
  if x.spn ≠ 3 || !s.ok (spnBlk t) then s
  else
    let (bad, s) := s.fillLine t
    let s := s.modTile t fun x => { x with spn := 1, cache := x.cache.set (x.pc / 64 % 64) (x.pc / 64 * 64) }
    s.unlessThrottled t j fun s => s.issueCached t (if ue || bad then .uncorrectable else .clean) y0 y1

/-- WAIT_SATISFIED (R64): in one cycle the wait is seen satisfied, in the next the bundle issues, unless that cycle is throttled; with the wait
not satisfied nothing happens. -/
def State.waitSatisfied (s : State) (t j : Nat) (y0 y1 : Ecc) : State :=
  if (s.tile t).spn ≠ 2 || !s.ok (spnBlk t) then s
  else match (s.tile t).hold with
    | none => s
    | some h =>
      if !(s.tally t h.tally).err && (s.tally t h.tally).count < h.n then s
      else match (s.aclk t 1).seeWait t with
        | (true, s) => s.unlessThrottled t j fun s => s.issueCached t .clean y0 y1
        | (false, s) => s

/-- The ACLK cycles of a CCLK cycle that no command of the spindle stood for: those that are throttled count so, and the others count as held
in WAIT (R71, R72). [DESIGN CHOICE, log entry 1, DESIGN CHOICE, log entry 76] -/
def State.spnCycles (s : State) (t : Nat) : State :=
  let x := s.tile t
  let s := if (x.spn = 1 || x.spn = 2) && s.ok (spnBlk t) then
      (List.range (3 - x.ac)).foldl (fun s k =>
        let a := 3 * s.cclk + x.ac + k
        if throttled (s.dutyAt a) (a % 64) then s.wrap (blkR (spnBlk t) 0x070) 48 1
        else if x.spn = 2 then s.wrap (blkR (spnBlk t) 0x068) 48 1
        else s) s
    else s
  if x.ac = 0 && x.vs1.isEmpty then s else s.modTile t fun x => { x with ac := 0, vs1 := [] }

/-! ## Slots commanded alone -/

/-- A WAIT or TAKE of its own closes the bundle at the PC, or holds it. [DEDUCED, log entry 37] -/
def State.waitCmd (s : State) (t k n : Nat) (take : Bool) : State :=
  if !s.spnRuns t then s
  else
    let s := s.aclk t 1
    let h : Hold := { tally := k, n := n, take := take, prog := false }
    match s.testWait t h with
    | (.bad inj, s) => s.spnError t 5 4 k inj
    | (.held, s) => s.spnHold t h
    | (.met, s) => (s.takeTally t h).spnNext t ((s.tile t).pc + 1)

/-- ADD of its own. [DEDUCED, log entry 37] -/
def State.addCmd (s : State) (t k n : Nat) : State :=
  if s.spnRuns t then (s.spnNext t ((s.tile t).pc + 1)).tallyAdd t k n else s

/-- SEQ_PARITY (Table 15-10): the spindle goes to ERROR with cause 7. -/
def State.seqParity (s : State) (t : Nat) (inj : Bool := false) : State := s.spnError t 7 7 255 inj

/-! ## Register views (Table 3-15) -/

/-- SPN_STATE. The tally waited on reads 0 outside WAIT. [DESIGN CHOICE, log entry 81] -/
def State.spnState (s : State) (t : Nat) : W64 :=
  let x := s.tile t
  put 20 x.loops.length ||| put 8 (if x.spn = 2 then x.waitT else 0) ||| put 0 x.spn

/-- TILE_CTX (Table 3-14). -/
def State.tileCtxReg (s : State) (t : Nat) : W64 :=
  let x := s.tile t
  put 16 x.gen ||| putBit 15 x.active ||| put 0 x.ctx

end Sys2Proof.Machine
end

