-- ==== Sys2Proof/Machine/Tiers.lean ====
section
/-!
DEFINITION. The completion of an inbound request (R186, R188), the CXL ports (R143, R144), the HBM stacks (R146), the patrol scrub
(R138), and the PLLs of both (R326).
-/
namespace Sys2Proof.Machine

/-- The completion of a remote request leaves for its source (R186, R188). [DEDUCED, log entry 53] -/
def State.respond (s : State) (k : Pkt) (st : Nat) (data : List Byte) : State :=
  let kind := if k.kind = 0 then 2 else 3
  s.send { kind := kind, service := loosePkt k.unit kind, flits := 1 + (if st = 0 then ceilDiv data.length 64 else 0), echo := k.mark,
           dst := k.src, ctx := k.ctx, unit := k.unit, gen := (s.ctx k.ctx).gen, tag := k.tag, length := if st = 0 then data.length else 0,
           address := k.address, status := st, data := if st = 0 then data else [] }

/-! ## CXL ports -/

/-- A CXL port's record. -/
def State.cxl (s : State) (c : Nat) : Cxl := s.cxls.get {} c

/-- A CXL port's record changed. -/
def State.modCxl (s : State) (c : Nat) (f : Cxl → Cxl) : State := { s with cxls := s.cxls.set c (f (s.cxl c)) }

/-- A write of a decoder (R143). [DESIGN CHOICE, log entry 48] -/
def State.hdmWrite (s : State) (c h : Nat) (v : W64) : State :=
  if !s.domOn (18 + c) then s
  else
    let lo := v.fld 0 16
    let hi := lo + v.fld 32 16
    let clash := (List.range 8).any fun j =>
      let w := s.hdm c j
      j != h && w.bit 63 && decide (lo < w.fld 0 16 + w.fld 32 16) && decide (w.fld 0 16 < hi)
    if !s.quiescent || (v.bit 63 && (v.fld 32 16 == 0 || decide (32768 < hi) || clash)) then s.flag (14 + c) 5
    else s.setRg (blkR (14 + c) (0x100 + 8 * h)) (v &&& 0x8007FFFF0000FFFF)

/-- The decoders that enumeration writes: one a target, in order, as far as the half reaches. [DESIGN CHOICE, log entry 48] -/
def hdmPlan : Nat → Nat → List Nat → List W64
  | _, _, [] => []
  | i, base, n :: ns =>
    if n = 0 || 32768 < base + n then 0 :: hdmPlan (i + 1) base ns
    else (putBit 63 true ||| put 48 i ||| put 32 n ||| put 0 base) :: hdmPlan (i + 1) (base + n) ns

/-- CXL_ENUMERATE (R142, R143): Osaux configures up to eight targets of a link that is up, while the device is quiescent; a target past the eighth, and a device that needs an unsupported option, is noted. [DESIGN CHOICE, log entry 48] -/
def State.cxlEnum (s : State) (c : Nat) (sizes : List Nat) (unsupported : Bool) : State :=
  if !s.quiescent || (s.cxl c).st ≠ 2 || !s.domOn (18 + c) then s
  else
    let plan := hdmPlan 0 0 (sizes.take 8)
    let s := (List.range 8).foldl (fun s h => s.setRg (blkR (14 + c) (0x100 + 8 * h)) (plan.getD h 0)) s
    let s := s.modCxl c fun x => { x with used := true }
    let note := fun (s : State) (n : Nat) => s.regFault (14 + c) 1 3 0 (put 8 (n % 256) ||| put 0 c)
    let s := ((List.range sizes.length).filter fun n => decide (8 ≤ n)).foldl note s
    if unsupported then note s sizes.length else s

/-- What becomes of an access when it ends: the host's granule, or the completion of a remote request. -/
def State.cxlEnd (s : State) (r : CxlReq) (st : Nat) (data : List Byte) : State :=
  match r.host, r.pkt with
  | some (id, g), _ => s.hostPart id g st data
  | none, some k => s.respond k st data
  | none, none => s

/-- The outstanding access `i` ends; its bobbins are free. -/
def State.cxlTake (s : State) (c i : Nat) : State := s.modCxl c fun x => { x with reqs := x.reqs.eraseIdx i }

/-- CXL_COMPLETION (R144). An access whose staging bobbin cannot be read was never sent (R221), and ends as one that no completion answers. [DESIGN CHOICE, log entry 4, DESIGN CHOICE, log entry 47, DEDUCED, log entry 85] -/
def State.cxlDone (s : State) (c i : Nat) (r : CxlEnd) (retried : Bool) : State :=
  match (s.cxl c).reqs[i]? with
  | none => s
  | some q =>
    let s := s.cxlTake c i
    let s := if retried then s.cxlRetry c else s
    match s.readBob q.bob with
    | (false, s) => ((s.cxlTimeout c q.off).progress (14 + c)).cxlEnd q stRemote []
    | (true, s) => match q.data with
      | some bs => (let (st, s) := s.save q.off bs; s.cxlEnd q st [])
      | none =>
        if r == .poisoned then ((s.volume q.off q.len false).cxlPoison c q.off).cxlEnd q stReadUe []
        else (let ((st, bs), s) := s.load q.off q.len; s.cxlEnd q st bs)

/-- CPL_TIMEOUT (R144). -/
def State.cxlLate (s : State) (c i : Nat) (injected : Bool := false) : State :=
  match (s.cxl c).reqs[i]? with
  | none => s
  | some q =>
    (((s.cxlTake c i).cxlTimeout c q.off injected).progress (14 + c)).cxlEnd q stRemote []

/-- Every outstanding access of a port fails. -/
def State.cxlFailAll (s : State) (c : Nat) : State :=
  let qs := (s.cxl c).reqs
  let s := s.modCxl c fun x => { x with reqs := [] }
  qs.foldl (fun s q => (s.progress (14 + c)).cxlEnd q stRemote []) s

/-- A link that is up goes down or signals viral (R144); `det` is 3 or 4. -/
def State.cxlLoss (s : State) (c det : Nat) (injected : Bool := false) : State :=
  if (s.cxl c).st = 2 then
    let s := s.modCxl c fun x => { x with st := 3, used := false, width := 0, rate := 0 }
    (s.flag (14 + c) det { injected := injected }).cxlFailAll c
  else s

/-- A link finishes training; it is used once Osaux has enumerated it (R143). One of another width or rate than Table 6-6 supports does not come
up. -/
def State.cxlUp (s : State) (c width rate : Nat) : State :=
  if s.domOn (18 + c) && (s.cxl c).st ≠ 2 && [4, 8, 16].contains width && [1, 2, 3].contains rate then
    (s.modCxl c fun x => { x with st := 2, used := false, width := width, rate := rate }).pllLock (14 + c)
  else s

/-- CXL_PLL_UNLOCK (R326). [DEDUCED, log entry 29] -/
def State.cxlPllLoss (s : State) (c : Nat) (injected : Bool := false) : State :=
  ((s.pllLoss (14 + c)).flag 1 3 { injected := injected }).cxlLoss c 3

/-- The domain of a port is no longer ON: its accesses fail, and the link is off. -/
def State.cxlOff (s : State) (c : Nat) : State :=
  (s.cxlFailAll c).modCxl c fun _ => {}

/-- CXL_LINK (Table 6-12). -/
def State.cxlLink (s : State) (c : Nat) : W64 :=
  let x := s.cxl c
  put 8 x.width ||| put 4 x.rate ||| put 0 x.st

/-- CXL_CAP. -/
def State.cxlCap (s : State) (c : Nat) : W64 :=
  put 0 ((List.range 8).foldl (fun n h => let v := s.hdm c h; n + if v.bit 63 then v.fld 32 16 else 0) 0 % 65536)

/-! ## HBM stacks -/

/-- An HBM stack's record changed. -/
def State.modHbm (s : State) (n : Nat) (f : Hbm → Hbm) : State := { s with hbms := s.hbms.set n (f (s.hbms.get {} n)) }

/-- CA_PARITY (Table 6-11): the stack needs retraining. -/
def State.caParity (s : State) (n : Nat) (injected : Bool := false) : State :=
  if s.up (16 + n) then (s.modHbm n fun x => { x with trained := false }).flag (16 + n) 3 { injected := injected } else s

/-- A stack reports its temperature (R146): above 95 °C it reports TEMP_HIGH when it was not above before. -/
def State.hbmTemp (s : State) (n temp : Nat) : State :=
  if !s.up (16 + n) then s
  else
    let was := (s.hbms.get {} n).hot
    let (hot, s) := if 95 < temp && was then (true, s) else s.detect (16 + n) 4 (decide (95 < temp))
    s.modHbm n fun x => { x with temp := temp, hot := hot }

/-- HBM_TRAINING_DONE. -/
def State.hbmTrained (s : State) (n : Nat) : State :=
  if s.domOn (44 + n) then s.modHbm n fun x => { x with trained := true } else s

/-- HCLK_UNLOCK (R326): every stack needs retraining. -/
def State.hclkLoss (s : State) (injected : Bool := false) : State :=
  let s := (s.pllLoss 1).flag 1 2 { injected := injected }
  (List.range 8).foldl (fun s n => s.modHbm n fun x => { x with trained := false }) s

/-- HBM_CFG (Table 6-10). -/
def State.hbmCfg (s : State) (n : Nat) : W64 :=
  putBit 8 (s.hbms.get {} n).trained ||| putBit 1 (decide ((s.dom (44 + n)).st = .ret)) ||| putBit 0 s.striped

/-- HBM_TEMP. -/
def State.hbmTempReg (s : State) (n : Nat) : W64 := let x := s.hbms.get {} n; putBit 8 x.hot ||| put 0 x.temp

/-! ## The patrol scrub (R138) -/

/-- The offset of a location of a stack (R131). -/
def stackOffset (striped : Bool) (n loc : Nat) : Nat :=
  if striped then loc / 4096 * 32768 + n * 4096 + loc % 4096 else n * stackSize + loc

/-- SCRUB_READ: the granule at the scrub position of tile store b (0 to 7) or of stack b - 8. [DESIGN CHOICE, log entry 50] -/
def State.scrub (s : State) (b : Nat) : State :=
  let tile := decide (b < 8)
  let blk := if tile then tileBlk b else 16 + (b - 8)
  let ctrl := blkR blk (if tile then 0x090 else 0x060)
  let posR := blkR blk (if tile then 0x098 else 0x068)
  let size := if tile then 0x80000000 else stackSize
  if !s.ok blk || !(s.rg ctrl).bit 0 then s
  else
    let pos := (s.rg posR).fld 0 (if tile then 31 else 36)
    let passes := (s.rg posR).fld 40 8
    let next := if pos + 64 < size then put 40 passes ||| put 0 (pos + 64) else put 40 ((passes + 1) % 256)
    let o := if tile then storeBase b + pos else stackOffset s.striped (b - 8) pos
    let s := s.setRg posR next
    let (ju, s) := s.takeInject blk 2
    let (jc, s) := s.takeInject blk 0
    let bad := (wordsOf o 64).filter fun w => !s.wordOk w
    let mended := (wordsOf o 64).filter fun w => s.wordOk w && (s.upsets.find w).isSome
    let s := if mended.isEmpty && jc then s.memCe [o] true else s.memCe mended
    if bad.isEmpty then (if ju then s.memUe [o] 2 true else s) else s.memUe bad 2

end Sys2Proof.Machine
end

