-- ==== Sys2Proof/Machine/Reset.lean ====
section
/-!
DEFINITION. What a reset does to a block: the working state that an engine reset clears (R336, R95, Table 15-5), and what a domain loses
and keeps when it leaves ON, reaches OFF and comes ON again (R312, R317, Tables 14-4, 14-6 and 14-9).
-/
namespace Sys2Proof.Machine

/-! ## The working state of each block (R336) -/

/-- Every operation of the array fails; weights, accumulators and alternation clear, the shape and the stops stay (R95). -/
def State.arrClear (s : State) (i : Nat) : State :=
  let ops := if (s.arr i).tearing then [] else (s.arr i).ops
  let idle := fun (h : Nat × Half) => (h.1, { h.2 with q := [], run := [], gate := 0, lead := 0, left := 0 })
  let s := s.modArr i fun x => { x.wipe with reconf := false, clearing := false, halves := x.wipe.halves.map idle }
  ops.foldl (fun s op => s.arrFail i op) s

/-- The operations in flight at the vector unit, or at the encoder, fail; an ENCODE that fails counts (R123). -/
def State.vuClear (s : State) (t : Nat) (enc : Bool) : State :=
  let mine := fun (r : VRes) => r.enc.isSome == enc
  let ops := (s.tile t).vu.filter mine
  let s := s.modTile t fun x => { x with vu := x.vu.filter fun r => !mine r }
  ops.foldl (fun s r => if enc then (s.opFail t r.tally).progress (encBlk t) else s.opFail t r.tally) s

/-- A spindle that runs goes to ERROR (Table 3-11), with vector 259 + c. [DEDUCED, log entry 25] -/
def State.spnClear (s : State) (t : Nat) : State :=
  if (s.tile t).canFail then
    (s.modTile t fun x => { x with spn := 6, hold := none, loops := [] }).msix (259 + (s.tile t).ctx)
  else s

/-- Every bobbin is free but those retired and those of the VC buffers (R218, R221). -/
def State.bobClear (s : State) : State :=
  let early := s.swc.reqs.filter fun r => r.use.bob.isSome
  let waits := s.swc.waitq.filter fun w => w.2.2.bob.isSome
  let s := { s.dropQueues with bitmapBad := false }
  let s := s.modSwc fun x => { x with early := [], reqs := x.reqs.filter (fun r => r.use.bob.isNone),
                                      waitq := x.waitq.filter fun w => w.2.2.bob.isNone }
  let s := (early.map (fun r => r.use) ++ waits.map fun w => w.2.2).foldl (fun s u => s.reqEnd u stRemote []) s
  (s.cxlFailAll 0).cxlFailAll 1

/-- The host's accesses in progress are no longer answered (Table 15-10). -/
def State.hostClear (s : State) : State :=
  let s := s.modSwc fun x => { x with reqs := x.reqs.filter (fun r => r.use.bob.isNone), waitq := x.waitq.filter fun w => w.2.2.bob.isNone }
  { s with hst := { s.hst with tlps := [] } }

/-- The working state of a block is cleared, and its operations fail (R336). [DEDUCED, log entry 25] -/
def State.clearWork (s : State) (b : Nat) : State :=
  let p := pageOf b
  match p.kind with
  | .swc => s.flushCore
  | .sch => s.dropQueues
  | .col => s.failAll
  | .bob => s.bobClear
  | .pan => s.failQuad p.inst
  | .cxl => s.cxlOff p.inst
  | .port => s.portDrop p.inst
  | .spn => s.spnClear p.inst
  | .arr => s.arrClear p.inst
  | .vu => s.vuClear p.inst false
  | .enc => s.vuClear p.inst true
  | .mov => s.moversFail p.inst
  | .cry => s.crySkipAll p.inst
  | .hst => s.hostClear
  | .sec => { s with hst := { s.hst with keys := s.hst.keyFlash } }
  | .dev => s
  | .clk => s
  | .pwr => s
  | .log => s
  | .hbm => s
  | .tile => s

/-- What the end of a successful engine reset brings back (Table 15-5): links, PLLs and stacks retrain from what they keep. [DEDUCED, log entry 25] -/
def State.afterReset (s : State) (b : Nat) : State :=
  let p := pageOf b
  match p.kind with
  | .port => s.serdesBack p.inst
  | .cxl => if s.domOn p.dom then s.modCxl p.inst fun x => { x with st := 1 } else s
  | .hbm => if s.domOn p.dom then s.modHbm p.inst fun x => { x with trained := true } else s
  | .clk => (List.range 8).foldl (fun s n => if s.domOn (44 + n) then s.modHbm n fun x => { x with trained := true } else s) (s.pllLock 1)
  | .tile => if s.domOn p.dom then s.modTile p.inst fun x => { x with linkUp := true } else s
  | _ => s

/-! ## Leaving ON (Tables 14-6 and 14-9) -/

/-- The requests of every unit fail, since the switch core holds them no more. -/
def State.requestsFail (s : State) : State :=
  let us := s.swc.reqs.map (fun r => r.use) ++ s.swc.waitq.map fun w => w.2.2
  let s := s.modSwc fun x => { x with reqs := [], waitq := [], early := [] }
  us.foldl (fun s u => s.reqEnd u stRemote []) s

/-- A domain leaves ON: work in flight in it fails, and what only ON holds is lost (Table 14-4). -/
def State.domLeaves (s : State) (d : Nat) : State :=
  let s := (domBlks d).foldl State.clearWork s
  if d = 1 then s.requestsFail
  else if 20 ≤ d && d ≤ 27 then s.modTile (d - 20) fun x => { x with linkUp := false }
  else if 28 ≤ d && d ≤ 35 then s.modTile (d - 28) fun x => { x with y := [] }
  else s

/-! ## Reset states (R312, Table 14-4) -/

/-- The register at an offset lies in a page of the domain. -/
def inDom (d off : Nat) : Bool := match locate off with | some (p, _) => p.dom == d | none => false

/-- A register that RET keeps for its contents: the routing tables and the decoders (Table 14-4). -/
def retTable (off : Nat) : Bool := match locate off with
  | some (p, rel) => (p.kind == .swc && decide (0x80000 ≤ rel)) || (p.kind == .cxl && decide (0x100 ≤ rel))
  | none => false

/-- The register at an offset is a counter (R312). -/
def isCounter (off : Nat) : Bool := match rowOf off with | some r => r.counter | none => false

/-- A block's common window at reset; its place in the ladder, its guard window and a test that runs stay. -/
def Blk.fresh (k : Blk) : Blk := { step := k.step, testing := k.testing, okStep := k.okStep, notified := k.notified }

/-- The registers of a domain's pages return to their reset values (R312); `ret` keeps the tables that RET keeps. -/
def State.pagesReset (s : State) (d : Nat) (ret : Bool) : State :=
  let s := { s with regs := s.regs.drop (fun off => inDom d off && !(ret && retTable off)), cyc := s.cyc.drop (inDom d) }
  (domBlks d).foldl (fun s b => s.setBlk b (s.blk b).fresh) s

/-- The sections of the image that PD_SWC holds (Table 2-6): without them its tables stand at reset values. [DEDUCED, log entry 25] -/
def swcSections : List Nat := [0x03, 0x05, 0x06, 0x07, 0x08]

/-- The records of a domain's blocks return to reset; `ret` keeps what RET keeps (Table 14-4), and the bobbins retired (R221). A crystallizer that
has reported done to harvest control has done so (R287). [DEDUCED, log entry 25] -/
def State.recordsReset (s : State) (d : Nat) (ret : Bool) : State :=
  if d = 1 then
    let s := { s with swc := { bank := if ret then s.swc.bank else 0, swaps := if ret then s.swc.swaps else 0 }, insts := [], grps := [],
                      retired := if ret then s.retired else [], bitmapBad := false, shapes := [], newShapes := [],
                      ports := s.ports.map fun (p : Nat × Port) => (p.1, { p.2 with nodes := [], vt := [], sel := none }) }
    if ret then s
    else { s with vcBobs := [], img := s.img.map fun i => { i with secs := i.secs.filter fun x => !swcSections.contains x.typ } }
  else if d < 6 then s
  else if d < 18 then (List.range 4).foldl (fun s k =>
    s.modPort (4 * (d - 6) + k) fun x => if ret then { lanes := x.lanes, path := x.path } else {}) s
  else if d < 20 then s.modCxl (d - 18) fun _ => {}
  else if d < 28 then
    let s := s.modTile (d - 20) fun x => { y := x.y, cache := if ret then x.cache else [], base := if ret then x.base else 0, len := if ret then x.len else 0 }
    if ret then s else s.forgetStore (d - 20)
  else if d < 36 then s.modTile (d - 28) fun x => { x with y := [] }
  else if d < 44 then s.modCry (d - 36) fun x =>
    { steps := if ret then x.steps else [], active := x.active, st := if x.active && x.st = 3 then 3 else 0 }
  else if d < 52 then if ret then s else (s.forgetStack (d - 44)).modHbm (d - 44) fun _ => {}
  else s.modArr (d - 52) fun x => { halves := if x.halves.any fun h => h.2.stopped then [(0, { stopped := true })] else [] }

/-- A domain whose cycle or fault loses content that the image placed (R337). -/
def losesImage (d : Nat) : Bool := d == 1 || (20 ≤ d && d ≤ 27) || (44 ≤ d && d ≤ 51)

/-- A domain reaches OFF: its pages and its contents are lost. A power cycle of the ladder, a ramp failure or a converter fault of a domain
that holds what the image placed loses the image (R337); a domain that votes took to OFF holds nothing that the image relies on (R316). -/
def State.domOff (s : State) (d : Nat) : State :=
  let cycled := s.cycling d
  let s := (s.pagesReset d false).recordsReset d false
  if !losesImage d || s.inForce.isNone then s
  else
    let (inj, s) := s.takeInject 0 9
    if cycled || inj then s.loseImage (!cycled) else s

/-! ## Coming ON -/

/-- The counters of a domain's pages restart from zero (R312). [DEDUCED, log entry 73] -/
def State.countersRestart (s : State) (d : Nat) : State :=
  let s := { s with regs := s.regs.drop (fun off => inDom d off && isCounter off), cyc := s.cyc.drop (inDom d) }
  (domBlks d).foldl (fun s b => s.setBlk b { s.blk b with progress := 0 }) s

/-- What starts when a domain is ON: the group PLL locks and ports leave OFF (R172), CXL links train, the package link comes up, step counters lost in OFF stand at t0 (R289),
and ARR_SCALE_LAST is no longer valid (R116). [DEDUCED, log entry 73] -/
def State.domStarts (s : State) (d : Nat) (fromOff : Bool) : State :=
  let s := s.countersRestart d
  if 6 ≤ d && d < 18 then (List.range 4).foldl (fun s k => s.portOn (4 * (d - 6) + k) fromOff) (s.pllLock (d - 4))
  else if d = 18 || d = 19 then s.modCxl (d - 18) fun _ => { st := 1 }
  else if 20 ≤ d && d < 28 then s.modTile (d - 20) fun x => { x with linkUp := true }
  else if 36 ≤ d && d < 44 && fromOff then s.modCry (d - 36) fun x => { x with steps := [] }
  else if 52 ≤ d then s.setRg (blkR (arrBlk (d - 52)) 0x0B8) 0
  else s

/-- The effects of a domain's transition (R312, R317, R318). -/
def State.domEvent (s : State) (x : Nat × DEvt) : State :=
  match x.2 with
  | .leftOn => s.domLeaves x.1
  | .reachedRet => s
  | .reachedOff => s.domOff x.1
  | .onFromOff => s.domStarts x.1 true
  | .onFromRet => s.domStarts x.1 false
  | .returned => ((s.pagesReset x.1 true).recordsReset x.1 true).domStarts x.1 false

/-- The transitions of the cycle take effect, in their order. -/
def State.domEvents (s : State) : State :=
  let es := s.newDoms
  es.foldl State.domEvent { s with newDoms := [] }

end Sys2Proof.Machine
end

