-- ==== Sys2Proof/Machine/Ladder.lean ====
section
/-!
DEFINITION. Hangs (R335), the steps of the reset ladder (R336 to R339), the clearing of BLK_FAULT (R334), and the acknowledgement of faults
(R24, R330).
-/
namespace Sys2Proof.Machine

/-! ## The steps (R336) -/

/-- A domain power cycle forces a domain into its entry to OFF, which nothing can abort; a domain that is OFF or ramping stays as it is. -/
def State.forceOff (s : State) (d : Nat) : State :=
  match (s.dom d).st with
  | .on => s.enter d .on .off
  | .ret => s.enter d .ret .off
  | .entering frm _ c _ => s.setDom d { s.dom d with st := .entering frm .off c false }
  | _ => s

/-- The detector named as the cause where a block's ladder ends in the device reset: 0x3F for a hang. [DEDUCED, log entry 25] -/
def State.ladderCause (s : State) (b : Nat) : Nat := if (s.blk b).hung then 0x3F else (s.blk b).last

/-- Step 2: the block's domain and its children are cycled. PD_MGMT has none: step 3 starts (R337). -/
def State.cycleStart (s : State) (b : Nat) : State :=
  if blkDom b = 0 then s.s4 b (s.ladderCause b) false
  else ((s.setBlk b { s.blk b with step := .cycle s.cclk }).forceOff (blkDom b)).settlePower 0

/-- Step 1: the block is in reset, and its working state is cleared. -/
def State.engineStart (s : State) (b : Nat) : State := (s.setBlk b { s.blk b with step := .engine s.cclk }).clearWork b

/-- DEV_RESET_LAST (Table 15-12). -/
def resetLast (b step result dur : Nat) : W64 := put 32 (min dur (2 ^ 32 - 1)) ||| put 16 b ||| put 8 step ||| put 0 result

/-- A step due on a block starts (R332, R336): none while one runs, but a fault of the domain itself turns an engine reset into a cycle;
within the guard window of a step that succeeded, the step after it. [DEDUCED, log entry 25] -/
def State.stepDue (s : State) (x : Nat × Nat) : State :=
  let (b, n) := x
  if s.dev.down then s
  else match (s.blk b).step with
    | .cycle _ => s
    | .engine _ => if n = 2 then s.cycleStart b else s
    | .idle =>
      let guard := (s.rg (devR 0x148)).fld 32 32
      match (if n = 0 then none else (s.blk b).okStep) with
      | some (k, t, dur) =>
        if s.cclk < t + guard then
          let s := s.setRg (devR 0x160) (resetLast b k 4 dur)
          if k = 2 then s.s4 b (s.ladderCause b) false else s.cycleStart b
        else if n = 2 then s.cycleStart b else s.engineStart b
      | none => if n = 2 then s.cycleStart b else s.engineStart b

/-- The steps that the cycle asked for start. -/
def State.stepsDue (s : State) : State :=
  let xs := s.newSteps
  xs.foldl State.stepDue { s with newSteps := [] }

/-- The faults whose clearing waits for a step of the block: every bit set. The step on the host port also repairs PCIE_PLL_UNLOCK of the
clock block (Table 15-5). [DEDUCED, log entry 82] -/
def State.mend (s : State) (b : Nat) : State :=
  let s := s.setBlk b { s.blk b with mended := (s.blk b).fault }
  if b = 8 then s.setBlk 1 { s.blk 1 with mended := (s.blk 1).mended ||| bitMask 4 } else s

/-- A step ends (R336, R342): `result` is 1 done, 2 window passed, 3 self-check failed. -/
def State.stepEnds (s : State) (b result : Nat) : State :=
  let go := fun (k t : Nat) =>
    let dur := s.cclk - t
    let s := s.setRg (devR 0x160) (resetLast b k result dur)
    let s := s.tell (.recoveryReport s.chip b k result)
    if result = 1 then
      let s := s.sat (devR 0x1B8) (16 * (k - 1)) 16 1
      let s := (s.mend b)
      let s := s.setBlk b { s.blk b with step := .idle, hung := false, okStep := some (k, s.cclk, dur) }
      if k = 1 then s.afterReset b else s
    else
      let cause := s.ladderCause b
      let s := s.setBlk b { s.blk b with step := .idle }
      if k = 1 then s.cycleStart b else s.s4 b cause false
  match (s.blk b).step with
  | .idle => s
  | .engine t => go 1 t
  | .cycle t => go 2 t

/-- The blocks whose engine resets end together with that of block `b`: the four ports of a group whose PLL has lost lock (R172). [DEDUCED, log entry 25] -/
def State.stepMates (s : State) (b : Nat) : List Nat :=
  let p := pageOf b
  if p.kind == .port && !bitOf s.pins.pll (2 + p.inst / 4) then (List.range 4).map fun k => portB (p.inst / 4 * 4 + k) else [b]

/-- The engine reset of block `b`, and those that end together with it, end with a result. -/
def State.engineEnds (s : State) (b result : Nat) : State :=
  match (s.blk b).step with
  | .engine _ => (s.stepMates b).foldl (fun s m => match (s.blk m).step with
      | .engine _ => s.stepEnds m result
      | _ => s) s
  | _ => s

/-- ENGINE_RESET_DONE: the block reports reset done, and its self-check passes or fails. [DEDUCED, log entry 82] -/
def State.resetDone (s : State) (b : Nat) (ok : Bool) : State := s.engineEnds b (if ok then 1 else 3)

/-- RESET_WINDOW_EXPIRY. [DESIGN CHOICE, log entry 3, DEDUCED, log entry 82] -/
def State.resetLate (s : State) (b : Nat) : State := s.engineEnds b 2

/-- DOMAIN_ON: the ramp is complete (R318), and a power cycle of the ladder ends with its block's self-check. [DESIGN CHOICE, log entry 4] -/
def State.domainOn (s : State) (d : Nat) (ok : Bool) : State :=
  let s := s.rampDone d
  if s.domOn d && d ≠ 0 then
    (domBlks d).foldl (fun s b => match (s.blk b).step with
      | .cycle _ => s.stepEnds b (if ok then 1 else 3)
      | _ => s) s
  else s

/-- DEV_RESET_CTRL engine reset (R339). -/
def State.engineReq (s : State) (b : Nat) : State :=
  if 151 < b || !(s.inS3 b || s.quiescent) || (s.blk b).step != .idle then s.flag 0 12
  else s.engineStart b

/-- DEV_RESET_CTRL domain power cycle (R339). -/
def State.cycleReq (s : State) (b : Nat) : State :=
  if 151 < b || !(s.inS3 b || s.quiescent) || (s.blk b).step != .idle || blkDom b = 0 then s.flag 0 12
  else s.cycleStart b

/-- DEV_RESET_CTRL device reset (R339, R340): an S4 with the software cause; in a hold that only software ends, its end. [DEDUCED, log entry 26] -/
def State.deviceReq (s : State) (b : Nat) : State :=
  if 151 < b then s.flag 0 12
  else if !s.dev.down then s.s4 b 0 true
  else if s.dev.phase = 2 && !(s.rg (devR 0x150)).bit 32 then { s with dev := { s.dev with phase := 3 } }
  else s

/-- A write of DEV_RESET_CTRL (Table 15-12). [DEDUCED, log entry 26] -/
def State.resetCtrl (s : State) (v : W64) : State :=
  match v.fld 0 2 with
  | 1 => s.engineReq (v.fld 8 8)
  | 2 => s.cycleReq (v.fld 8 8)
  | 3 => s.deviceReq (v.fld 8 8)
  | _ => s

/-! ## Hangs (R27, R335) -/

/-- A mover of the tile holds a descriptor. -/
def Tile.moving (x : Tile) : Bool := x.movs.any fun (m : Nat × Mover) => !m.2.q.isEmpty || m.2.aborting

/-- The engine's control queue holds an item (R245): a packet for this chip that an ingress stage holds, or a local chunk that can be pulled. -/
def State.engineBusy (s : State) : Bool :=
  (s.swc.stages.any fun x => (x.pkt.kind == 5 || x.pkt.kind == 6) && x.pkt.dst == s.chip) ||
  s.insts.any fun (x : Nat × Inst) => match s.grpCfg (x.1 / 65536) with
    | some c => !(x.2.op == 5 || x.2.op == 6 || x.2.op == 7) && s.contributed c (x.1 / 65536) x.2 && (x.2.nextPull c x.2.chunks).isSome
    | none => false

/-- A slot holds flits not yet added, compared or forwarded (R271). -/
def PSlot.busy (y : PSlot) : Bool := !y.wait.isEmpty || !y.held.isEmpty || ((!y.limbs.isEmpty || y.codes.isSome) && !y.formed)

/-- Work is outstanding at a block, as its chapter defines its work (Table 15-2 and the block chapters). An HBM controller answers a request in
the command that makes it, so that none is queued between commands; a package link holds the rows that a mover has read and not yet written. [DESIGN CHOICE, log entry 28] -/
def State.working (s : State) (b : Nat) : Bool :=
  let p := pageOf b
  match p.kind with
  | .dev => s.dev.osaux
  | .clk => false
  | .log => false
  | .bob => false
  | .pwr => (List.range 84).any fun d => match (s.dom d).st with
      | .entering _ _ _ _ => true
      | .ramping _ _ => true
      | _ => false
  | .swc => !s.swc.stages.isEmpty || s.ports.any fun (x : Nat × Port) => !x.2.held.isEmpty || x.2.vcs.any fun v => !v.2.isEmpty
  | .sch => s.ports.any fun (x : Nat × Port) => x.2.carries && !x.2.held.isEmpty
  | .col => s.engineBusy
  | .hst => !s.hst.tlps.isEmpty
  | .sec => s.hst.mb == 1 || s.hst.boot == 1
  | .pan => (s.instsOf (s.inQuad p.inst)).any fun (x : Nat × Inst) => x.2.slots.any PSlot.busy
  | .cxl => !(s.cxl p.inst).reqs.isEmpty
  | .hbm => false
  | .port => (s.port p.inst).st == 3 || (s.port p.inst).st == 9
  | .tile => (s.tile p.inst).movs.any fun (m : Nat × Mover) => m.2.q.any fun op => !op.got.isEmpty
  | .spn => let n := (s.tile p.inst).spn; n == 1 || n == 2 || n == 3
  | .arr => !(s.arr p.inst).tearing && !(s.arr p.inst).ops.isEmpty
  | .vu => !(s.tile p.inst).vu.isEmpty
  | .mov => (s.tile p.inst).moving
  | .enc => (s.tile p.inst).vu.any fun r => r.enc.isSome
  | .cry => (s.cry p.inst).active && (s.cry p.inst).st != 3

/-- HANG: the window count of a block reached BLK_PROGRESS_WIN with work outstanding (R335). [DESIGN CHOICE, log entry 3, DESIGN CHOICE, log entry 28] -/
def State.hang (s : State) (b : Nat) : State :=
  let k := s.blk b
  if (s.rg (blkR b 0x030)).fld 0 32 = 0 || s.inReset b || !s.domOn (blkDom b) || !s.working b || k.hung then s
  else if b = 0 then s.flag 0 11
  else
    let s := s.setBlk b { k with hung := true }
    let s := s.capture { kind := 1, code := 0x3F, blk := b, inst := 0, sev := 3, detail := put 0 k.progress, live := !s.dev.down }
    if s.dev.down then s else (s.wantVec b).wantStep b 1

/-- BLK_PROGRESS_WIN_WRITE (R27). -/
def State.progressWin (s : State) (b : Nat) (v : W64) : State :=
  if hasEngine b && s.domOn (blkDom b) then s.setRg (blkR b 0x030) (v &&& 0xFFFFFFFF) else s

/-! ## BLK_FAULT and BLK_SEV_ACK (R24, R334) -/

/-- A set bit at S3 may clear (R334, Table 15-5). -/
def State.mayClear (s : State) (b d : Nat) : Bool :=
  let k := s.blk b
  let n := s.faultOf.get 0 (64 * b + d)
  if b = 0 ∧ d = 8 then (s.ctx n).st == 0
  else if b = 4 ∧ d = 1 then (s.ctx n).st != 3
  else if b = 2 ∧ (d = 0 ∨ d = 1) then s.domOn n
  else if b = 6 ∧ d = 2 then false
  else k.mended.bit d

/-- BLK_FAULT_W1C (R334): each bit by its effective severity; a bit that hardware set in this cycle stays (R9). [DEDUCED, log entry 20] -/
def State.faultW1c (s : State) (b : Nat) (v : W64) : State :=
  if !s.domOn (blkDom b) then s
  else
    let k := s.blk b
    let clears := fun d => v.bit d && k.fault.bit d &&
      (let e := k.eff.get 0 d; e < 3 || (e = 3 && s.mayClear b d))
    let off := (List.range (detCount b)).foldl (fun (m : W64) d => if clears d then m ||| bitMask d else m) 0
    let off := s.clearable (blkR b 0x010) off
    s.setBlk b { k with fault := k.fault &&& ~~~off, mended := k.mended &&& ~~~off }

/-- BLK_SEV_ACK_WRITE (R24, R330): the outstanding faults named are acknowledged. [DEDUCED, log entry 20] -/
def State.sevAck (s : State) (b : Nat) (v : W64) : State :=
  if !s.domOn (blkDom b) then s else s.setBlk b { s.blk b with ack := (s.blk b).ack ||| (s.clearable (blkR b 0x010) v &&& maskLow (detCount b)) }

/-! ## Views (Tables 1-11, 1-12, 15-12) -/

/-- BLK_ID. -/
def blkId (b : Nat) : W64 := put 16 (detCount b) ||| put 8 (pageOf b).inst ||| put 0 b

/-- BLK_STATUS. -/
def State.blkStatus (s : State) (b : Nat) : W64 :=
  let k := s.blk b
  put 8 k.last ||| putBit 5 (s.inReset b) ||| putBit 4 k.hung ||| putBit 3 (k.fault != 0) ||| put 0 (k.severity (detCount b))

/-- The block holds FAULT_N (R333). -/
def State.holdsFault (s : State) (b : Nat) : Bool :=
  s.domOn (blkDom b) && ((s.blk b).hung || decide (2 ≤ (s.blk b).severity (detCount b)))

/-- FAULT_N is low (R333). -/
def State.faultLow (s : State) : Bool := s.dev.down || (List.range 152).any s.holdsFault

/-- DEV_FAULT_SUM_k. -/
def State.faultSum (s : State) (k : Nat) : W64 :=
  (List.range 64).foldl (fun (v : W64) i => if 64 * k + i < 152 && s.holdsFault (64 * k + i) then v ||| bitMask i else v) 0

end Sys2Proof.Machine
end

