-- ==== Sys2Proof/Machine/Inject.lean ====
section
/-!
DEFINITION. Faults that come from the hardware itself (parity, PLLs, links, supply), and fault injection through BLK_INJECT (R26, R344,
R400, Table 15-8).
-/
namespace Sys2Proof.Machine

/-! ## Parity errors (Tables 8-9, 9-10, 9-12, 10-9, 11-7, 12-8 and 15-10) -/

/-- A parity detector of a block that works reports, with its effect. -/
def State.parity (s : State) (b d : Nat) (injected : Bool) (ctx : Option Nat) (effect : State → State) : State :=
  if s.up b then effect (s.flag b d { injected := injected, ctx := ctx }) else s

/-- CORE_PARITY: every flit held in the core is discarded. -/
def State.coreParity (s : State) (inj : Bool := false) : State := s.parity 3 7 inj none State.flushCore

/-- STATE_PARITY of the scheduler: every queued loose and tree packet is discarded. -/
def State.schParity (s : State) (inj : Bool := false) : State := s.parity 4 2 inj none State.dropQueues

/-- ENGINE_PARITY: every instance that the engine holds fails. -/
def State.engineParity (s : State) (inj : Bool := false) : State := s.parity 5 6 inj none State.failAll

/-- BITMAP_PARITY: every bobbin request fails until the creel's reset. -/
def State.bitmapParity (s : State) (inj : Bool := false) : State := s.parity 6 3 inj none fun s => { s with bitmapBad := true }

/-- SLOT_PARITY: every instance with quarters in the quadrant fails. -/
def State.slotParity (s : State) (q : Nat) (inj : Bool := false) : State := s.parity (10 + q) 7 inj none fun s => s.failQuad q

/-- MOVER_PARITY: every queued and running operation fails. -/
def State.moverParity (s : State) (t : Nat) (inj : Bool := false) : State :=
  s.parity (movBlk t) 2 inj (some (s.tile t).ctx) fun s => s.moversFail t

/-- TABLE_PARITY of a crystallizer: what it has left is skipped (R288). -/
def State.cryParity (s : State) (t : Nat) (inj : Bool := false) : State := s.parity (cryBlk t) 8 inj none fun s => s.crySkipAll t

/-- KEY_PARITY: signing and verification fail until the block's reset. -/
def State.keyParity (s : State) (inj : Bool := false) : State := s.parity 9 1 inj none id

/-- SEQ_PARITY of a spindle. -/
def State.seqTick (s : State) (t : Nat) (inj : Bool) : State := if s.up (spnBlk t) then s.seqParity t inj else s

/-- One parity check that runs in every cycle: an injected failure of it acts in the next (R344). -/
def State.parityOne (s : State) (b d : Nat) (effect : State → State) : State :=
  if s.up b then
    let (inj, s) := s.takeInject b d
    if inj then effect s else s
  else s

/-- The parity checks of a cycle. -/
def State.parityTick (s : State) : State :=
  let s := s.parityOne 3 7 fun s => s.coreParity true
  let s := s.parityOne 4 2 fun s => s.schParity true
  let s := s.parityOne 5 6 fun s => s.engineParity true
  let s := s.parityOne 6 3 fun s => s.bitmapParity true
  let s := s.parityOne 9 1 fun s => s.keyParity true
  let s := (List.range 4).foldl (fun s q => s.parityOne (10 + q) 7 fun s => s.slotParity q true) s
  (List.range 8).foldl (fun s t =>
    let s := s.parityOne (16 + t) 3 fun s => s.caParity t true
    let s := s.parityOne (spnBlk t) 7 fun s => s.seqTick t true
    let s := s.parityOne (movBlk t) 2 fun s => s.moverParity t true
    s.parityOne (cryBlk t) 8 fun s => s.cryParity t true) s

/-! ## Links, clocks and supply -/

/-- PKG_LINK_DOWN: every transfer over a tile's link fails. [DEDUCED, log entry 29] -/
def State.pkgDown (s : State) (t : Nat) (inj : Bool := false) : State :=
  if s.domOn (20 + t) then (s.modTile t fun x => { x with linkUp := false }).flag (tileBlk t) 5 { injected := inj, ctx := none } else s

/-- The host link is up. -/
def State.hostUp (s : State) : Bool := (s.rg (blkR 8 0x048)).bit 8

/-- The host link is down: HST_LINK reads 0, and accesses in progress are no longer answered. -/
def State.hostDown (s : State) : State := (s.setRg (blkR 8 0x048) 0).hostClear

/-- PCIE_LINK_DOWN. [DEDUCED, log entry 29] -/
def State.pcieDown (s : State) (inj : Bool := false) : State := (s.hostDown).flag 8 2 { injected := inj }

/-- PCIE_PLL_UNLOCK (Table 14-14): the host link goes down. [DEDUCED, log entry 29] -/
def State.pciePll (s : State) (inj : Bool := false) : State :=
  let s := (s.pllLoss 16).flag 1 4 { injected := inj }
  if s.hostUp then s.pcieDown inj else s

/-- REFCLK_LOSS (Table 14-14). -/
def State.refclkLoss (s : State) (inj : Bool := false) : State :=
  ({ s with pins := { s.pins with refclk := false } }).flag 1 0 { injected := inj }

/-- ROOT_UNLOCK (Table 14-14). -/
def State.rootLoss (s : State) (inj : Bool := false) : State := (s.pllLoss 0).flag 1 1 { injected := inj }

/-- IN_UNDERVOLT and IN_OVERVOLT (R307). -/
def State.supplyFault (s : State) (ovf : Bool) (inj : Bool := false) : State := s.flag 2 (if ovf then 3 else 2) { injected := inj }

/-- TEMP_WARN injected: temp_warn is held for one power interval. [DEDUCED, log entry 72] -/
def State.warnInject (s : State) : State := ({ s with pins := { s.pins with warnInj := true } }).flag 2 5 { injected := true }

/-! ## Injection (Table 15-8) -/

/-- Detectors of the kind 'event': one report with its full effect. -/
def isEvent (b d : Nat) : Bool :=
  match (pageOf b).kind with
  | .port => d == 1 || d == 8
  | .cxl => d == 3 || d == 4
  | .tile => d == 5
  | .hst => d == 2
  | .clk => true
  | .pwr => d < 7
  | .sec => d == 2
  | .dev => d == 11
  | _ => false

/-- Detectors of the kind 'refusal': reports, and nothing is refused. -/
def isRefusal (b d : Nat) : Bool :=
  match (pageOf b).kind with
  | .dev => d == 0 || d == 1 || d == 2 || d == 3 || d == 5 || d == 6 || d == 12
  | .pwr => d == 7
  | .swc => d == 5
  | .sch => d == 0
  | .sec => d == 0
  | .cxl => d == 5
  | .cry => d == 9
  | _ => false

/-- An injected event with its full effect; `n` is the count, which names a domain for RAMP_FAIL and CONVERTER_FAULT (R400). The PLL of which
CXL port an injected CXL_PLL_UNLOCK concerns is left open: a free value. [DESIGN CHOICE, log entry 10, DESIGN CHOICE, log entry 23] -/
def State.injectEvent (s : State) (b d n : Nat) : State :=
  let p := pageOf b
  match p.kind with
  | .port =>
    if d = 8 then s.serdesLoss (p.inst / 4) true
    else if (s.port p.inst).carries then s.portLoss p.inst true true
    else s.portFlag p.inst 1 true
  | .cxl => if (s.cxl p.inst).st = 2 then s.cxlLoss p.inst d true else s.flag b d { injected := true }
  | .tile => s.pkgDown p.inst true
  | .hst => s.pcieDown true
  | .clk =>
    match d with
    | 0 => s.refclkLoss true
    | 1 => s.rootLoss true
    | 2 => s.hclkLoss true
    | 3 => let (w, s) := s.draw; s.cxlPllLoss (w.toNat % 2) true
    | _ => s.pciePll true
  | .pwr =>
    match d with
    | 0 => if 83 < n then s else s.domFault n 0 true
    | 1 => if 83 < n then s else s.domFault n 1 true
    | 2 => s.supplyFault false true
    | 3 => s.supplyFault true true
    | 5 => s.warnInject
    | _ => s.flag b d { injected := true }
  | _ => s.flag b d { injected := true }

/-- One report of a detector of the kind 'refusal'. [DESIGN CHOICE, log entry 23] -/
def State.injectRefusal (s : State) (b d : Nat) : State :=
  s.flag b d { injected := true, detail := if b = 0 ∧ d = 3 then s.loadStatus else 0 }

/-- Injected refusals report, one of each detector in a cycle (Table 15-8). [DESIGN CHOICE, log entry 23] -/
def State.refusalTick (s : State) : State :=
  s.blks.foldl (fun s (x : Nat × Blk) =>
    x.2.inject.foldl (fun s (y : Nat × Nat) =>
      if isRefusal x.1 y.1 then
        match s.takeInject x.1 y.1 with
        | (true, s) => s.injectRefusal x.1 y.1
        | (false, s) => s
      else s) s) s

/-- BLK_INJECT (R26, R344): an event acts with the command; every other kind waits for its occasions, a refusal for the cycles that follow. [DESIGN CHOICE, log entry 23] -/
def State.injectWrite (s : State) (b : Nat) (v : W64) : State :=
  let n := v.fld 8 8
  let d := v.fld 0 6
  if !s.domOn (blkDom b) || n = 0 || detCount b ≤ d then s
  else if detBase b d = 4 && !(s.rg (devR 0x190)).bit 0 then s
  else
    let s := if detBase b d = 4 then s.setRg (devR 0x190) 0 else s
    if isEvent b d then s.injectEvent b d n
    else s.setBlk b { s.blk b with inject := (s.blk b).inject.set d n }

/-- DEV_INJECT_ARM (R344). -/
def State.armWrite (s : State) (v : W64) : State :=
  if v.bit 0 && !s.quiescent then s.flag 0 12 else s.setRg (devR 0x190) (v &&& 1)

/-! ## Timers (R400) -/

/-- One injected expiry of a timer detector, where one of its timers runs. -/
def State.timerTick (s : State) (b d : Nat) (runs : List Nat) (late : State → Nat → State) : State :=
  runs.foldl (fun s n =>
    let (inj, s) := s.takeInject b d
    if inj then late s n else s) s

/-- The contexts in a state that a test names. -/
def State.ctxsWith (s : State) (f : Ctx → Bool) : List Nat := (s.ctxs.filter fun (x : Nat × Ctx) => f x.2).map fun x => x.1

/-- Running timers whose expiry was injected reach their limit (R400). -/
def State.timersTick (s : State) : State :=
  let s := s.timerTick 4 1 (s.ctxsWith fun x => x.st == 2) fun s c => s.teardownLate c true
  let s := s.timerTick 0 7 (s.ctxsWith fun x => 1 ≤ x.phase && !x.timedOut) fun s c => s.harvestLate c true
  let groups := (s.insts.map fun (x : Nat × Inst) => x.1 / 65536).eraseDups
  let s := s.timerTick 5 4 groups fun s g => s.collTimeout g true
  (List.range 2).foldl (fun s c =>
    s.timerTick (14 + c) 2 ((s.cxl c).reqs.map fun _ => 0) fun s i => s.cxlLate c i true) s

end Sys2Proof.Machine
end

