-- ==== Sys2Proof/Machine/Device.lean ====
section
/-!
DEFINITION. The whole device: power and reset pins (R386 to R392), the device reset (R340, R341), the restart of the ROM (R366), and the
self-tests (R346 to R348).
-/
namespace Sys2Proof.Machine

/-! ## What survives -/

/-- What stays in the part when everything else is lost: SPI flash, its key store and the fused minimum (R369, R372, R367); with the waiting
commands, what the device has sent, and the free values drawn. -/
def State.bare (s : State) : State :=
  { pending := s.pending, out := s.out, free := s.free,
    hst := { flash := s.hst.flash, keyFlash := s.hst.keyFlash, fwKey := s.hst.fwKey, svnMin := s.hst.svnMin } }

/-! ## Pins -/

/-- PWR_EN falls (R390): every domain goes OFF without an entry, and every memory is lost. -/
def State.powerFall (s : State) : State :=
  if s.pins.pwrEn then
    { s.bare with pins := { pwrEn := false, pwrGood := false, rst := 0, rack := s.pins.rack } }
  else s

/-- PWR_EN rises (R390): PD_MGMT is powered, and PWR_GOOD is released. SYS_RESET_N is low until the board raises it (R391). -/
def State.powerRise (s : State) : State :=
  if s.pins.pwrEn then s else { s.bare with pins := { pwrEn := true, pwrGood := true, rst := 0, rack := s.pins.rack } }

/-- The PD_MGMT rails fail (R390): off until PWR_EN has gone low and high again. -/
def State.railFail (s : State) : State :=
  if s.pins.pwrEn && s.pins.pwrGood then
    { s.bare with pins := { pwrEn := true, pwrGood := false, railFailed := true, rst := 0, rack := s.pins.rack } }
  else s

/-- SYS_RESET_N low for 25 samples (R391): everything is reset, the recorder too; a device reset in progress is abandoned. -/
def State.resetAssert (s : State) : State :=
  if s.pins.pwrGood then { s.bare with pins := { rst := 0, rack := s.pins.rack } } else s

/-- The root PLL locks, and REC_TIME.time restarts (R357); with REFCLK present every other PLL locks too (R308). [DESIGN CHOICE, log entry 9, DEDUCED, log entry 29] -/
def State.rootLock (s : State) : State := { s with cclk := 0, pins := { s.pins with pll := 0x1FFFF } }

/-- SYS_RESET_N goes high (R366, R389): RACK_POS is sampled, the root PLL locks, the ROM starts, and the domains that V0 holds begin to ramp. [DESIGN CHOICE, log entry 9] -/
def State.resetDeassert (s : State) (rack : Nat) (fuseOk : Bool) : State :=
  if s.pins.pwrGood && s.pins.rst != 2 then
    let s := { s with pins := { s.pins with rst := 2, rack := rack, refclk := true } }
    let s := { s.rootLock with hst := { s.hst with keys := s.hst.keyFlash } }
    s.romRun fuseOk
  else s

/-- PERST_N (R392): the PCIe layers, the MSI-X table and the PBA; the host link is down, and no PCIE_LINK_DOWN reports. -/
def State.perst (s : State) : State :=
  let base := blkR 8 0x100000
  let s := { s with pins := { s.pins with perst := true }, regs := s.regs.drop fun o => base ≤ o && o < base + 0x3000 }
  s.hostDown

/-- PCIE_LINK_UP: the host link has trained, with PERST_N high, at a width and a rate of Table 17-7; no other link comes up. -/
def State.pcieUp (s : State) (width rate : Nat) : State :=
  if !([1, 2, 4].contains width && 1 ≤ rate && rate ≤ 7) then s
  else ({ s with pins := { s.pins with perst := false } }.setRg (blkR 8 0x048) (putBit 8 true ||| put 4 width ||| put 0 rate)).pllLock 16

/-! ## The device reset (R340, R341) -/

/-- DEVICE_RESET_HOLD_END: the hold of phase 2 ends by its timer, where DEV_S4_CFG.auto is 1. [DEDUCED, log entry 26] -/
def State.holdOver (s : State) : State :=
  if s.dev.down && s.dev.phase = 2 && (s.rg (devR 0x150)).bit 32 then { s with dev := { s.dev with phase := 3 } } else s

/-- The registers that a device reset keeps (R341): DEV_S4_CAUSE, DEV_RESET_LAST, DEV_RECOVERY_CNT, DEV_MODE, the recorder's page, HST_BOOT_CFG,
which only SYS_RESET_N clears (R366), and HST_LINK, which shows the link. [DEDUCED, log entry 26] -/
def keepReg (off : Nat) : Bool :=
  off == 0x168 || off == 0x160 || off == 0x1B8 || off == 0x050 || off == blkR 8 0x068 || off == blkR 8 0x048 ||
  (match locate off with | some (p, rel) => p.kind == .log && decide (0x40 ≤ rel) | none => false)

/-- The votes that a device reset keeps: V1, V3, V4 and V5; V0 holds what it holds at reset (R321, R341). -/
def Dom.afterReset (x : Dom) (d : Nat) : Dom :=
  let r := Dom.reset d
  { r with votes := r.votes + ([1, 3, 4, 5].map fun k => x.vote k * 4 ^ k).foldl (· + ·) 0 }

/-- Phase 3 (Table 15-6): every domain but PD_MGMT is forced OFF, everything that R341 does not keep is reset, and the recorder's epoch
advances. Osaux goes on unless the cause restarts the management cores at the ROM, which drops the plan too. [DEDUCED, log entry 26] -/
def State.deviceCycle (s : State) : State :=
  let rom := s.dev.romRestart
  let h := s.hst
  let hst : Hst :=
    { boot := h.boot, reason := h.reason, fromHost := h.fromHost, staging := h.staging, fw := h.fw, svnMin := h.svnMin, mbOut := h.mbOut,
      mbPlaced := h.mbPlaced, mbDropped := h.mbDropped, mbSerial := h.mbSerial, keys := h.keyFlash, keyFlash := h.keyFlash, fwKey := h.fwKey, debug := h.debug,
      debugSecs := h.debugSecs, nonce := h.nonce, plan := if rom then none else h.plan, flash := h.flash, lane := h.lane }
  let t : State :=
    { pending := s.pending, out := s.out, free := s.free, cclk := s.cclk, hst := hst,
      pins := { s.pins with duty := 0, dutySet := 0, dutyRun := 0, tempWarn := false, warnInj := false, refclk := true },
      regs := s.regs.filter fun r => keepReg r.1,
      doms := (List.range 83).map fun (i : Nat) => (i + 1, (s.dom (i + 1)).afterReset (i + 1)),
      rcd := { s.rcd with epoch := (s.rcd.epoch + 1) % 256 }, newEvts := s.newEvts, newVecs := s.newVecs,
      dev := { s.dev with phase := 4, test := {} } }
  let t := if bitOf t.pins.pll 0 then t else t.rootLock
  let t := if t.hst.debug then t else t.clearSlot 5
  if rom then (t.romRun true) else if t.dev.osaux then t.vote 0 3 ((List.range 14).map (· + 6)) else t

/-- DEVICE_RESET_POWER_CYCLE: phase 3 starts once the cause of the S4 has cleared (R340). [DEDUCED, log entry 26] -/
def State.powerCycle (s : State) (clear : Bool) : State :=
  if s.dev.down && s.dev.phase = 3 && clear then s.deviceCycle else s

/-- DEVICE_RESET_RETRAIN_DONE: training and enumeration have ended (Table 15-6, phase 4). -/
def State.retrained (s : State) : State :=
  if s.dev.down && s.dev.phase = 4 then { s with dev := { s.dev with phase := 5 } } else s

/-- DEV_PLAN_HASH (Table 1-16). -/
def State.planReg (s : State) : W64 := match s.hst.plan with | some p => BitVec.ofNat 64 (u p.hash 0 8) | none => 0

/-- A plan is in force at every port: the evaluation of each restarts (R169). -/
def State.plansPorts (s : State) : State := (List.range 48).foldl State.portPlan s

/-- DEVICE_READY: the self-checks passed, the plan is reinstalled, the message is sent, and device_down clears (Table 15-6, phase 5). [DESIGN CHOICE, log entry 22] -/
def State.deviceReady (s : State) : State :=
  if s.dev.down && s.dev.phase = 5 && s.dev.osaux then
    let dur := s.cclk - s.dev.s4At
    let s := { s with dev := { s.dev with down := false, phase := 0, romRestart := false, resets := s.dev.resets + 1 } }
    let s := if s.hst.plan.isSome then s.plansPorts else s
    let s := s.setRg (devR 0x160) (resetLast ((s.rg (devR 0x168)).fld 8 8) 3 1 dur)
    let s := (s.sat (devR 0x1B8) 32 16 1).note 0 7 s.planReg
    s.tell (.deviceReady s.chip (match s.hst.fw with | some f => f.version | none => 0) s.planReg dur)
  else s

/-! ## The restart of the ROM by software (Table 17-7) -/

/-- HST_BOOT_CTRL.reboot: only while quiescent; the image is unloaded and the plan discarded, and every power domain keeps its state. [DEDUCED, log entry 26] -/
def State.reboot (s : State) : State :=
  if s.quiescent then
    let s := s.dropImage
    let s := if s.ld.state = 4 then s.loadTo 0 0 else s
    ({ s with hst := { s.hst with plan := none } }).romRun true
  else s

/-! ## Self-tests (R346 to R348, Table 15-11) -/

/-- The blocks that a test takes into reset; none where its target does not exist. -/
def testBlks (code inst : Nat) : List Nat :=
  match code with
  | 1 => if inst < 32 then [arrBlk inst] else []
  | 2 => if inst < 8 then [cryBlk inst] else []
  | 3 => if inst < 4 then [10 + inst] else []
  | 4 => if inst < 8 then [16 + inst] else []
  | 5 => if inst < 8 then [vuBlk inst] else []
  | 6 => if inst < 8 then [tileBlk inst] else []
  | 7 => if inst = 0 then [6] else []
  | 8 => if inst < 12 then (List.range 4).map fun k => portB (4 * inst + k) else []
  | _ => []

/-- The test may be tagged to a harvest. [DEDUCED, log entry 27] -/
def testTags (code : Nat) : Bool := 1 ≤ code && code ≤ 4

/-- The test's condition for running at once (R346). -/
def State.testNow (s : State) (code d : Nat) : Bool :=
  if code = 6 || code = 7 then s.quiescent
  else s.quiescent || ((s.dom d).vote 5 == 3 && [0, 1, 2, 3, 4, 6, 7].all fun k => (s.dom d).vote k != 3)

/-- A block's test starts: it answers as a block in reset, and what it held fails (R347). -/
def State.testBegin (s : State) : State :=
  let bs := testBlks s.dev.test.code s.dev.test.inst
  let s := { s with dev := { s.dev with test := { s.dev.test with state := 2 } } }
  bs.foldl (fun s b => (s.setBlk b { s.blk b with testing := true }).clearWork b) s

/-- A test request ends with a status. -/
def State.testEnd (s : State) (st elem : Nat) : State :=
  { s with dev := { s.dev with test := { s.dev.test with state := 3, status := st, elem := elem } } }

/-- A request of DEV_TEST_CTRL (R346). [DEDUCED, log entry 27] -/
def State.testReq (s : State) (code inst : Nat) (atHarvest : Bool) (ctx : Nat) : State :=
  if s.dev.test.state = 1 || s.dev.test.state = 2 then { s with dev := { s.dev with test := { s.dev.test with status := 2 } } }
  else
    let s := { s with dev := { s.dev with test := { code := code, inst := inst, ctx := ctx } } }
    match testBlks code inst with
    | [] => s.testEnd 5 0
    | b :: _ =>
      let d := blkDom b
      if !s.domOn d then s.testEnd 5 0
      else if s.testNow code d then s.testBegin
      else if atHarvest && testTags code then
        { s with dev := { s.dev with test := { s.dev.test with state := 1, tagged := true } } }
      else s.testEnd (if atHarvest then 3 else 2) 0

/-- A write of DEV_TEST_CTRL. -/
def State.testCtrl (s : State) (v : W64) : State := s.testReq (v.fld 0 8) (v.fld 16 8) (v.bit 32) (v.fld 40 6)

/-- A pending test runs in the HOLD of its context, after a load and a swap, or is abandoned when the context closes (R301, R346). [DEDUCED, log entry 27] -/
def State.testTick (s : State) : State :=
  let t := s.dev.test
  if t.state ≠ 1 then s
  else if (s.ctx t.ctx).st ≠ 1 then s.testEnd 4 0
  else
    let held := fun (x : Ctx) => x.phase == 5 || x.held
    let ready := if testAll t.code then s.ctxs.all fun (x : Nat × Ctx) => x.2.st != 1 || held x.2 else (s.ctx t.ctx).phase == 5
    if ready && s.ld.state != 2 && s.ld.state != 3 && !s.swc.pend then s.testBegin else s

/-- The state of a block after its test (Table 15-11, last column). -/
def State.testLeaves (s : State) (code inst : Nat) : State :=
  match code with
  | 1 => s.modArr inst Arr.wipe
  | 5 => s.modTile inst fun x => { x with y := [] }
  | 6 => (s.forgetStore inst).loseImage
  | 8 => (List.range 4).foldl (fun s k =>
      let p := 4 * inst + k
      let s := s.modPort p fun x => x.mapLanes fun _ y => { y with trims := [] }
      if (s.port p).st = 0 && s.domOn (blkDom (portB p)) then s.portStart p else s) s
  | _ => s

/-- SELFTEST_DONE (R347, R348). [DESIGN CHOICE, log entry 4, DEDUCED, log entry 27] -/
def State.testDone (s : State) (pass : Bool) (elem : Nat) : State :=
  let t := s.dev.test
  if t.state ≠ 2 then s
  else
    let s := (testBlks t.code t.inst).foldl (fun s b => s.setBlk b { s.blk b with testing := false }) s
    let s := s.testLeaves t.code t.inst
    let (bad, s) := s.detect 0 10 (!pass)
    let s := s.testEnd (if bad then 1 else 0) elem
    if t.tagged && s.ld.state != 2 && !s.swc.pend then s.releaseAll else s

/-- DEV_TEST_STATUS (Table 15-12). -/
def State.testStatus (s : State) : W64 :=
  let t := s.dev.test
  put 32 t.status ||| put 24 t.elem ||| put 16 t.inst ||| put 8 t.state ||| put 0 t.code

/-- The IDCODE register of the JTAG TAP (R393). [DESIGN CHOICE, log entry 77] -/
def jtagIdcode : W32 := 0x1C096001 ||| (Config.jedec.zeroExtend 32 <<< 1)

/-- The TAP admits boundary scan (R393). [DESIGN CHOICE, log entry 77] -/
def State.boundaryScan (s : State) : Bool := s.quiescent

/-- DEV_STATE (Table 1-17). -/
def State.devState (s : State) : W64 :=
  putBit 3 s.dev.down ||| putBit 2 s.dev.osaux ||| putBit 1 s.inForce.isSome ||| putBit 0 s.quiescent

/-- DEV_CHIP (Table 1-17). -/
def State.devChip (s : State) : W64 := putBit 31 s.hst.plan.isSome ||| put 14 s.pins.rack ||| put 0 s.chip

/-- DEV_MODE_WRITE (R28). -/
def State.modeWrite (s : State) (v : W64) : State :=
  if s.quiescent then s.setRg (devR 0x050) (v &&& 1) else s.flag 0 1

end Sys2Proof.Machine
end

