-- ==== Sys2Proof/Machine/Recorder.lean ====
section
/-!
DEFINITION. The event recorder: the words of an entry (R352), placement and overwrite (R351, R353), the window (R354), and
corrected and lost slots (R356).
-/
namespace Sys2Proof.Machine

/-- The next sequence number (R351). -/
def nextSeq (n : Nat) : Nat := if n = 2 ^ 48 - 1 then 1 else n + 1

/-- `a` comes before `b` in sequence order, by their difference modulo 2^48 (R351). -/
def seqBefore (a b : Nat) : Bool := let d := (b + 2 ^ 48 - a) % 2 ^ 48; 0 < d && d < 2 ^ 47

/-- The four words of an entry (Table 16-1). -/
def Evt.words (e : Evt) (seq : Nat) : List W64 :=
  [ put 56 e.kind ||| putBit 52 e.escalated ||| putBit 51 e.injected ||| put 48 e.sev ||| put 0 seq,
    put 56 e.epoch ||| put 0 e.time,
    (match e.ctx with | some (c, h) => put 32 h ||| putBit 30 true ||| put 24 c | none => 0) |||
      put 16 e.inst ||| put 8 e.code ||| put 0 e.blk,
    e.detail ]

/-- The words a slot reads as: an entry, a lost entry of kind 0xFF (R356), or an empty slot. -/
def slotWords : Option Slot → List W64
  | some (.entry n e) => e.words n
  | some .lost => [put 56 0xFF, 0, 0, 0]
  | none => [0, 0, 0, 0]

/-- The number of slots of the log. -/
def logSlots : Nat := 65536

/-- The lowest-numbered slot that is empty or lost, from slot `k` on. -/
def freeSlot : Table Slot → Nat → Option Nat
  | [], k => if k < logSlots then some k else none
  | (j, x) :: m, k =>
    if k < j then some k
    else match x with
      | .lost => some j
      | .entry _ _ => freeSlot m (j + 1)

/-- Of two candidate slots, the one with the lower sequence number. -/
def olderSlot (best : Option (Nat × Nat × Nat)) (c : Nat × Nat × Nat) : Option (Nat × Nat × Nat) :=
  match best with
  | none => some c
  | some b => if seqBefore c.2.1 b.2.1 then some c else some b

/-- The slot with the lowest sequence number among entries of severity at most `sev`: slot, sequence number, severity. -/
def victim (m : Table Slot) (sev : Nat) : Option (Nat × Nat × Nat) :=
  m.foldl (fun best c => match c.2 with
    | .entry n e => if e.sev ≤ sev then olderSlot best (c.1, n, e.sev) else best
    | .lost => best) none

/-- What slot `k` held before this CCLK cycle (R354). -/
def Rec.before (r : Rec) (k : Nat) : Option Slot := match r.was.find k with | some x => x | none => r.log.find k

/-- Keep what slot `k` held before this cycle, as the slot is written. -/
def Rec.keep (r : Rec) (k : Nat) : Rec := { r with was := r.was.set k (r.before k) }

/-- An event takes its sequence number and its place in the log (R351, R353). -/
def State.place (s : State) (e : Evt) : State :=
  let seq := nextSeq s.rcd.head
  let s := { s with rcd := { s.rcd with head := seq } }
  let put := fun (s : State) (k : Nat) => { s with rcd := { s.rcd.keep k with log := s.rcd.log.set k (.entry seq e) } }
  let s := match freeSlot s.rcd.log 0 with
    | some k => put s k
    | none => match victim s.rcd.log e.sev with
      | some (k, _, sv) => (put s k).wrap (blkR 7 (0x0C0 + 8 * sv)) 48 1
      | none => s.sat (blkR 7 (0x080 + 8 * e.sev)) 0 32 1
  (s.notify e seq).autoAck e

/-- A queued event is placed in the log (R350). [DEDUCED, log entry 21] -/
def State.logWrite (s : State) : State :=
  match s.rcd.q with
  | [] => s
  | e :: q => ({ s with rcd := { s.rcd with q := q } }).place e

/-- REC_COUNT (Table 16-4). -/
def State.recCount (s : State) : Nat := (s.rcd.log.filter fun c => match c.2 with | .entry _ _ => true | .lost => false).length

/-- A slot found uncorrectable becomes a lost entry (R356); an entry written over it in this same cycle stands, and the copy alone shows it lost. -/
def State.loseSlot (s : State) (k : Nat) : State :=
  match s.rcd.before k with
  | some (.entry _ _) =>
    let r := match s.rcd.was.find k with
      | some _ => { s.rcd with was := s.rcd.was.set k (some .lost) }
      | none => { s.rcd with log := s.rcd.log.set k .lost }
    ({ s with rcd := r }).sat (blkR 7 0x060) 0 32 1
  | _ => s

/-- Copy slots 8k to 8k + 7 into REC_WINDOW, as they stood before the log writes of this cycle (R354). -/
def State.latch (s : State) (k : Nat) : State :=
  (List.range 8).foldl (fun s j =>
    (((slotWords (s.rcd.before (8 * k + j))).zip (List.range 4)).foldl
      (fun s w => s.setRg (blkR 7 (0x100 + 32 * j + 8 * w.2)) w.1) s)) s

/-- REC_CURSOR (R354, R356): `ce` and `ue` name a slot of the window whose read was corrected or uncorrectable. -/
def State.cursor (s : State) (v : W64) (ce ue : Option Nat) : State :=
  let k := v.fld 3 13
  let s := s.setRg (blkR 7 0x048) (v &&& 0xFFF8)
  let s := (s.detect 7 0 ce.isSome).2
  let (bad, s) := s.detect 7 1 ue.isSome
  let s := if bad then s.loseSlot (8 * k + ue.getD 0) else s
  s.latch k

end Sys2Proof.Machine
end

