-- ==== Sys2Proof/Machine/Access.lean ====
section
/-!
DEFINITION. Register accesses (R6 to R9, R18 to R21): what each register reads as, what a write of it does, the reads that
clear, accesses of the wrong size, and accesses over the fabric.
-/
namespace Sys2Proof.Machine

/-! ## What registers read as -/

/-- The eight bytes at register `k` of a table entry. -/
def entryReg (e : Option (List Byte)) (k : Nat) : W64 :=
  match e with
  | some bs => BitVec.ofNat 64 (u bs (8 * k) 8)
  | none => 0

/-- The common window (Table 1-10). -/
def State.winReg (s : State) (b r : Nat) : W64 :=
  if r = 0x000 then blkId b
  else if r = 0x008 then s.blkStatus b
  else if r = 0x010 then (s.blk b).fault
  else if r = 0x018 then s.rg (blkR b 0x018)
  else if r = 0x028 then put 0 (s.blk b).progress
  else if r = 0x030 then s.rg (blkR b 0x030)
  else if r = 0x038 then (s.blk b).ack
  else 0

/-- The device global page: the registers that show state kept elsewhere (Tables 1-16, 2-5, 13-6 and 15-12). -/
def State.devView (s : State) (r : Nat) : Option W64 :=
  if r = 0x040 then some (if Config.variantH then 0x810096 else 0x800096)
  else if r = 0x048 then some s.devChip
  else if r = 0x058 then some s.devState
  else if r = 0x060 then some s.imageHash
  else if r = 0x068 then some s.planReg
  else if r = 0x090 then some s.loadStatus
  else if r = 0x098 then some s.loadDetail
  else if r = 0x188 then some s.testStatus
  else if 0x1A0 ≤ r ∧ r < 0x1B8 then some (s.faultSum ((r - 0x1A0) / 8))
  else if 0x200 ≤ r ∧ r < 0x400 then some (s.hrvState ((r - 0x200) / 8))
  else none

/-- The power page (Tables 14-7, 14-11). -/
def State.pwrView (s : State) (r : Nat) : Option W64 :=
  if r = 0x058 then some s.capState
  else if 0x1000 ≤ r ∧ r < 0x12A0 then some (s.pwrDom ((r - 0x1000) / 8))
  else if 0x1800 ≤ r ∧ r < 0x1AA0 then some (put 0 (Config.bias ((r - 0x1800) / 8)).toNat)
  else none

/-- The error flags of 64 tallies (TILE_TALLY_ERRj). -/
def State.tallyErrs (s : State) (t j : Nat) : W64 :=
  (List.range 64).foldl (fun (v : W64) i => if (s.tally t (64 * j + i)).err then v ||| bitMask i else v) 0

/-- The tile common page. -/
def State.tileView (s : State) (t r : Nat) : Option W64 :=
  if r = 0x040 then some (s.tileCtxReg t)
  else if r = 0x048 then some (putBit 0 (s.tile t).linkUp)
  else if r = 0x060 then some (put 0 (s.tile t).expects.length)
  else if 0x068 ≤ r ∧ r < 0x088 then some (s.tallyErrs t ((r - 0x068) / 8))
  else if 0x800 ≤ r ∧ r < 0x1000 then
    let x := s.tally t ((r - 0x800) / 8)
    some (putBit 32 x.err ||| put 0 x.count)
  else none

/-- The spindle page. -/
def State.spnView (s : State) (t r : Nat) : Option W64 :=
  if r = 0x040 then some (s.spnState t)
  else if r = 0x048 then some (put 0 (s.tile t).pc)
  else if r = 0x050 then some (put 0 (s.tile t).base)
  else if r = 0x058 then some (put 0 (s.tile t).len)
  else none

/-- An array page. -/
def State.arrView (s : State) (i r : Nat) : Option W64 :=
  if r = 0x040 then some (s.arrShape i)
  else if r = 0x048 then some (s.arrState i)
  else if r = 0x058 then some (put 4 (Config.spares i 1).val ||| put 0 (Config.spares i 0).val)
  else none

/-- A port page (Tables 7-7 to 7-11). -/
def State.portView (s : State) (p r : Nat) : Option W64 :=
  let x := s.port p
  if r = 0x040 then some (s.portState p)
  else if r = 0x100 then some (s.discExpect p)
  else if r = 0x128 then some s.fwWindow
  else if 0x200 ≤ r ∧ r < 0x300 then
    let l := x.lane ((r - 0x200) / 0x40)
    let k := (r - 0x200) % 0x40
    if k = 0x00 then some l.stateReg else if k = 0x08 then some l.txBase else if k = 0x10 then some l.rxBase
    else if k = 0x18 then some l.trimReg else none
  else none

/-- The switch core page (Tables 8-6 and 8-8). -/
def State.swcView (s : State) (r : Nat) : Option W64 :=
  if r = 0x100 then some s.rteStatus
  else if 0x200 ≤ r ∧ r < 0x380 then some (put 0 (s.port ((r - 0x200) / 8)).occ)
  else if 0x1000 ≤ r ∧ r < 0x1800 then some (put 0 (s.rate ((r - 0x1000) / 8)))
  else if 0x40000 ≤ r ∧ r < 0x60000 then some (entryReg (s.entryAt 0x05 noInst ((r - 0x40000) / 32)) ((r - 0x40000) % 32 / 8))
  else if 0x60000 ≤ r ∧ r < 0x78000 then
    let p := (r - 0x60000) / 0x800
    let k := (r - 0x60000) % 0x800 / 8
    some ((List.range 4).foldl (fun (v : W64) j => v ||| put (16 * j) (s.wheel p (4 * k + j))) 0)
  else none

/-- The scheduler page. -/
def State.schView (s : State) (r : Nat) : Option W64 :=
  if r = 0x050 then some (put 0 s.nodeCfgs.length)
  else if 0x200 ≤ r ∧ r < 0x400 then some (s.ctxState ((r - 0x200) / 8))
  else if 0x400 ≤ r ∧ r < 0x2400 then some (s.schNode ((r - 0x400) / 8))
  else none

/-- A pan quadrant page. -/
def State.panView (s : State) (q r : Nat) : Option W64 :=
  if r = 0x048 then some (put 0 (1536 - (s.quartersUsed q).length))
  else if 0x100 ≤ r ∧ r < 0x1C0 then some (s.panOcc q ((r - 0x100) / 8))
  else if 0x200 ≤ r ∧ r < 0x2C0 then some (s.panStates q ((r - 0x200) / 8))
  else none

/-- The collective engine page. -/
def State.colView (s : State) (r : Nat) : Option W64 :=
  if r = 0x050 then some (put 0 s.insts.length)
  else if 0x100 ≤ r ∧ r < 0x120 then some (s.quadUnits ((r - 0x100) / 8))
  else if 0x100000 ≤ r ∧ r < 0x200000 then some (entryReg (s.entryAt 0x03 noInst ((r - 0x100000) / 64)) ((r - 0x100000) % 64 / 8))
  else if 0x200000 ≤ r ∧ r < 0x220000 then some (s.grpState ((r - 0x200000) / 8))
  else none

/-- The creel page. -/
def State.bobView (s : State) (r : Nat) : Option W64 :=
  if r = 0x040 then some (put 0 s.bobFree)
  else if r = 0x048 then some (put 0 s.retired.length)
  else if 0x100 ≤ r ∧ r < 0x140 then some (put 0 (s.quota ((r - 0x100) / 8)))
  else if 0x140 ≤ r ∧ r < 0x180 then some (put 0 (s.bobUsed ((r - 0x140) / 8)))
  else none

/-- The recorder page. -/
def State.logView (s : State) (r : Nat) : Option W64 :=
  if r = 0x040 then some (put 0 s.rcd.head)
  else if r = 0x050 then some (put 0 s.recCount)
  else if r = 0x058 then some (put 56 s.rcd.epoch ||| put 0 (s.cclk % 2 ^ 56))
  else none

/-- The host port page (Table 17-7). The layout of a message in HST_MB_OUT is not the spec's. [DESIGN CHOICE, log entry 14] -/
def State.hstView (s : State) (r : Nat) : Option W64 :=
  if r = 0x040 then some (put 16 0xC096 ||| put 0 Config.vendorId.toNat)
  else if r = 0x080 then some (putBit 16 s.hst.fromHost ||| put 8 s.hst.reason ||| put 0 s.hst.boot)
  else if r = 0x098 then some s.mbStatus
  else if 0x3000 ≤ r ∧ r < 0x4000 then
    some (if s.hst.mbSerial = 0 then 0 else Config.mbOutWord s.hst.mbSerial ((r - 0x3000) / 8))
  else none

/-- The security page (Table 17-11). -/
def State.secView (s : State) (r : Nat) : Option W64 :=
  if r = 0x040 then some Config.idKeyId
  else if r = 0x048 then some (match s.hst.fw with | some f => put 0 f.version | none => 0)
  else if r = 0x050 then some (put 32 s.svnMin ||| (match s.hst.fw with | some f => put 0 f.svn | none => 0))
  else if 0x058 ≤ r ∧ r < 0x078 then some (put 0 (s.keyReg ((r - 0x058) / 8)))
  else if r = 0x078 then some s.secDebug
  else none

/-- What a register of a page shows of state kept elsewhere; none for a register that is stored. [DEDUCED, log entry 86] -/
def State.view (s : State) (p : Page) (r : Nat) : Option W64 :=
  match p.kind with
  | .dev => s.devView r
  | .clk => if r = 0x040 then some s.clkStatus else none
  | .pwr => s.pwrView r
  | .swc => s.swcView r
  | .sch => s.schView r
  | .col => s.colView r
  | .bob => s.bobView r
  | .log => s.logView r
  | .hst => s.hstView r
  | .sec => s.secView r
  | .pan => s.panView p.inst r
  | .cxl => if r = 0x040 then some (s.cxlLink p.inst) else if r = 0x048 then some (s.cxlCap p.inst) else none
  | .hbm => if r = 0x040 then some (s.hbmCfg p.inst) else if r = 0x070 then some (s.hbmTempReg p.inst) else none
  | .port => s.portView p.inst r
  | .tile => s.tileView p.inst r
  | .spn => s.spnView p.inst r
  | .arr => s.arrView p.inst r
  | .vu => none
  | .mov => if 0x040 ≤ r ∧ r < 0x080 then some (s.movState p.inst ((r - 0x040) / 8)) else none
  | .enc => none
  | .cry =>
    if r = 0x040 then some (s.cryState p.inst)
    else if r = 0x048 then some (put 0 (s.cryEntries p.inst).length)
    else if 0x10000 ≤ r ∧ r < 0x20000 then some (s.cryStepReg p.inst ((r - 0x10000) / 8))
    else none

/-- The value of the 64-bit register at a BAR0 offset (R7, R8, R18, R19). -/
def State.readReg (s : State) (off : Nat) : W64 :=
  match locate off with
  | none => 0
  | some (p, r) =>
    if !s.domOn p.dom then 0
    else if r < 0x040 then s.winReg p.blk r
    else match s.view p r with
      | some v => v
      | none => match rowAt p.kind r with
        | some row => if row.acc == .wo then 0 else s.rg off
        | none => 0

/-! ## What a write does -/

/-- The bits that a 64-bit access, or a 32-bit access of one half, covers (R21). -/
def halfMask (off : Nat) (half : Bool) : W64 :=
  if !half then BitVec.allOnes 64 else if off % 8 = 4 then 0xFFFFFFFF00000000 else 0x00000000FFFFFFFF

/-- The data of a write, in its place in the register. [DEDUCED, log entry 52] -/
def placed (off : Nat) (half : Bool) (v : W64) : W64 :=
  if !half then v else if off % 8 = 4 then put 32 (v.fld 0 32) else put 0 (v.fld 0 32)

/-- The access is naturally aligned (R6). -/
def aligned (off : Nat) (half : Bool) : Bool := if half then off % 4 == 0 else off % 8 == 0

/-- A write of a stored register under its access code (R7, R8): `v` lies in place, `m` covers the bits accessed. -/
def State.storeReg (s : State) (off : Nat) (row : RegRow) (r : Nat) (v m : W64) : State :=
  let mask : W64 := if row.name = "MSIX_TABLE" then (if r / 8 % 2 = 1 then 0x1FFFFFFFF else BitVec.allOnes 64) else BitVec.ofNat 64 row.mask
  match row.acc with
  | .rw => s.setRg off ((s.rg off &&& ~~~m) ||| (v &&& m &&& mask))
  | .wo => s
  | .ro => s
  | .rc => s
  | .w1c => s.setRg off (s.rg off &&& ~~~(s.clearable off (v &&& m)))
  | .w1s => s.setRg off (s.rg off ||| (v &&& m &&& mask))

/-- A vector unmasked in the MSI-X table sends what is pending (R365). [PRESUMED, log entry 16, DEDUCED, log entry 84] -/
def State.sendPending (s : State) (vec : Nat) : State :=
  let o := blkR 8 (0x102000 + 8 * (vec / 64))
  if (s.rg o).bit (vec % 64) && !s.vecMasked vec then (s.setRg o (s.rg o &&& ~~~(bitMask (vec % 64)))).emit (.msix vec) else s

/-- A write of the common window (R22 to R27, R334, R344). `v` holds the written bits, `w` the register with them in it. -/
def State.winWrite (s : State) (b r : Nat) (v w : W64) : State :=
  if r = 0x010 then s.faultW1c b v
  else if r = 0x018 then s.setRg (blkR b 0x018) (w &&& maskLow (detCount b))
  else if r = 0x020 then s.injectWrite b v
  else if r = 0x030 then s.progressWin b w
  else if r = 0x038 then s.sevAck b v
  else s

/-- A write of a register with an effect of its own; none where it is only stored. `v` holds the written bits, `w` the register with
them in it. -/
def State.actWrite (s : State) (src : Src) (p : Page) (r : Nat) (v w : W64) : Option State :=
  match p.kind with
  | .dev =>
    if r = 0x050 then some (s.modeWrite w)
    else if r = 0x080 then some (s.loadCtrl v)
    else if r = 0x0B8 then some (s.progress 0)
    else if r = 0x158 then some (s.resetCtrl v)
    else if r = 0x180 then some (s.testCtrl v)
    else if r = 0x190 then some (s.armWrite w)
    else none
  | .pwr =>
    if r = 0x040 then some (s.voteCtrl src v)
    else if r = 0x120 then some (s.setRg (blkR 2 0x120) (w &&& 0x000FF0000FFC0000))
    else if r = 0x128 then some (s.setRg (blkR 2 0x128) 0)
    else none
  | .swc =>
    if r = 0x040 then some (s.swcCfg w)
    else if r = 0x060 then some (s.rcBurst w)
    else if r = 0x0F0 then some (s.rteCtrl v)
    else if 0x80000 ≤ r ∧ r < 0xA0000 then some (s.rteWrite 0 ((r - 0x80000) / 8) w)
    else if 0xA0000 ≤ r ∧ r < 0xC0000 then some (s.rteWrite 1 ((r - 0xA0000) / 8) w)
    else none
  | .sch => if r = 0x048 then some (s.shapeCtrl v) else if r = 0x058 then some (s.ctxCtrl v) else none
  | .port => if r = 0x048 then some (s.portCtrl p.inst v) else none
  | .cry => if 0x10000 ≤ r ∧ r < 0x20000 then some (s.cryStepWrite p.inst ((r - 0x10000) / 8) w) else none
  | .log => if r = 0x048 then some (s.cursor w none none) else none
  | .cxl => if 0x100 ≤ r ∧ r < 0x140 then some (s.hdmWrite p.inst ((r - 0x100) / 8) w) else none
  | .hst =>
    if r = 0x078 then
      let s := if v.bit 0 then s.reboot else s
      some (if v.bit 1 then s.bootGo else s)
    else if r = 0x090 then
      let s := if v.bit 1 then s.mbAck else s
      some (if v.bit 0 then s.doorbell else s)
    else none
  | _ => none

/-- A register write that is naturally aligned reaches its register (R7, R8, R18, R19, R21). -/
def State.writeReg (s : State) (src : Src) (off : Nat) (half : Bool) (x : W64) : State :=
  let o := off / 8 * 8
  match locate o with
  | none => s
  | some (p, r) =>
    if !s.domOn p.dom then s
    else
      let m := halfMask off half
      let v := placed off half x
      let w := (s.readReg o &&& ~~~m) ||| v
      if r < 0x040 then s.winWrite p.blk r v w
      else match s.actWrite src p r v w with
        | some t => t
        | none => match rowAt p.kind r with
          | some row =>
            let s := s.storeReg o row r v m
            if row.name = "MSIX_TABLE" then s.sendPending ((r - 0x100000) / 16) else s
          | none => s

/-- The register is cleared by a read (RC), and its domain is ON. -/
def State.clearsOnRead (s : State) (o : Nat) : Bool :=
  match rowOf o, locate o with
  | some row, some (p, r) => row.acc == .rc && decide (0x040 ≤ r) && s.domOn p.dom
  | _, _ => false

/-- An RC register is cleared in the bits of `m`, but for what hardware counted in this cycle (R9). -/
def State.clearRead (s : State) (o : Nat) (m : W64) : State :=
  let x := s.cyc.get (s.rg o, 0) o
  { s.setRg o ((s.rg o &&& ~~~m) ||| (x.2 &&& m)) with cyc := s.cyc.set o (x.1 &&& ~~~m, x.2) }

/-- A register read that is naturally aligned: its value, and the RC register cleared in the bits read (R7, R21). An RC register
reads as it was before the cycle counted in it (R9). [DEDUCED, log entry 52] -/
def State.takeReg (s : State) (off : Nat) (half : Bool) : W64 × State :=
  let o := off / 8 * 8
  let rc := s.clearsOnRead o
  let v := if rc then (s.cyc.get (s.rg o, 0) o).1 else s.readReg o
  let got := if !half then v else put 0 (v.fld (if off % 8 = 4 then 32 else 0) 32)
  (got, if rc then s.clearRead o (halfMask off half) else s)

/-! ## Who reaches the registers (R20, R21, R361, R375, R392) -/

/-- A TLP reaches the host port: the link is up and PERST_N is high. -/
def State.hostReaches (s : State) : Bool := !s.pins.perst && s.hostUp

/-- A TLP of the host: its PCIe checks (R361, R344). Answers whether it is delivered. -/
def State.hostTlp (s : State) : Bool × State :=
  let (_, s) := s.detect 8 0 false
  let (ue, s) := s.detect 8 1 false
  (!ue, s)

/-- A source reaches the register interconnect. [DEDUCED, log entry 51] -/
def State.srcReaches (s : State) (src : Src) : Bool :=
  match src with
  | .host => s.hostReaches
  | .osaux => s.dev.osaux
  | .jtag => s.hst.debug
  | .fabric => s.domOn 1

/-- An access of a source is delivered to the register interconnect. -/
def State.letIn (s : State) (src : Src) : Bool × State :=
  if !s.srcReaches src then (false, s) else if src == .host then s.hostTlp else (true, s)

/-- MISALIGNED_ACCESS (R6, R18, R329): no effect, and the owning block's ACCESS_SIZE, whatever the state of its domain. [DEDUCED, log entry 52] -/
def State.badSize (s : State) (src : Src) (off : Nat) : State :=
  match locate off with
  | none => s
  | some (p, _) => s.sizeFault p.blk off (src == .fabric)

/-- A register write of a source (R6, R7, R21). [DEDUCED, log entry 51] -/
def State.regWrite (s : State) (src : Src) (off : Nat) (half : Bool) (v : W64) : State :=
  match s.letIn src with
  | (false, s) => s
  | (true, s) =>
    let s := if src == .host then s.progress 8 else s
    if aligned off half then s.writeReg src off half v else s.badSize src off

/-- A register read of a source (R6, R7, R9, R21). [DEDUCED, log entry 51] -/
def State.regRead (s : State) (src : Src) (off : Nat) (half : Bool) : State :=
  if !s.srcReaches src then s
  else match s.letIn src with
  | (false, s) => s.emit (.abort off)
  | (true, s) =>
    let s := if src == .host then s.progress 8 else s
    if aligned off half then
      let (v, s) := s.takeReg off half
      s.emit (.readData src off v)
    else (s.badSize src off).emit (.readData src off 0)

/-- An access of `size` bytes (R6): one that is not a naturally aligned 32-bit or 64-bit access completes without effect. [DEDUCED, log entry 52] -/
def State.misaligned (s : State) (src : Src) (off size : Nat) : State :=
  if (size = 4 && off % 4 = 0) || (size = 8 && off % 8 = 0) then s
  else match s.letIn src with
    | (false, s) => s
    | (true, s) =>
      let s := if src == .host then s.progress 8 else s
      (s.badSize src off).emit (.readData src off 0)

/-- An access to the register block over the fabric, admitted (R20): its data, zero for a write. [DEDUCED, log entry 51] -/
def State.fabricReg (s : State) (off : Nat) (half : Bool) (w : Option W64) : W64 × State :=
  if !aligned off half then (0, s.badSize .fabric off)
  else match w with
    | some v => (0, s.writeReg .fabric off half v)
    | none => s.takeReg off half

/-- PRIV_ACCESS (R20). -/
def State.privFault (s : State) (c : Nat) : State := s.flag 0 0 { ctx := some c }

/-- The context is open and carries the privileged attribute (R20, R211). -/
def State.privileged (s : State) (c : Nat) : Bool := (s.ctx c).st != 0 && (s.ctx c).priv

/-- FABRIC_REG_ACCESS: a context of this device reaches the register block only with the privileged attribute (R20). [DEDUCED, log entry 51] -/
def State.fabricAccess (s : State) (c : Nat) (off : Nat) (half : Bool) (w : Option W64) : State :=
  if s.privileged c then
    let (v, s) := s.fabricReg off half w
    s.emit (.regDone c off stOk v)
  else (s.privFault c).emit (.regDone c off stDenied 0)

end Sys2Proof.Machine
end

