-- ==== Sys2Proof/Machine/Target.lean ====
section
/-!
DEFINITION. Inbound packets at their destination: memory requests (R127, R128, R141, R187), the register block over the fabric (R20),
messages to Osaux, completions, the checks of R177 and R214 at local delivery, and the heads and chunks that reach the core (R180, R181,
R190, R191).
-/
namespace Sys2Proof.Machine

/-! ## Inbound requests -/

/-- An access of a remote request to the register block (R20): a privileged head performs it, one of 4 or 8 B only. -/
def State.targetReg (s : State) (k : Pkt) (off : Nat) : State :=
  if !k.priv then (s.privFault k.ctx).respond k stDenied []
  else if k.length ≠ 4 ∧ k.length ≠ 8 then (s.badSize .fabric off).respond k stOk (if k.kind = 0 then leBytes k.length 0 else [])
  else
    let w : Option W64 := if k.kind = 1 then some (BitVec.ofNat 64 (u k.data 0 k.length)) else none
    let (v, s) := s.fabricReg off (k.length == 4) w
    s.respond k stOk (if k.kind = 0 then leBytes k.length v.toNat else [])

/-- A checked request to a CXL half (R143, R144): it stages in a bobbin of class CXL until its completion. `b` is its bobbin of class
TARGET. [DESIGN CHOICE, log entry 47] -/
def State.targetCxl (s : State) (k : Pkt) (c o b : Nat) : State :=
  if s.cxlFails c then s.respond k stRemote []
  else match s.bobTake 6 with
    | (0, x, s) => s.modCxl c fun y => { y with reqs := y.reqs ++
        [{ off := o, len := k.length, data := if k.kind = 1 then some k.data else none, pkt := some k, bob := x, tgt := some b }] }
    | (st, _, s) => s.respond k st []

/-- A request to local memory: checked, read or written, and answered with its status (R12, R127, R130, R137). [DEDUCED, log entry 49] -/
def State.targetMem (s : State) (k : Pkt) (o : Nat) : State :=
  if k.kind = 1 then (let (st, s) := s.put_ none (.ctx k.ctx k.priv) o k.data; s.respond k st [])
  else (let ((st, bs), s) := s.fetch none (.ctx k.ctx k.priv) o k.length; s.respond k st bs)

/-- A request is performed at its target (R127, R128, Table 9-8 class TARGET). [DEDUCED, log entry 49] -/
def State.perform (s : State) (k : Pkt) : State :=
  match s.bobTake 4 with
  | (0, b, s) =>
    let o := addrOff k.address
    match s.place_ o with
    | .regs off => s.targetReg k off
    | .cxl c _ =>
      match s.access (.ctx k.ctx k.priv) o k.length (k.kind == 1) with
      | (0, s) => s.targetCxl k c o b
      | (st, s) => s.respond k st []
    | _ => s.targetMem k o
  | (st, _, s) => s.respond k st []

/-- The key under which a target keeps the expected number of R141. -/
def expKey (k : Pkt) : Nat := seqKey k.unit k.src k.ctx

/-- Held arrivals that have become the expected ones are performed in order (R141); `n` bounds their number. One whose bobbin cannot be read is
discarded (R221), and its source sends it again. -/
def State.performHeld (s : State) (key : Nat) : Nat → State
  | 0 => s
  | n + 1 =>
    match s.swc.early.find? fun e => expKey e.pkt == key && e.pkt.seq == s.swc.exps.get 0 key with
    | none => s
    | some e =>
      let (kept, s) := s.readBob e.bob
      let s := s.modSwc fun x => { x with early := x.early.erase e }
      if kept then ((s.modSwc fun x => { x with exps := x.exps.set key ((x.exps.get 0 key + 1) % 65536) }).perform e.pkt).performHeld key n else s

/-- A request that carries a sequence number (R141, R187). [DEDUCED, log entry 54] -/
def State.ordered (s : State) (k : Pkt) : State :=
  let key := expKey k
  let d := (k.seq + 65536 - s.swc.exps.get 0 key) % 65536
  let dup := fun (s : State) => s.sat (blkR 3 0x0D8) 0 32 1
  if d = 0 then
    let s := s.modSwc fun x => { x with exps := x.exps.set key ((k.seq + 1) % 65536) }
    (s.perform k).performHeld key 32
  else if d ≤ 32 then
    if s.swc.early.any fun e => expKey e.pkt == key && e.pkt.seq == k.seq then dup s
    else match s.bobTake 7 with
      | (0, b, s) => s.modSwc fun x => { x with early := x.early ++ [⟨k, b⟩] }
      | (_, _, s) => s
  else if d ≤ 32767 then s.sat (blkR 6 0x1F8) 0 32 1
  else if k.kind = 1 then (dup s).respond k stOk []
  else (dup s).perform k

/-- A request that has passed its packet checks. [DEDUCED, log entry 53, DEDUCED, log entry 54, DEDUCED, log entry 85] -/
def State.request (s : State) (k : Pkt) : State := if k.seqValid && k.unit < 8 then s.ordered k else s.perform k

/-- A management message for Osaux (kind 4): delivered where Osaux runs, and answered (R186); where it does not, the completion says that the
message failed. [DEDUCED, log entry 54] -/
def State.message (s : State) (k : Pkt) : State :=
  if s.dev.osaux then (s.emit (.message k)).respond k stOk [] else s.respond k stRemote []

/-! ## Local delivery -/

/-- A loose packet for this chip: its CRC-32C is checked (R177), then its generation (R214). [DEDUCED, log entry 53, DESIGN CHOICE, log entry 55] -/
def State.deliver (s : State) (k : Pkt) : State :=
  let s := s.fwd
  if !pktOk k then s.sat (blkR 3 0x0C0) 0 32 1
  else if k.kind = 6 then s.engine k
  else if s.stale k.ctx k.gen then s.countStale
  else match k.kind with
    | 0 => s.request k
    | 1 => s.request k
    | 2 => s.completion k
    | 3 => s.completion k
    | 4 => s.message k
    | _ => s

/-- A packet of one of the kinds that a row names reaches its target. -/
def State.arrives (s : State) (k : Pkt) (named : Bool) : State :=
  if named && k.dst == s.chip && s.coreOk then s.deliver k else s

/-! ## Heads at the core -/

/-- Heads and chunks reach the core from a port only while it is UP or UP_IDLE (R168). -/
def State.hears (s : State) (p : Option Nat) : Bool :=
  s.coreOk && (match p with | some q => s.usable q | none => true)

/-- TREE_HEAD_ARRIVAL (R181, R200, R240). -/
def State.treeArrival (s : State) (p : Option Nat) (k : Pkt) (l : Look) : State :=
  if !s.hears p || k.kind ≠ 5 then s
  else match s.look l false with
    | (true, s) => s.treeHead p k
    | (false, s) => s.sat (blkR 3 0x0E8) 0 32 1

/-- LOOSE_HEAD_ARRIVAL (R176, R180, R181, R200). -/
def State.looseHead (s : State) (p : Option Nat) (busy : List Nat) (k : Pkt) (l : Look) : State :=
  if !s.hears p || k.kind = 5 then s
  else
    let here := k.dst == s.chip
    match s.look l (!here) with
    | (false, s) => s
    | (true, s) => if here then s.deliver k else (s.forward p busy 0 s.cclk k).2

/-- HEAD_REEVALUATE: the i-th head that waits in an ingress stage (R176). -/
def State.reevaluate (s : State) (i : Nat) (busy : List Nat) : State :=
  match s.swc.stages[i]? with
  | none => s
  | some g =>
    if !s.coreOk then s
    else
      let s := s.modSwc fun x => { x with stages := x.stages.eraseIdx i }
      if g.pkt.dst = s.chip then s.deliver g.pkt else (s.forward g.frm busy g.evals g.since g.pkt).2

/-- PINNED_CHUNK_ARRIVAL (R190, R191, Table 8-9). [DEDUCED, log entry 57] -/
def State.pinnedChunk (s : State) (p : Nat) (c : Chunk) (l : Look) (ev : PanEv) : State :=
  if !s.hears (some p) then s
  else match s.look l true with
    | (false, s) => s.pinDrop chunkFlits
    | (true, s) =>
      let e := s.ringIn c.ring p
      match s.detect 3 3 e.isNone, e with
      | (false, s), some e =>
        let (twice, s) := s.detect 3 4 (e.dateLine == 1 && c.vc == 1)
        if twice then s.pinDrop chunkFlits
        else if e.transit then (s.progress 3).vcPut e (max c.vc e.dateLine) c
        else (s.progress 3).panChunk c ev
      | (_, s), _ => s.pinDrop chunkFlits

end Sys2Proof.Machine
end

