-- ==== Sys2Proof/Machine/Frames.lean ====
section
/-!
DEFINITION. Frames (R154 to R157): what a port puts into a frame under its slot wheel (R193, R194, R164, R166), and what it takes out of
one (R156, R195).
-/
namespace Sys2Proof.Machine

/-! ## Sending -/

/-- A port that sends frames: its lanes are active and it exchanges control flits (Table 7-7, R168). In UP_IDLE it does so in the last step of
its exit (R162). -/
def Port.sends (x : Port) : Bool :=
  x.st == 1 || x.st == 2 || x.st == 3 || x.st == 5 || x.st == 6 || x.st == 9 || (x.st == 4 && x.exiting)

/-- A port that sends hellos and verdicts (R164, R166, R168, R169). -/
def Port.hails (x : Port) : Bool := x.evaluating || x.st == 5 || x.st == 6

/-- The hello and the verdict that fall due in a frame join the control flits that wait for a free position 0. [DESIGN CHOICE, log entry 31] -/
def State.dueCtls (s : State) (p : Nat) : State :=
  let x := s.port p
  if !x.hails then s
  else if x.txSlot % 16 = 0 then s.queueCtl p (.hello (s.myHello p))
  else if x.txSlot % 16 = 8 then
    match x.verdict with
    | some v => s.queueCtl p (.verdict v)
    | none => s
  else s

/-- The next control flit leaves, or IDLE. In UP_IDLE only IDLE does (R162). -/
def State.takeCtl (s : State) (p : Nat) : Ctl × State :=
  if (s.port p).st = 4 then (.idle, s)
  else match (s.port p).ctls with
    | c :: rest => (c, s.modPort p fun x => { x with ctls := rest })
    | [] => (.idle, s)

/-- The chunk of a ring that an egress sends next: VC1 before VC0 (R193). -/
def Port.nextVc (x : Port) (r : Nat) : Option Nat :=
  if (x.vcs.get [] (2 * r + 1)).isEmpty then (if (x.vcs.get [] (2 * r)).isEmpty then none else some 0) else some 1

/-- A port after one more flit of a ring's chunk has left. -/
def Port.sentFlit (x : Port) (r vc n : Nat) : Port :=
  let k := 2 * r + vc
  if n + 1 = chunkFlits then { x with vcs := x.vcs.set k ((x.vcs.get [] k).drop 1), tx := x.tx.drop fun j => j == r }
  else { x with tx := x.tx.set r (vc, n + 1) }

/-- The nine bobbins of the chunk at the head of a VC buffer (R190, R220): the buffers follow one another in the order of the ring entries, VC0
before VC1, and the chunk at the head occupies the first nine of its buffer. [DESIGN CHOICE, log entry 94] -/
def State.vcBobbins (s : State) (p r vc : Nat) : List Nat :=
  match s.rings.findIdx? fun e => e.ring == r && e.egress == p with
  | none => []
  | some i =>
    let size := fun (e : RingEntry) => 9 * e.vcBuf
    let base := ((s.rings.take i).map fun e => 2 * size e).foldl (· + ·) 0
    let own := match s.rings[i]? with | some e => size e | none => 0
    (s.vcBobs.drop (base + vc * own)).take 9

/-- The chunk at the head of a VC buffer is read out of its bobbins (R221): whether it survives. -/
def State.readChunk (s : State) (p r vc : Nat) : Bool × State :=
  (s.vcBobbins p r vc).foldl (fun (x : Bool × State) b => let (ok, s) := x.2.readBob b; (x.1 && ok, s)) (true, s)

/-- Up to `n` pinned flits of a ring, in order (R193). A chunk whose bobbins cannot be read is discarded as it would start. -/
def State.pinFlits (s : State) (p r : Nat) : Nat → List (List Byte) × State
  | 0 => ([], s)
  | n + 1 =>
    let x := s.port p
    let cur := match x.tx.find r with
      | some c => some c
      | none => (x.nextVc r).map fun vc => (vc, 0)
    match cur with
    | none => ([], s)
    | some (vc, k) =>
      match x.vcs.get [] (2 * r + vc) with
      | [] => ([], s)
      | c :: rest =>
        let (ok, s) := if k = 0 then s.readChunk p r vc else (true, s)
        if ok then
          let (fs, s) := (s.modPort p fun x => x.sentFlit r vc k).pinFlits p r n
          (slice (chunkBytes c) (64 * k) 64 :: fs, s)
        else
          ((s.modPort p fun x => { x with vcs := x.vcs.set (2 * r + vc) rest }).pinDrop chunkFlits).pinFlits p r n

/-- The offset that the next flit of a ring has in its chunk (R194). -/
def Port.pinOffset (x : Port) (r : Nat) : Nat := match x.tx.find r with | some (_, k) => k | none => 0

/-- Loose and tree packets into `room` positions, at most `n` selections (R206). -/
def State.looseFlits (s : State) (p : Nat) : Nat → Nat → List Pkt × State
  | 0, _ => ([], s)
  | n + 1, room =>
    if room = 0 || (s.port p).occ = 0 then ([], s)
    else match s.egress p room with
      | (some k, left, s) =>
        let (ks, s) := s.looseFlits p n left
        (k :: ks, s)
      | (none, left, s) => if left = room then s.looseFlits p n left else ([], s)

/-- The scheduler fills a frame's free positions: it checks its state first (R222). -/
def State.fillLoose (s : State) (p room : Nat) : List Pkt × State :=
  if !s.ok 4 then ([], s)
  else
    let (bad, s) := s.detect 4 2 false
    if bad then ([], s.dropQueues) else s.looseFlits p 64 room

/-- The traffic of one frame of a port in UP: the ring that its wheel entry names first, then the scheduler (R194). [DESIGN CHOICE, log entry 58, DEDUCED, log entry 75] -/
def State.traffic (s : State) (p entry : Nat) : Option Ctl × List (List Byte) × List Pkt × State :=
  let off := (s.port p).pinOffset entry
  let (ps, s) := if entry = 0xFFFF then ([], s) else s.pinFlits p entry 19
  let s := s.wrap (blkR (portB p) 0x078) 64 ps.length
  let (ks, s) := s.fillLoose p (19 - ps.length)
  let s := if ps.isEmpty && ks.isEmpty then s else s.modPort p fun x => { x with traffic := s.cclk }
  (if entry = 0xFFFF then none else some (.pinned entry (if ps.isEmpty then 255 else off)), ps, ks, s)

/-- FRAME_SEND (R194, R164, R166, R161). The frames that end an exit from electrical idle carry the number of the last frame before it, since the
slot number does not advance in UP_IDLE (R161). [DEDUCED, log entry 75, DEDUCED, log entry 87] -/
def State.frameSend (s : State) (p : Nat) : State :=
  let x := s.port p
  if !x.sends then s
  else
    let slot := if x.st = 4 then (x.txSlot + 1023) % 1024 else x.txSlot
    let s := s.dueCtls p
    let stop := x.eiStop
    let (pin, ps, ks, s) :=
      if x.st = 3 && !s.dev.down && s.coreOk then s.traffic p (s.wheel p slot) else (none, [], [], s)
    let (c, s) := match pin with
      | some c => (c, s)
      | none => s.takeCtl p
    let s := s.modPort p fun x => { x with txSlot := (slot + 1) % 1024, eiStop := x.eiStop || (c == .eiAck && x.st == 3) }
    let s := (s.emit (.frame p (mkFrame slot c ps ks))).ctlSent p c
    if stop && (s.port p).st = 3 then s.eiEnter p else s

/-! ## Receiving -/

/-- A pinned flit of a ring arrives in order (R195): with its last flit the whole chunk goes to the core. `l` and `ev` are what the chunk meets
there. -/
def State.pinTake (s : State) (p r : Nat) (l : Look) (ev : PanEv) (flit : List Byte) : State :=
  let y := (s.port p).rx.get {} r
  let y := { got := y.got + 1, bytes := y.bytes ++ flit : PinRx }
  let set := fun (y : PinRx) => s.modPort p fun x => { x with rx := x.rx.set r y }
  if y.got < chunkFlits then set y else (set {}).pinnedChunk p (chunkOf y.bytes) l ev

/-- The pinned positions of a frame (R195): an unexpected offset discards the incomplete chunk, and what precedes the next head. -/
def State.pinFrame (s : State) (p r off : Nat) (l : Look) (ev : PanEv) (fs : List (List Byte)) : State :=
  if off = 255 then s.pinDrop fs.length
  else
    let got := ((s.port p).rx.get {} r).got
    if got = off then fs.foldl (fun s f => s.pinTake p r l ev f) s
    else
      let skip := if off = 0 then 0 else min (chunkFlits - off) fs.length
      let s := (s.pinDrop (got + skip)).modPort p fun x => { x with rx := x.rx.set r {} }
      (fs.drop skip).foldl (fun s f => s.pinTake p r l ev f) s

/-- A loose or tree head of a frame, with what it met at the core. -/
def State.headIn (s : State) (p : Nat) (x : Pkt × Look) : State :=
  if x.1.kind = 5 then s.treeArrival (some p) x.1 x.2 else s.looseHead (some p) [] x.1 x.2

/-- The traffic flits of a frame that is kept go to the core (R156, R168). `looks` says what its heads met there, in order, and `pl` and `ev` what
the chunk met whose last flit it brings. -/
def State.frameIn (s : State) (p : Nat) (f : Frame) (looks : List Look) (pl : Look) (ev : PanEv) : State :=
  let ps := framePinned f
  let ks := frameLoose f
  let n := ps.length + (frameFlits f 2).length
  if !s.usable p || s.dev.down || n = 0 then s
  else
    let s := (s.wrap (blkR (portB p) 0x080) 64 n).modPort p fun x => { x with traffic := s.cclk }
    let s := match frameCtl f with
      | some (.pinned r off) => s.pinFrame p r off pl ev ps
      | _ => s.pinDrop ps.length
    (ks.zip (looks ++ List.replicate ks.length .clean)).foldl (fun s x => s.headIn p x) s

/-- A codeword of a frame is decoded (R154, R156, R344): whether it fails, or is made to; what it corrects counts (R171). -/
def State.codeword (s : State) (p : Nat) (f : Frame) (k : Nat) : Bool × State :=
  match s.detect (portB p) 0 (cwBad f k) { detail := s.portState p } with
  | (true, s) => (true, s.sat (blkR (portB p) 0x068) 0 32 1)
  | (false, s) =>
    let s := if (cwErrors f k).isEmpty then s else s.sat (blkR (portB p) 0x060) 0 32 1
    (false, (List.range 4).foldl (fun s l =>
      if cwFixed f k l = 0 then s else s.sat (blkR (portB p) (0x220 + 0x40 * l)) 0 32 (cwFixed f k l)) s)

/-- A frame is discarded (R156); eight in a row take a port in UP down (R163). -/
def State.frameLost (s : State) (p : Nat) : State :=
  let s := (s.sat (blkR (portB p) 0x070) 0 32 1).modPort p fun x =>
    { x with lostRun := x.lostRun + 1, rxSlot := x.rxSlot.map fun n => (n + 1) % 1024 }
  let x := s.port p
  if x.st = 3 && 8 ≤ x.lostRun then s.portLoss p true false else s

/-- The slot number of a kept frame: what it skips is lost (R156, R157). A frame that repeats the number of the last one, as those that end an
exit do, skips nothing (R161). [DEDUCED, log entry 30, DEDUCED, log entry 87] -/
def State.frameSlot (s : State) (p : Nat) (f : Frame) : State :=
  let x := s.port p
  match frameCtl f with
  | none => s.setPort p { x with rxSlot := x.rxSlot.map fun n => (n + 1) % 1024 }
  | some _ =>
    let k := frameSlotNo f
    let skipped := match x.rxSlot with | some n => (k + 1024 - n) % 1024 % 1023 | none => 0
    ((s.setPort p { x with rxSlot := some ((k + 1) % 1024) }).sat (blkR (portB p) 0x070) 0 32 skipped).setRg (blkR (portB p) 0x098) (put 0 k)

/-- FRAME_RECEIVED (R156, R157, R168). -/
def State.frameReceived (s : State) (p : Nat) (f : Frame) (looks : List Look) (pl : Look) (ev : PanEv) : State :=
  if (s.port p).st = 0 then s
  else
    let (bad0, s) := s.codeword p f 0
    let (bad1, s) := s.codeword p f 1
    if bad0 || bad1 then s.frameLost p
    else
      let s := ((s.modPort p fun x => { x with lostRun := 0 }).progress (portB p)).frameSlot p f
      let s := s.frameIn p f looks pl ev
      match frameCtl f with
      | some c => s.hearCtl p c
      | none => s

end Sys2Proof.Machine
end

