-- ==== Sys2Proof/Machine/Host.lean ====
section
/-!
DEFINITION. The host window BAR2 (R362 to R364), the mailbox commands that read a staged object or act through other blocks (R158, R368,
R374, Table 17-5), and what passes over I3C (R377, R378).
-/
namespace Sys2Proof.Machine

/-! ## BAR2 -/

/-- A read of the staging SRAM; every other offset reads zero. -/
def State.stagingRead (s : State) (off n : Nat) : List Byte :=
  (List.range n).map fun i => if off + i < stagingSize then s.hst.staging.get 0 (off + i) else 0

/-- The 64 B granules of an access of `n` bytes at device offset `o`: the place of each in the access, and its length (R139, R364). -/
def pieces (o n : Nat) : List (Nat × Nat) :=
  (granules o n).map fun g =>
    let lo := max g o
    (lo - o, min (g + 64) (o + n) - lo)

/-- The bytes of a write that fall in a piece. -/
def opPart : HostOp → Nat → Nat → List Byte
  | .read _, _, _ => []
  | .write bs, at_, n => slice bs at_ n

/-- The length of an access. -/
def opSize : HostOp → Nat
  | .read n => n
  | .write bs => bs.length

/-- It writes. -/
def opWrites : HostOp → Bool
  | .read _ => false
  | .write _ => true

/-- One granule of an access to local memory or to the CXL tier, with the privileged rights of Table 6-2 (R363). [DESIGN CHOICE, log entry 47] -/
def State.hostLocal (s : State) (id : Nat) (op : HostOp) (o : Nat) (x : Nat × Nat) : State :=
  let a := o + x.1
  let done := fun (s : State) (st : Nat) (bs : List Byte) => s.hostPart id x.1 st bs
  match s.access .sys a x.2 (opWrites op) with
  | (0, s) =>
    match s.place_ a with
    | .cxl c _ =>
      if s.cxlFails c then done s stRemote []
      else match s.bobTake 6 with
        | (0, b, s) => s.modCxl c fun y => { y with reqs := y.reqs ++
            [{ off := a, len := x.2, data := if opWrites op then some (opPart op x.1 x.2) else none, host := some (id, x.1), bob := b }] }
        | (st, _, s) => done s st []
    | _ =>
      if s.linkBars none a x.2 then done s stRemote []
      else if opWrites op then let (st, s) := s.save a (opPart op x.1 x.2); done s st []
      else let ((st, bs), s) := s.load a x.2; done s st bs
  | (st, s) => done s st []

/-- One granule of an access to another chip: a loose request of the host window (R363). -/
def State.hostRemote (s : State) (id : Nat) (op : HostOp) (da : Nat) (x : Nat × Nat) : State :=
  let base := s.rg (blkR 8 0x050)
  match s.bobTake 5 with
  | (0, b, s) =>
    let r : LReq := { kind := if opWrites op then 1 else 0, ctx := base.fld 8 6, address := da + x.1, length := x.2,
                      data := opPart op x.1 x.2, priv := base.bit 1 }
    (s.enqueueReq 9 r (.host id x.1 b)).injectNext 9
  | (st, _, s) => s.hostPart id x.1 st []

/-- A BAR2 access to the local register block: 4 or 8 B, naturally aligned (R6, R20). [DEDUCED, log entry 51] -/
def State.hostReg (s : State) (off r : Nat) (op : HostOp) : State :=
  let n := opSize op
  let s := s.progress 8
  if n ≠ 4 ∧ n ≠ 8 then
    let s := s.badSize .fabric r
    if opWrites op then s else s.emit (.bar2 off (some (List.replicate n 0)))
  else match op with
    | .read _ =>
      let (v, s) := s.fabricReg r (n == 4) none
      s.emit (.bar2 off (some (leBytes n v.toNat)))
    | .write bs => (s.fabricReg r (n == 4) (some (BitVec.ofNat 64 (leNat bs)))).2

/-- A BAR2 access under HST_WIN_BASE (R362 to R364). -/
def State.windowAccess (s : State) (off : Nat) (op : HostOp) : State :=
  let da := (s.rg (blkR 8 0x050)).fld 32 32 * 2 ^ 32 + off
  let o := addrOff da
  let here := s.isLocal da
  match here, s.place_ o with
  | true, .regs r => s.hostReg off r op
  | _, _ =>
    let id := s.hst.tlpNext
    let ps := pieces o (opSize op)
    let t : HostTlp := { off := off, n := opSize op, write := opWrites op, left := ps.map fun x => x.1 }
    let s := { s with hst := { s.hst with tlps := s.hst.tlps.set id t, tlpNext := id + 1 } }
    ps.foldl (fun s x => if here then s.hostLocal id op o x else s.hostRemote id op da x) s

/-- BAR2_ACCESS (R361 to R364). An access of no bytes is answered at once. [DESIGN CHOICE, log entry 70] -/
def State.bar2 (s : State) (off : Nat) (op : HostOp) : State :=
  if !s.hostReaches then s
  else match s.hostTlp with
    | (false, s) => if opWrites op then s else s.emit (.bar2 off none)
    | (true, s) =>
      if s.hst.boot < 3 || opSize op = 0 then
        match op with
        | .read n => (s.progress 8).emit (.bar2 off (some (s.stagingRead off n)))
        | .write bs => if s.hst.boot < 3 then (s.progress 8).stagingWrite off bs else s.progress 8
      else s.windowAccess off op

/-! ## Mailbox commands (Table 17-5) -/

/-- The staged object that a command names, read by Osaux (R370): none where the read fails. [DESIGN CHOICE, log entry 18] -/
def State.mbStaged (s : State) : Option (List Byte) × State :=
  match s.hst.mbRange with
  | none => (none, s)
  | some (o, n) => let ((st, bs), s) := s.fetch none .sys o n; (if st = 0 then some bs else none, s)

/-- The length of the staged object. [DESIGN CHOICE, log entry 18] -/
def State.mbLength (s : State) : Nat := match s.hst.mbRange with | some (_, n) => n | none => 0

/-- The plan of an extract (Table 17-8). -/
def planOf (p : List Byte) : Plan :=
  { hash := slice p 8 48, chip := u p 0x38 2 % 16384, machine := u p 0x3C 4, key := u p 0x40 8,
    expect := (List.range 48).map fun i => BitVec.ofNat 64 (u p (0x48 + 8 * i) 8) }

/-- The form of an extract (R374). [DESIGN CHOICE, log entry 70] -/
def planForm (p : List Byte) : Bool :=
  decide (p.take 8 = ascii "MBPLAN" ++ [0, 0]) && decide (u p 0x38 2 < 16384) && decide (1 ≤ u p 0x3C 4 ∧ u p 0x3C 4 ≤ 16384)

/-- A plan is installed (R169). [DESIGN CHOICE, log entry 70] -/
def State.installPlan (s : State) (p : Plan) : State := ({ s with hst := { s.hst with plan := some p } }).plansPorts

/-- PLAN_INSTALL (R374, Table 17-5). [DESIGN CHOICE, log entry 70] -/
def State.planInstall (s : State) : State :=
  if !s.mbBusy 1 then s
  else if !s.quiescent then s.mbDone 2
  else if s.mbLength ≠ 552 then s.mbDone 4
  else match s.mbStaged with
    | (none, s) => s.mbDone 11
    | (some bs, s) =>
      let p := planOf bs
      if !planForm bs then s.mbDone 4
      else if (match s.inForce with | some i => u i.hdr 0x28 8 != u p.hash 0 8 | none => false) then s.mbDone 9
      else if (s.keySlot p.key).isNone then s.mbDone 10
      else if !s.secOk then s.mbDone 3
      else if !s.signedBy p.key (bs.take 0x1C8) (slice bs 0x1C8 96) then s.secOp.mbDone 3
      else (s.secOp.installPlan p).mbDone 0

/-- The result of a firmware image that R367 refuses: BAD_FORMAT, BAD_SIGNATURE or ROLLBACK. -/
def fwResult (reason : Nat) : Nat := if reason = 3 || reason = 4 then 3 else if reason = 5 then 8 else 4

/-- FW_FLASH (R368). [DESIGN CHOICE, log entry 70] -/
def State.fwFlash (s : State) : State :=
  if !s.mbBusy 6 then s
  else if !s.quiescent then s.mbDone 2
  else if 6291456 < s.mbLength then s.mbDone 4
  else match s.mbStaged with
    | (none, s) => s.mbDone 11
    | (some img, s) =>
      match fwCheck img img.length s.svnMin s.hst.fwKey s.secOk with
      | 0 => ({ s.secOp with hst := { s.secOp.hst with flash := { s.secOp.hst.flash with fw := img } } }).mbDone 0
      | r => (s.fwRefused true).mbDone (fwResult r)

/-- LANE_TABLE (R158): Osaux holds the table, and each group applies it the next time it comes ON from OFF. [DESIGN CHOICE, log entry 70] -/
def State.laneInstall (s : State) : State :=
  if !s.mbBusy 8 then s
  else if 0x80000 < s.mbLength then s.mbDone 4
  else match s.mbStaged with
    | (none, s) => s.mbDone 11
    | (some t, s) => if laneTableOk t then ({ s with hst := { s.hst with lane := t } }).mbDone 0 else s.mbDone 4

/-- What Osaux does at Quilan's request (Table 17-5, R313, R170). -/
def State.quilanAct (s : State) : QuilanAct → State
  | .vote d v => s.voteCtrl .osaux (put 16 3 ||| put 8 v.val ||| put 0 d.val)
  | .portCtrl p v => s.writeReg .osaux (blkR (portB p.val) 0x048) false v

/-- QUILAN_MSG (R370). -/
def State.quilanMsg (s : State) (m : QuilanAct) : State := if s.mbBusy 9 then (s.quilanAct m).mbDone 0 else s

/-- A command of a code whose effect is another function. -/
def State.mbRun (s : State) (code : Nat) (f : State → State) : State := if s.mbBusy code then f s else s

/-- UNKNOWN_COMMAND (R370, Table 17-6). -/
def State.mbUnknown (s : State) : State :=
  if s.mbBusy s.mbCode && (s.mbCode = 0 || 11 < s.mbCode) then s.mbDone 7 else s

/-- DEBUG_DISABLE (R375). -/
def State.debugEnd (s : State) : State := s.debugOff.mbDone 0

/-- The debug duration has passed (R375). -/
def State.debugExpiry (s : State) : State := if s.hst.debug then s.debugOff else s

/-! ## I3C (R377, R378) -/

/-- The BMC has answered on the bus: it is present, at the dynamic address that Osaux assigned it, which the spec leaves open. [DESIGN CHOICE, log entry 10, DESIGN CHOICE, log entry 71] -/
def State.bmcSeen (s : State) : State :=
  let o := blkR 8 0x0B0
  if (s.rg o).bit 24 then s
  else
    let (x, s) := s.draw
    s.setRg o (s.rg o ||| putBit 24 true ||| put 16 (x.fld 0 7))

/-- I3C_IBI (R319, R377): an edge wake; Osaux answers with the registers that the request names. [DESIGN CHOICE, log entry 71] -/
def State.ibi (s : State) (regs : List Nat) : State :=
  let s := s.edgeWake 3 fun _ => true
  if s.dev.osaux then regs.foldl (fun s r => s.emit (.i3c r (s.readReg r).toNat)) s.bmcSeen else s

/-- The LINEAR11 code of n/d: a mantissa of 11 bits and an exponent of 5, both signed, with the least exponent at which the rounded
mantissa fits. [PRESUMED, log entry 98] -/
def linear11 (n d : Nat) : Nat :=
  let m := fun (k : Nat) => (2 * n * 2 ^ 16 + d * 2 ^ k) / (2 * d * 2 ^ k)
  match (List.range 32).find? fun k => decide (m k ≤ 1023) with
  | some k => (k + 16) % 32 * 2048 + m k
  | none => 15 * 2048 + 1023

/-- STATUS_WORD (Table 17-10). [DESIGN CHOICE, log entry 71] -/
def State.statusWord (s : State) : Nat :=
  let k := s.blk 2
  (if s.faultLow then 2 ^ 15 else 0) + (if s.dev.down then 2 ^ 14 else 0) + (if k.fault.bit 5 && !k.ack.bit 5 then 2 ^ 6 else 0)

/-- I3C_TELEMETRY (R378, Table 17-10): five writes; those that the BMC does not acknowledge are dropped and counted. [DESIGN CHOICE, log entry 71] -/
def State.telemetry (s : State) (acked : Bool) : State :=
  if !s.dev.osaux then s
  else
    let in_ := s.rg (blkR 2 0x060)
    let ws := [(0x79, s.statusWord), (0x88, linear11 (in_.fld 0 16) 100), (0x89, linear11 (in_.fld 16 16) 10),
      (0x8D, linear11 ((s.rg (blkR 2 0x070)).fld 0 8) 1), (0x97, linear11 (in_.fld 32 16) 1)]
    let s := ws.foldl (fun s (w : Nat × Nat) => s.emit (.i3c w.1 w.2)) s
    if acked then s.bmcSeen
    else
      let o := blkR 8 0x0B0
      let v := (s.rg o).toNat
      s.setRg o (BitVec.ofNat 64 (v - v % 65536 + wrapAdd 16 (v % 65536) 5))

end Sys2Proof.Machine
end

