-- ==== Sys2Proof/Machine/Cycle.lean ====
section
/-!
DEFINITION. The CCLK cycle in which a command acts: what closes it (R328, R332, R336, R344, R350), the passing of a cycle in which no
command acts, and the small operations that one command each uses.
-/
namespace Sys2Proof.Machine

/-- What a command answers. -/
abbrev Res := Host.Outcome State Fault Refusal

/-- The ladder steps that the cycle asked for start, and what happened to the domains has its effects. -/
def State.settleOnce (s : State) : State := s.stepsDue.domEvents

/-- The end of a cycle: movers hear how their requests ended, ladder steps and domain transitions, what follows from the state as it now stands, the parity checks and timers of
the cycle, and the events and vectors that leave their blocks. [DESIGN CHOICE, log entry 2] -/
def State.endCycle (s : State) : State :=
  let s := s.moversHear.settleOnce.settleOnce.settleOnce
  let s := s.teardownResume.passedChecks.testTick.levelWakes
  let s := (List.range 8).foldl State.cryTick s
  s.parityTick.refusalTick.timersTick.settleOnce.settleOnce.flush

/-- A command acts on a device that is powered and out of reset; on any other it finds nothing to act on. [DESIGN CHOICE, log entry 2] -/
def act (s : State) (f : State → State) : Res := .next (if s.alive then (f s).endCycle else s)

/-- An event on a pin that powers or resets the module acts whatever the state (R390, R391). [DESIGN CHOICE, log entry 2] -/
def actPin (s : State) (f : State → State) : Res := .next (let t := f s; if t.alive then t.endCycle else t)

/-- Three ACLK cycles of an array: rows enter (R88), a running DRAIN writes 3 KiB (R90), and cycles gated and free-spin cycles are counted (R92). [DESIGN CHOICE, log entry 1, DESIGN CHOICE, log entry 43] -/
def State.arrayCycles (s : State) (i : Nat) : State :=
  if !s.domOn (52 + i) then s
  else
    let gates := [0, 1, 2].map fun h => ((s.arr i).half h).gate
    let s := [0, 1, 2].foldl (fun s h => s.drainOn i h 48) (s.rowsEnter i 3)
    let s := if gates.all (· == 0) then s.wrap (blkR (arrBlk i) 0x078) 48 3 else s
    if gates.any (· == 2) then s.wrap (blkR (arrBlk i) 0x070) 48 3 else s

/-- One CCLK cycle in which no command acts: time passes, buckets fill (R189), the cycles of arrays and spindles are counted, pans go on with
what they emit, and the cycle closes. Before the
root PLL has locked there is no CCLK (R366). [DESIGN CHOICE, log entry 1] -/
def State.tick (s : State) : State :=
  if s.alive && s.pins.rst == 2 then
    let s := { s with cclk := s.cclk + 1, cyc := [], newBits := [], rcd := { s.rcd with was := [] } }
    let s := (List.range 32).foldl State.arrayCycles s.bucketsTick
    ((List.range 8).foldl State.spnCycles s).pansTick.endCycle
  else s

/-! ## Small operations -/

/-- A slot operation of its own: a spindle in RUN issues it. [DEDUCED, log entry 37] -/
def State.slotIssue (s : State) (t : Nat) (f : State → State) : State := if s.spnRuns t then f s else s

/-- A lane of a port in UP loses its signal (R163). -/
def State.signalLoss (s : State) (p lane : Nat) : State :=
  if (s.port p).st = 3 then
    (s.modPort p fun x => { x with lanes := x.lanes.set lane { x.lane lane with fom := 0 } }).portLoss p true false
  else s

/-- A training burst of a port in ABSENT or UNUSED (R168). -/
def State.absentBurst (s : State) (p : Nat) : State :=
  let x := s.port p
  if x.st = 7 || x.st = 8 then s.emit (.burst p) else s

/-- PLL i is locked, so that it can lose lock (R326). -/
def State.whenLocked (s : State) (i : Nat) (f : State → State) : State := if bitOf s.pins.pll i then f s else s

/-- WAKE_N low or high (R319). -/
def State.wakePinSet (s : State) (low : Bool) : State := { s with pins := { s.pins with wakeLow := low } }

/-- A write of PWR_WAKE_SW (R319). -/
def State.wakeSwWrite (s : State) (v : W64) : State := s.setRg (blkR 2 0x078) (v &&& 1)

end Sys2Proof.Machine
end

