-- ==== Sys2Proof/Machine/ArrayCmds.lean ====
section
/-!
DEFINITION. The meanings of the commands of the matrix arrays (chapter 04), with the issue of bundles and array slots (chapter 03): each hands its operands to the
operation that its rule describes, and the CCLK cycle closes (Cycle.lean).
-/
namespace Sys2Proof.Machine

/-- BUNDLE_ISSUE (R48): In an ACLK cycle the spindle issues the next bundle, or issues nothing for a wait, a hold, a miss or a throttle. -/
def execBundleIssue (t : Fin 8) (j : Fin 64) (e y0 y1 : Ecc) (s : State) : Res :=
  act s fun s => s.bundleIssue t j e y0 y1

/-- CACHE_FILL_DONE (R70): A program cache line fill completes, and the missed bundle issues. -/
def execCacheFillDone (t : Fin 8) (j : Fin 64) (ue : Bool) (y0 y1 : Ecc) (s : State) : Res :=
  act s fun s => s.fillDone t j ue y0 y1

/-- WLOAD (R87): The array slot instruction WLOAD queues a weight load into the next weight set. -/
def execWload (t : Fin 8) (a : Fin 4) (half : Fin 3) (desc : Fin 65536) (tally : Fin 256) (s : State) : Res :=
  act s fun s => s.slotIssue t fun s => s.arrIssue t a 1 half desc tally

/-- STREAM (R88): The array slot instruction STREAM queues the streaming of operand rows, accumulating into a bank. -/
def execStream (t : Fin 8) (a : Fin 4) (half : Fin 3) (desc : Fin 65536) (tally : Fin 256) (s : State) : Res :=
  act s fun s => s.slotIssue t fun s => s.arrIssue t a 2 half desc tally

/-- STREAM_CLR (R78): The array slot instruction STREAM_CLR clears the accumulator entries, then streams. -/
def execStreamClr (t : Fin 8) (a : Fin 4) (half : Fin 3) (desc : Fin 65536) (tally : Fin 256) (s : State) : Res :=
  act s fun s => s.slotIssue t fun s => s.arrIssue t a 3 half desc tally

/-- DRAIN (R89): The array slot instruction DRAIN queues the write-out of accumulator rows. -/
def execDrain (t : Fin 8) (a : Fin 4) (half : Fin 3) (desc : Fin 65536) (tally : Fin 256) (s : State) : Res :=
  act s fun s => s.slotIssue t fun s => s.arrIssue t a 4 half desc tally

/-- WLOAD_START (R87): A queued WLOAD starts in the first cycle its start conditions hold. -/
def execWloadStart (t : Fin 8) (a : Fin 4) (half : Fin 3) (ups : Upsets) (s : State) : Res :=
  act s fun s => (s.upset ups).wloadStart t a half

/-- WLOAD_DONE (R87): A WLOAD completes and increments its tally. -/
def execWloadDone (t : Fin 8) (a : Fin 4) (half : Fin 3) (s : State) : Res :=
  act s fun s => s.wloadDone t a half

/-- STREAM_START (R88): A STREAM's row window opens, and the gate of the stream engine opens 9 cycles ahead of it. -/
def execStreamStart (t : Fin 8) (a : Fin 4) (half : Fin 3) (ups : Upsets) (s : State) : Res :=
  act s fun s => (s.upset ups).streamStart t a half

/-- STREAM_DONE (R88): A STREAM completes, counts its scale events, and increments its tally. -/
def execStreamDone (t : Fin 8) (a : Fin 4) (half : Fin 3) (ce : Nat) (ue : Bool) (s : State) : Res :=
  act s fun s => s.streamDone t a half ce ue

/-- DRAIN_START (R89): A DRAIN starts once earlier streams into its bank have completed. -/
def execDrainStart (t : Fin 8) (a : Fin 4) (half : Fin 3) (s : State) : Res :=
  act s fun s => s.drainStart t a half

/-- DRAIN_DONE (R89): A DRAIN completes its result writes and increments its tally. -/
def execDrainDone (t : Fin 8) (a : Fin 4) (half : Fin 3) (ce : Nat) (ue : Bool) (s : State) : Res :=
  act s fun s => s.drainDone t a half ce ue

/-- ARRAY_SCOPE_STOP (R94): A stopping detector stops the array or half, failing every running and queued operation of that scope. -/
def execArrayScopeStop (t : Fin 8) (a : Fin 4) (half : Fin 3) (eng : Fin 3) (det : Fin 5) (k : Nat) (upTo : Nat) (s : State) : Res :=
  act s fun s => s.scopeStop t a half eng det k upTo

/-- SHAPE_CHANGE (R81): Once earlier operations complete, an array whose region names a new shape starts its 4-cycle reconfiguration. -/
def execShapeChange (t : Fin 8) (a : Fin 4) (s : State) : Res :=
  act s fun s => s.shapeChange t a

/-- SHAPE_RECONFIG_DONE (R81): The array finishes reconfiguring, with weights and accumulators cleared, and later operations may begin. -/
def execShapeReconfigDone (t : Fin 8) (a : Fin 4) (s : State) : Res :=
  act s fun s => s.shapeDone t a

/-- ARRAY_CLOCK_GATE (R92): FREE_SPIN_MAX cycles of a gap pass, and the array stops free-spin and gates its cell clocks. -/
def execArrayClockGate (t : Fin 8) (a : Fin 4) (half : Fin 3) (s : State) : Res :=
  act s fun s => s.clockGate t a half

/-- ARRAY_TEARDOWN_DONE (R96): The array reports its teardown complete after clearing its queues, weights and accumulators. -/
def execArrayTeardownDone (t : Fin 8) (a : Fin 4) (s : State) : Res :=
  act s fun s => s.arrTornDown t a

/-- ARRAY_HARVEST_CLEAR (R97): After its issued operations complete at a harvest, the array starts clearing its weights and accumulators. -/
def execArrayHarvestClear (t : Fin 8) (a : Fin 4) (s : State) : Res :=
  act s fun s => s.arrHarvest t a

/-- ARRAY_EMPTY (R97): The 64-cycle harvest clear ends, and the array reports empty to harvest control. -/
def execArrayEmpty (t : Fin 8) (a : Fin 4) (s : State) : Res :=
  act s fun s => s.arrEmpty t a

end Sys2Proof.Machine
end

