-- ==== Sys2Proof/Machine/CollectiveCmds.lean ====
section
/-!
DEFINITION. The meanings of the commands of the collective engine (chapter 10): each hands its operands to the
operation that its rule describes, and the CCLK cycle closes (Cycle.lean).
-/
namespace Sys2Proof.Machine

/-- CHUNK_PULL (R232): Once a slot and a credit are available, the engine pulls a local chunk into a pan slot. -/
def execChunkPull (g : Fin 16384) (seq : BitVec 16) (order : List (Fin 8)) (ev : PanEv) (ups : Upsets) (s : State) : Res :=
  act s fun s => (s.upset ups).chunkPull g seq.toNat (order.map Fin.val) ev

/-- CREDIT_ARRIVAL (R234): A CREDIT packet gives the sender credits for an instance toward its successor. -/
def execCreditArrival (k : Pkt) (s : State) : Res :=
  act s fun s => s.arrives k (k.kind == 6 && k.sub == 3)

/-- CREDIT_REPEAT (R234): Every credit_repeat, an incomplete instance with a free slot sends CREDIT again. -/
def execCreditRepeat (g : Fin 16384) (seq : BitVec 16) (s : State) : Res :=
  act s fun s => s.creditRepeat g seq.toNat

/-- COLL_TIMEOUT (R237): A group's progress count does not change within progress_win, and its base instance fails with TIMEOUT. -/
def execCollTimeout (g : Fin 16384) (s : State) : Res :=
  act s fun s => s.collTimeout g

/-- ABORT_ARRIVAL (R238): An ABORT fails the instance with ABORTED and is forwarded round the ring. -/
def execAbortArrival (k : Pkt) (s : State) : Res :=
  act s fun s => s.arrives k (k.kind == 6 && k.sub == 4)

/-- TREE_DONE_ARRIVAL (R240): A TREE_DONE reaches the root, which completes when every expected member has answered. -/
def execTreeDoneArrival (k : Pkt) (s : State) : Res :=
  act s fun s => s.arrives k (k.kind == 6 && k.sub == 5)

/-- BROADCAST_RTO (R240): COL_RTO passes at a broadcast root; it resends, or fails with TIMEOUT. -/
def execBroadcastRto (g : Fin 16384) (seq : BitVec 16) (s : State) : Res :=
  act s fun s => s.broadcastRto g seq.toNat

/-- A2A_DATA_ARRIVAL (R241): An all-to-all data packet is placed at its receive offset, and A2A_DONE is sent once the source's bytes are held. -/
def execA2aDataArrival (k : Pkt) (s : State) : Res :=
  act s fun s => s.arrives k (k.kind == 6 && k.sub == 0)

/-- A2A_DONE_ARRIVAL (R241): A2A_DONE from a destination ends the source's resend timer for that destination. -/
def execA2aDoneArrival (k : Pkt) (s : State) : Res :=
  act s fun s => s.arrives k (k.kind == 6 && k.sub == 1)

/-- COUNTS_ARRIVAL (R241): A COUNTS packet stores received counts, and the counts are checked once all N are held. -/
def execCountsArrival (k : Pkt) (s : State) : Res :=
  act s fun s => s.arrives k (k.kind == 6 && k.sub == 2)

/-- A2A_RTO (R241): COL_RTO passes without A2A_DONE; the source resends, or fails with TIMEOUT. -/
def execA2aRto (g : Fin 16384) (seq : BitVec 16) (member : Fin 16384) (s : State) : Res :=
  act s fun s => s.a2aRto g seq.toNat member

/-- INSTANCE_COMPLETE (R242): An instance completes or fails at a member, writing its completion record and tallies. -/
def execInstanceComplete (g : Fin 16384) (seq : BitVec 16) (s : State) : Res :=
  act s fun s => s.instComplete g seq.toNat

/-- ENGINE_PARITY (R246): A collective engine parity error fails every instance it holds. -/
def execEngineParity (s : State) : Res :=
  act s fun s => s.engineParity

end Sys2Proof.Machine
end

