-- ==== Sys2Proof/Machine/CoreCmds.lean ====
section
/-!
DEFINITION. The meanings of the commands of the switch core and loose requests (chapter 08): each hands its operands to the
operation that its rule describes, and the CCLK cycle closes (Cycle.lean).
-/
namespace Sys2Proof.Machine

/-- LOOSE_HEAD_ARRIVAL (R181): A loose head is delivered locally or placed in an output queue by the deflection order, or discarded. -/
def execLooseHeadArrival (p : Option (Fin 48)) (busy : List (Fin 48)) (k : Pkt) (look : Look) (ups : Upsets) (s : State) : Res :=
  act s fun s => (s.upset ups).looseHead (p.map Fin.val) (busy.map Fin.val) k look

/-- HEAD_REEVALUATE (R176): A head waiting in the ingress stage for a queue write is evaluated again. -/
def execHeadReevaluate (i : Nat) (busy : List (Fin 48)) (s : State) : Res :=
  act s fun s => s.reevaluate i (busy.map Fin.val)

/-- TREE_HEAD_ARRIVAL (R240): A tree packet is copied to the tree ports of its group, delivered locally, or discarded. -/
def execTreeHeadArrival (p : Option (Fin 48)) (k : Pkt) (look : Look) (s : State) : Res :=
  act s fun s => s.treeArrival (p.map Fin.val) k look

/-- PINNED_CHUNK_ARRIVAL (R191): A pinned chunk is routed by its ring entry to an egress VC buffer or to a pan slot, or is discarded. -/
def execPinnedChunkArrival (p : Fin 48) (c : Chunk) (look : Look) (ev : PanEv) (s : State) : Res :=
  act s fun s => s.pinnedChunk p c look ev

/-- EGRESS_SELECT (R206): When the framer can start a packet, the port's fair-queue scheduler selects one and sends it. -/
def execEgressSelect (p : Fin 48) (bups : List (Nat × Ecc)) (s : State) : Res :=
  act s fun s => (s.bobUpset bups).egressSelect p

/-- LOOSE_REQUEST_INJECT (R189): A loose request is injected once its class's token bucket holds enough bytes. -/
def execLooseRequestInject (u : Fin 10) (r : Option LReq) (s : State) : Res :=
  act s fun s => s.injectReq u r

/-- RTO_EXPIRY (R186): No completion arrives within rto; the request is retransmitted, or fails with REMOTE_FAIL. -/
def execRtoExpiry (u : Fin 10) (tag : Nat) (s : State) : Res :=
  act s fun s => s.rtoExpiry u tag

/-- COMPLETION_ARRIVAL (R186): A completion returns to its source, ends the request record, and applies any echo mark. -/
def execCompletionArrival (k : Pkt) (s : State) : Res :=
  act s fun s => s.arrives k (k.kind == 2 || k.kind == 3)

/-- RATE_INTERVAL (R189): At each interval boundary the rate of every quiet class rises by ai. -/
def execRateInterval (s : State) : Res :=
  act s fun s => s.rateInterval

/-- SWAP_NOW (R197): The RTE_CTRL operation swap_now swaps the destination-table banks while quiescent. -/
def execSwapNow (s : State) : Res :=
  act s fun s => s.swapNow

/-- SWAP_AT_HARVEST (R197): The RTE_CTRL operation swap_at_harvest requests a bank swap at a harvest hold. -/
def execSwapAtHarvest (s : State) : Res :=
  act s fun s => s.swapAtHarvest

/-- SWAP_CANCEL (R198): The RTE_CTRL operation cancel ends a pending swap with result CANCELLED. -/
def execSwapCancel (s : State) : Res :=
  act s fun s => s.swapCancel

/-- ROUTE_SWAP (R197): Once every open context is held, the banks swap and the contexts are released. -/
def execRouteSwap (s : State) : Res :=
  act s fun s => s.routeSwap

/-- SWAP_HOLD_TIMEOUT (R197): The hold limit passes for a swap at harvest, and the swap ends with HOLD_TIMEOUT. -/
def execSwapHoldTimeout (s : State) : Res :=
  act s fun s => s.swapHoldTimeout

/-- SWC_CFG_WRITE (R200): A write to SWC_CFG is applied from the next head evaluation, or discarded when it is inconsistent. -/
def execSwcCfgWrite (v : W64) (s : State) : Res :=
  act s fun s => s.swcCfg v

/-- RTE_DEST_WRITE (R197): A write to a standby-bank entry is performed unless a swap is pending. -/
def execRteDestWrite (bank : Fin 2) (d : Fin 16384) (v : W64) (s : State) : Res :=
  act s fun s => s.rteWrite bank d v

/-- CORE_PARITY (R201): A core parity error discards every flit held in the core, and the block needs a reset. -/
def execCoreParity (s : State) : Res :=
  act s fun s => s.coreParity

end Sys2Proof.Machine
end

