-- ==== Sys2Proof/Machine/CryCmds.lean ====
section
/-!
DEFINITION. The meanings of the commands of the crystallizer (chapter 12): each hands its operands to the
operation that its rule describes, and the CCLK cycle closes (Cycle.lean).
-/
namespace Sys2Proof.Machine

/-- CRY_VECTOR (R285): The crystallizer processes one 48-element vector of a norm or update pass. -/
def execCryVector (t : Fin 8) (upd : Bool) (mism : Fin 3) (ups : Upsets) (s : State) : Res :=
  act s fun s => (s.upset ups).cryVector t upd mism

/-- CRY_NORM_PASS_DONE (R280): A norm pass ends, and the crystallizer starts the group's norm collective. -/
def execCryNormPassDone (t : Fin 8) (s : State) : Res :=
  act s fun s => s.cryNormDone t

/-- CRY_NORM_DECIDE (R282): The norm result lands, and the group is skipped or proceeds to its update pass. -/
def execCryNormDecide (t : Fin 8) (g : Fin 8192) (s : State) : Res :=
  act s fun s => s.cryDecide t g

/-- CRY_UPDATE_PASS_DONE (R283): An update pass ends, advances the step counter, and starts the multicast. -/
def execCryUpdatePassDone (t : Fin 8) (s : State) : Res :=
  act s fun s => s.cryUpdateDone t

/-- CRY_STEP_WRITE (R289): A write to CRY_STEP_g is performed only while the tile's context is FREE. -/
def execCryStepWrite (t : Fin 8) (g : Fin 8192) (v : W64) (s : State) : Res :=
  act s fun s => s.cryStepWrite t g v

/-- CRY_TABLE_PARITY (R291): A crystallizer table parity error skips every group not yet completed. -/
def execCryTableParity (t : Fin 8) (s : State) : Res :=
  act s fun s => s.cryParity t

end Sys2Proof.Machine
end

