-- ==== Sys2Proof/Machine/HarvestCmds.lean ====
section
/-!
DEFINITION. The meanings of the commands of the harvest (chapter 13): each hands its operands to the
operation that its rule describes, and the CCLK cycle closes (Cycle.lean).
-/
namespace Sys2Proof.Machine

/-- HARVEST_DRAIN_END (R294): The drain conditions hold; step_failed is fixed, and the crystallizers start. -/
def execHarvestDrainEnd (c : Fin 64) (s : State) : Res :=
  act s fun s => s.drainEnd c

/-- HARVEST_CRYSTALLIZE_END (R293): Every assigned crystallizer reports done, and the harvest enters SETTLE. -/
def execHarvestCrystallizeEnd (c : Fin 64) (s : State) : Res :=
  act s fun s => s.crystallizeEnd c

/-- HARVEST_SETTLE_END (R293): The crystallizer group instances have ended, and the harvest runs CLEAR. -/
def execHarvestSettleEnd (c : Fin 64) (s : State) : Res :=
  act s fun s => s.settleEnd c

/-- HARVEST_HOLD_END (R301): Every item of tagged work has finished or been refused, and the context is released. -/
def execHarvestHoldEnd (c : Fin 64) (s : State) : Res :=
  act s fun s => s.holdEnd c

/-- HARVEST_TIMEOUT (R293): HRV_TIMEOUT cycles pass since the harvest timer started, and an S2 fault is reported. -/
def execHarvestTimeout (c : Fin 64) (s : State) : Res :=
  act s fun s => s.harvestLate c

end Sys2Proof.Machine
end

