-- ==== Sys2Proof/Machine/HostCmds.lean ====
section
/-!
DEFINITION. The meanings of the commands of the recorder, the host port, the mailbox, the boot path and I3C (chapters 16 and 17): each hands its operands to the
operation that its rule describes, and the CCLK cycle closes (Cycle.lean).
-/
namespace Sys2Proof.Machine

/-- REC_LOG_WRITE (R353): A queued event is placed in the log with a sequence number, overwriting or being dropped as needed. -/
def execRecLogWrite (s : State) : Res :=
  act s fun s => s.logWrite

/-- REC_CURSOR_WRITE (R354): A REC_CURSOR write latches eight log slots into REC_WINDOW. -/
def execRecCursorWrite (v : W64) (ce : Option (Fin 8)) (ue : Option (Fin 8)) (s : State) : Res :=
  act s fun s => s.cursor v (ce.map Fin.val) (ue.map Fin.val)

/-- BAR2_ACCESS (R363): A BAR2 TLP is performed locally or leaves as a loose request under HST_WIN_BASE. -/
def execBar2Access (off : Nat) (op : HostOp) (ups : Upsets) (s : State) : Res :=
  act s fun s => (s.upset ups).bar2 off op

/-- PCIE_LINK_DOWN (R345): The host link goes down, and BAR0 and BAR2 are unreachable until it retrains. -/
def execPcieLinkDown (s : State) : Res :=
  act s fun s => if s.hostUp then s.pcieDown else s

/-- PKG_LINK_DOWN (R345): A package link goes down, and every transfer over it fails. -/
def execPkgLinkDown (t : Fin 8) (s : State) : Res :=
  act s fun s => if (s.tile t).linkUp then s.pkgDown t else s

/-- KEY_PARITY (R345): A security key parity error fails signing and verification until reset. -/
def execKeyParity (s : State) : Res :=
  act s fun s => s.keyParity

/-- PLAN_INSTALL (R374): Mailbox command 0x01 verifies a fabric plan and installs it. -/
def execPlanInstall (s : State) : Res :=
  act s fun s => s.planInstall

/-- OWNER_ENROL (R372): Mailbox command 0x02 enrols an owner key. -/
def execOwnerEnrol (s : State) : Res :=
  act s fun s => s.mbRun 2 fun s => s.enrol

/-- OWNER_REMOVE (R372): Mailbox command 0x03 removes an owner key. -/
def execOwnerRemove (s : State) : Res :=
  act s fun s => s.mbRun 3 fun s => s.unenrol

/-- ATTEST (R376): Mailbox command 0x04 returns a signed attestation report. -/
def execAttest (s : State) : Res :=
  act s fun s => s.mbRun 4 fun s => s.attest

/-- GET_CERT (R370): Mailbox command 0x05 returns the identity certificate chain. -/
def execGetCert (s : State) : Res :=
  act s fun s => s.mbRun 5 fun s => s.getCert

/-- FW_FLASH (R368): Mailbox command 0x06 verifies a firmware image and writes it to SPI flash. -/
def execFwFlash (s : State) : Res :=
  act s fun s => s.fwFlash

/-- SVN_ADVANCE (R367): Mailbox command 0x07 burns a new fused security-version minimum. -/
def execSvnAdvance (s : State) : Res :=
  act s fun s => s.mbRun 7 fun s => s.svnAdvance

/-- LANE_TABLE (R158): Mailbox command 0x08 checks a board lane table, which applies from each group's next power-up. -/
def execLaneTable (s : State) : Res :=
  act s fun s => s.laneInstall

/-- QUILAN_MSG (R370): Mailbox command 0x09 passes a Quilan message to Osaux, which acts on it. -/
def execQuilanMsg (m : QuilanAct) (s : State) : Res :=
  act s fun s => s.quilanMsg m

/-- DEBUG_ENABLE (R375): Mailbox command 0x0A enables debug under a signed token. -/
def execDebugEnable (nonce : BitVec 32) (s : State) : Res :=
  act s fun s => s.mbRun 10 fun s => s.debugOn nonce.toNat

/-- DEBUG_DISABLE (R375): Mailbox command 0x0B disables debug and clears the V5 votes. -/
def execDebugDisable (s : State) : Res :=
  act s fun s => s.mbRun 11 fun s => s.debugEnd

/-- UNKNOWN_COMMAND (R370): A doorbell with an unknown command code returns UNKNOWN_COMMAND. -/
def execUnknownCommand (s : State) : Res :=
  act s fun s => s.mbUnknown

/-- MB_OUT_ACK (R370): The host acknowledges an outbound message, and the next queued message is placed. -/
def execMbOutAck (s : State) : Res :=
  act s fun s => s.mbAck

/-- BOOT_GO (R366): HST_BOOT_CTRL.go makes the ROM verify the host-staged image and start it, or reject it. -/
def execBootGo (s : State) : Res :=
  act s fun s => s.bootGo

/-- BOOT_REBOOT (R379): HST_BOOT_CTRL.reboot, while quiescent, unloads the image, discards the plan, and reruns the ROM. -/
def execBootReboot (s : State) : Res :=
  act s fun s => s.reboot

/-- ROM_FLASH_READ_DONE (R366): The ROM finishes reading the firmware from SPI flash and verifies it. -/
def execRomFlashReadDone (s : State) : Res :=
  act s fun s => s.romFlash

/-- DEBUG_EXPIRY (R375): The debug duration passes, debug ends, and the V5 votes are cleared. -/
def execDebugExpiry (s : State) : Res :=
  act s fun s => s.debugExpiry

/-- I3C_TELEMETRY (R378): Each telemetry period, Osaux writes the PMBus telemetry to the BMC. -/
def execI3cTelemetry (acked : Bool) (s : State) : Res :=
  act s fun s => s.telemetry acked

/-- PCIE_LINK_UP (R392): After PERST_N deasserts, or after a loss, the host link completes training and BAR0 and BAR2 TLPs are received again. -/
def execPcieLinkUp (width : Fin 8) (rate : Fin 16) (s : State) : Res :=
  act s fun s => s.pcieUp width rate

end Sys2Proof.Machine
end

