-- ==== Sys2Proof/Machine/LoaderCmds.lean ====
section
/-!
DEFINITION. The meanings of the commands of the loader of structure images (chapter 02): each hands its operands to the
operation that its rule describes, and the CCLK cycle closes (Cycle.lean).
-/
namespace Sys2Proof.Machine

/-- LOAD_START (R36): A start request runs the stage 0 checks of a quiescent load and enters CHECKING, protecting the staged range. -/
def execLoadStart (v : W64) (s : State) : Res :=
  act s fun s => s.loadCtrl v

/-- HARVEST_LOAD_START (R44): A start request with at_harvest checks the named context and harvest number and starts checking a harvest load. -/
def execHarvestLoadStart (v : W64) (s : State) : Res :=
  act s fun s => s.loadCtrl v

/-- LOAD_CANCEL (R38): A cancel request ends a pending harvest load, or ends checking at the close of the current stage. -/
def execLoadCancel (v : W64) (s : State) : Res :=
  act s fun s => s.loadCtrl v

/-- LOAD_UNLOAD (R399): An unload request removes the image in force while the device is quiescent, and is refused otherwise. -/
def execLoadUnload (v : W64) (s : State) : Res :=
  act s fun s => s.loadCtrl v

/-- LOAD_STAGE_END (R40): A check stage of the loader completes; the loader passes to the next stage, refuses the image, or applies a cancel. -/
def execLoadStageEnd (s : State) : Res :=
  act s fun s => s.loadStageEnd

/-- LOAD_HOLD_COMPLETE (R44): Once every open context is held, a pending harvest load enters COMMITTING. -/
def execLoadHoldComplete (s : State) : Res :=
  act s fun s => s.loadHoldComplete

/-- NO_HARVEST_CTX_HOLD (R44): A context that cannot harvest is held once its movers, expect entries, instances and retransmission records have drained. -/
def execNoHarvestCtxHold (c : Fin 64) (s : State) : Res :=
  act s fun s => s.holdIdle c

/-- LOAD_HOLD_TIMEOUT (R44): DEV_LOAD_HOLD_MAX passes after the first hold, and the load is refused with HOLD_TIMEOUT. -/
def execLoadHoldTimeout (s : State) : Res :=
  act s fun s => s.loadHoldTimeout

/-- COMMIT_DOMAINS_ON (R316): The domains that the loader voted up for commit reach ON, and the copy of sections begins. -/
def execCommitDomainsOn (s : State) : Res :=
  act s fun s => s.commitDomainsOn

/-- COMMIT_COPY_DONE (R43): The commit copy completes; the new image comes into force, its V2 votes replace the old, and contexts are released. -/
def execCommitCopyDone (bad : Option (Fin 256)) (s : State) : Res :=
  act s fun s => s.commitCopyDone (bad.map Fin.val)

/-- STRUCTURE_RESET (R399): In the first cycle with no image in force and every context FREE, tables, quotas and votes return to their pre-image form. -/
def execStructureReset (s : State) : Res :=
  act s fun s => s.structureReset

end Sys2Proof.Machine
end

