-- ==== Sys2Proof/Machine/MemoryCmds.lean ====
section
/-!
DEFINITION. The meanings of the commands of memory requests, the HBM stacks and the CXL ports (chapter 06): each hands its operands to the
operation that its rule describes, and the CCLK cycle closes (Cycle.lean).
-/
namespace Sys2Proof.Machine

/-- REMOTE_REQUEST_ARRIVAL (R128): A memory request arrives at the device that owns its offset and is checked against the map and the access rights. -/
def execRemoteRequestArrival (k : Pkt) (ups : Upsets) (s : State) : Res :=
  act s fun s => (s.upset ups).arrives k (k.kind == 0 || k.kind == 1)

/-- SCRUB_READ (R138): Each scrub interval, the patrol scrub reads one granule and writes back corrected words. -/
def execScrubRead (b : Fin 16) (ups : Upsets) (s : State) : Res :=
  act s fun s => (s.upset ups).scrub b

/-- CA_PARITY (R146): An HBM command/address parity error fails the stack's outstanding requests, and the stack needs retraining. -/
def execCaParity (n : Fin 8) (s : State) : Res :=
  act s fun s => s.caParity n

/-- TEMP_HIGH (R146): A stack reports above 95 °C, and the controller doubles its refresh rate. -/
def execTempHigh (n : Fin 8) (temp : Byte) (s : State) : Res :=
  act s fun s => s.hbmTemp n temp.toNat

/-- CXL_HDM_WRITE (R143): A write to a CXL decoder takes effect only while quiescent and when it is a valid range. -/
def execCxlHdmWrite (c : Fin 2) (h : Fin 8) (v : W64) (s : State) : Res :=
  act s fun s => s.hdmWrite c h v

/-- CXL_ENUMERATE (R143): Osaux enumerates a CXL port and configures its Type 3 targets. -/
def execCxlEnumerate (c : Fin 2) (sizes : List (Fin 32769)) (unsupported : Bool) (s : State) : Res :=
  act s fun s => s.cxlEnum c (sizes.map Fin.val) unsupported

/-- CXL_COMPLETION (R144): A CXL.mem completion returns and completes its access. -/
def execCxlCompletion (c : Fin 2) (i : Nat) (r : CxlEnd) (retried : Bool) (s : State) : Res :=
  act s fun s => s.cxlDone c i r retried

/-- CPL_TIMEOUT (R144): A CXL access with no completion within CXL_CPL_TIMEOUT fails with REMOTE_FAIL. -/
def execCplTimeout (c : Fin 2) (i : Nat) (s : State) : Res :=
  act s fun s => s.cxlLate c i

/-- CXL_LINK_DOWN (R144): A CXL link goes down, and every access to the port's half fails until recovery. -/
def execCxlLinkDown (c : Fin 2) (s : State) : Res :=
  act s fun s => s.cxlLoss c 3

/-- VIRAL (R144): A CXL port signals viral and is handled as a link down. -/
def execViral (c : Fin 2) (s : State) : Res :=
  act s fun s => s.cxlLoss c 4

/-- CXL_LINK_UP (R143): A CXL link finishes training and comes up, to be used only once Osaux enumerates the port while quiescent. -/
def execCxlLinkUp (c : Fin 2) (width : Fin 64) (rate : Fin 4) (s : State) : Res :=
  act s fun s => s.cxlUp c width rate

/-- HBM_TRAINING_DONE (R146): Training of an HBM3E stack whose domain came ON from OFF completes, and HBM_CFG.trained is set. -/
def execHbmTrainingDone (n : Fin 8) (s : State) : Res :=
  act s fun s => s.hbmTrained n

/-- HBM_TEMP_NORMAL (R146): A stack that reported above 95 °C reports 95 °C or below again, and the controller returns to its normal refresh rate. -/
def execHbmTempNormal (n : Fin 8) (temp : Byte) (s : State) : Res :=
  act s fun s => s.hbmTemp n temp.toNat

end Sys2Proof.Machine
end

