-- ==== Sys2Proof/Machine/MoverCmds.lean ====
section
/-!
DEFINITION. The meanings of the commands of the movers and the fabric slot of a tile (chapter 03): each hands its operands to the
operation that its rule describes, and the CCLK cycle closes (Cycle.lean).
-/
namespace Sys2Proof.Machine

/-- RUN (R59): The mover slot instruction RUN appends a descriptor to the queue of the named mover. -/
def execRun (t : Fin 8) (m : Fin 8) (desc : Fin 32768) (tally : Fin 256) (s : State) : Res :=
  act s fun s => s.slotIssue t fun s => s.movRun t m desc tally

/-- MOVER_ROW_WRITTEN (R140): A mover row has been written, and with per_row_tally set the row increment is applied in order. -/
def execMoverRowWritten (t : Fin 8) (m : Fin 8) (row : Nat) (ups : Upsets) (y : Ecc) (s : State) : Res :=
  act s fun s => (s.upset ups).movRowWritten t m row y

/-- MOVER_DESC_DONE (R61): The last byte of a mover descriptor is written; its tally increments, and the next queued descriptor starts. -/
def execMoverDescDone (t : Fin 8) (m : Fin 8) (s : State) : Res :=
  act s fun s => s.movDone t m

/-- MOVER_OP_FAIL (R61): A mover operation fails on an uncorrectable read, a denied access or a failed remote access, and stops at the failing row. -/
def execMoverOpFail (t : Fin 8) (m : Fin 8) (status : Fin 4) (s : State) : Res :=
  act s fun s => s.movOpFail t m status

/-- MOVER_PARITY (R345): A mover parity error fails every queued and running mover operation. -/
def execMoverParity (t : Fin 8) (s : State) : Res :=
  act s fun s => s.moverParity t

/-- SEND (R62): The fabric slot instruction SEND contributes chunks to a collective. -/
def execSend (t : Fin 8) (desc : Fin 65536) (tally : Fin 256) (s : State) : Res :=
  act s fun s => s.slotIssue t fun s => s.fabIssue t 1 desc tally

/-- EXPECT (R63): The fabric slot instruction EXPECT places an entry in the tile's expect table. -/
def execExpect (t : Fin 8) (desc : Fin 65536) (tally : Fin 256) (s : State) : Res :=
  act s fun s => s.slotIssue t fun s => s.fabIssue t 2 desc tally

/-- JOIN (R62): The fabric slot instruction JOIN takes part in a collective without data. -/
def execJoin (t : Fin 8) (desc : Fin 65536) (tally : Fin 256) (s : State) : Res :=
  act s fun s => s.slotIssue t fun s => s.fabIssue t 3 desc tally

/-- EXPECT_CHUNK_WRITTEN (R63): The endpoint writes a confirmed result chunk to the matching expect entry's destination and increments its tally. -/
def execExpectChunkWritten (t : Fin 8) (g : Fin 16384) (seq : BitVec 16) (s : State) : Res :=
  act s fun s => s.chunkWritten t g seq.toNat

end Sys2Proof.Machine
end

