-- ==== Sys2Proof/Machine/PanCmds.lean ====
section
/-!
DEFINITION. The meanings of the commands of the reduction pans (chapter 11): each hands its operands to the
operation that its rule describes, and the CCLK cycle closes (Cycle.lean).
-/
namespace Sys2Proof.Machine

/-- CONFIRM_ARRIVAL (R263): A CONFIRM makes a checked slot CONFIRMED, or is held until its data arrives. -/
def execConfirmArrival (k : Pkt) (s : State) : Res :=
  act s fun s => s.arrives k (k.kind == 6 && k.sub == 6)

/-- RETRACT_ARRIVAL (R264): A RETRACT withdraws a provisional version, and the slot restores its local contribution. -/
def execRetractArrival (k : Pkt) (s : State) : Res :=
  act s fun s => s.arrives k (k.kind == 6 && k.sub == 7)

/-- RESEND_ARRIVAL (R266): A RESEND makes the slot send the named version again from its held output. -/
def execResendArrival (k : Pkt) (s : State) : Res :=
  act s fun s => s.arrives k (k.kind == 6 && k.sub == 8)

/-- ACCEPT_ARRIVAL (R266): An ACCEPT lets the sender stop repeating, and release its output once both bits are set. -/
def execAcceptArrival (k : Pkt) (s : State) : Res :=
  act s fun s => s.arrives k (k.kind == 6 && k.sub == 9)

/-- RETRACT_RESTORE_DONE (R264): The 32-cycle restore after a retract ends, and the slot returns to EXPECTING. -/
def execRetractRestoreDone (g : Fin 16384) (seq : BitVec 16) (chunk : Nat) (half : Fin 2) (s : State) : Res :=
  act s fun s => s.restoreDone g seq.toNat chunk half

/-- CONFIRM_REPEAT (R266): Every confirm_repeat, a slot still holding output repeats its CONFIRM. -/
def execConfirmRepeat (g : Fin 16384) (seq : BitVec 16) (chunk : Nat) (half : Fin 2) (s : State) : Res :=
  act s fun s => s.confirmRepeat g seq.toNat chunk half

/-- ACCEPT_TIMEOUT (R266): accept_timeout passes without an ACCEPT, and the slot sends its whole output again. -/
def execAcceptTimeout (g : Fin 16384) (seq : BitVec 16) (chunk : Nat) (half : Fin 2) (gather : Bool) (s : State) : Res :=
  act s fun s => s.acceptTimeout g seq.toNat chunk half gather

/-- SLOT_PARITY (R272): A pan slot parity error fails every instance that holds quarters in the quadrant. -/
def execSlotParity (q : Fin 4) (s : State) : Res :=
  act s fun s => s.slotParity q

end Sys2Proof.Machine
end

