-- ==== Sys2Proof/Machine/PinCmds.lean ====
section
/-!
DEFINITION. The meanings of the commands of the pins of the module (chapters 17 and 18): each hands its operands to the
operation that its rule describes, and the CCLK cycle closes (Cycle.lean).
-/
namespace Sys2Proof.Machine

/-- PWR_EN_RISE (R390): PWR_EN rises; the input stage powers PD_MGMT, and PWR_GOOD is released. -/
def execPwrEnRise (s : State) : Res :=
  actPin s fun s => s.powerRise

/-- PWR_EN_FALL (R390): PWR_EN falls; PWR_GOOD drops, and every domain goes OFF within 1 ms. -/
def execPwrEnFall (s : State) : Res :=
  actPin s fun s => s.powerFall

/-- MGMT_RAIL_FAIL (R390): The PD_MGMT rails fail while PWR_EN is high, and the module behaves as if PWR_EN fell. -/
def execMgmtRailFail (s : State) : Res :=
  actPin s fun s => s.railFail

/-- SYS_RESET_ASSERT (R391): A filtered SYS_RESET_N low resets the whole module and the recorder. -/
def execSysResetAssert (s : State) : Res :=
  actPin s fun s => s.resetAssert

/-- SYS_RESET_DEASSERT (R366): SYS_RESET_N deasserts; RACK_POS is sampled, the root PLL locks, and the ROM starts. -/
def execSysResetDeassert (rack : Fin 64) (fuseOk : Bool) (s : State) : Res :=
  actPin s fun s => s.resetDeassert rack fuseOk

/-- PERST_ASSERT (R392): PERST_N resets only the PCIe layers of the host port. -/
def execPerstAssert (s : State) : Res :=
  actPin s fun s => s.perst

end Sys2Proof.Machine
end

