-- ==== Sys2Proof/Machine/PortCmds.lean ====
section
/-!
DEFINITION. The meanings of the commands of the fabric ports (chapter 07): each hands its operands to the
operation that its rule describes, and the CCLK cycle closes (Cycle.lean).
-/
namespace Sys2Proof.Machine

/-- FRAME_RECEIVED (R156): A frame is decoded; its flits go to the core, or it is discarded, and its control flit is processed. -/
def execFrameReceived (p : Fin 48) (f : Frame) (looks : List Look) (pl : Look) (ev : PanEv) (s : State) : Res :=
  act s fun s => s.frameReceived p f looks pl ev

/-- FRAME_SEND (R194): A port sends one frame, filling it with pinned flits under the slot wheel, scheduled flits and a control flit. -/
def execFrameSend (p : Fin 48) (bups : List (Nat × Ecc)) (s : State) : Res :=
  act s fun s => (s.bobUpset bups).frameSend p

/-- PORT_TRAINING_DONE (R160): All four lanes reach fom_min with codeword lock, and the port leaves TRAINING for HELLO. -/
def execPortTrainingDone (p : Fin 48) (f0 f1 f2 f3 : Byte) (s : State) : Res :=
  act s fun s => s.trainingDone p [f0, f1, f2, f3]

/-- TRAIN_TIMEOUT (R167): train_max passes in TRAINING, and the port goes to ABSENT or UNUSED, or restarts the attempt. -/
def execTrainTimeout (p : Fin 48) (signal : Bool) (s : State) : Res :=
  act s fun s => s.trainTimeout p signal

/-- HELLO_TIMEOUT (R167): No valid hello arrives within hello_timeout, and the port goes to ABSENT or the retrain attempt fails. -/
def execHelloTimeout (p : Fin 48) (s : State) : Res :=
  act s fun s => s.helloTimeout p

/-- LANE_ADAPT (R159): Adaptation moves each lane parameter by at most one step toward a higher FOM. -/
def execLaneAdapt (p : Fin 48) (lane : Fin 4) (param : Fin 10) (up : Bool) (fom : Byte) (s : State) : Res :=
  act s fun s => s.laneAdapt p lane param up fom.toNat

/-- FOM_LOW (R160): A lane of an UP port stays below fom_warn for a whole millisecond, and FOM_LOW is reported. -/
def execFomLow (p : Fin 48) (lane : Fin 4) (fom : Byte) (s : State) : Res :=
  act s fun s => s.fomLow p lane fom.toNat

/-- EI_IDLE_TIMEOUT (R161): idle_time passes without traffic, and the port sends EI_REQ. -/
def execEiIdleTimeout (p : Fin 48) (s : State) : Res :=
  act s fun s => s.eiRequest p

/-- EI_EXIT_DONE (R162): The exit from electrical idle completes, and the port is UP, or enters RETRAIN on a low FOM. -/
def execEiExitDone (p : Fin 48) (f0 f1 f2 f3 : Byte) (s : State) : Res :=
  act s fun s => s.eiDone p [f0, f1, f2, f3]

/-- TRAINING_BURST_DETECT (R162): A port in UP_IDLE detects the neighbour's training burst and starts its own exit. -/
def execTrainingBurstDetect (p : Fin 48) (s : State) : Res :=
  act s fun s => s.eiExit p

/-- LANE_SIGNAL_LOSS (R163): A lane loses signal, or 8 frames are lost, and the port enters RETRAIN. -/
def execLaneSignalLoss (p : Fin 48) (lane : Fin 4) (s : State) : Res :=
  act s fun s => s.signalLoss p lane

/-- ABSENT_BURST (R168): Every 10 ms a port in ABSENT or UNUSED sends a training burst. -/
def execAbsentBurst (p : Fin 48) (s : State) : Res :=
  act s fun s => s.absentBurst p

/-- PORT_RETRAIN (R170): A PORT_CTRL retrain starts a retrain, restarts the attempt or the evaluation, or re-evaluates a held port. -/
def execPortRetrain (p : Fin 48) (s : State) : Res :=
  act s fun s => s.portRetrain p

/-- PORT_HOLD_DOWN (R167): A PORT_CTRL hold_down sends the port to HELD_DOWN with cause MANUAL. -/
def execPortHoldDown (p : Fin 48) (s : State) : Res :=
  act s fun s => s.portHold p

/-- PORT_RELEASE (R170): A PORT_CTRL release returns a manually held-down port to HELLO. -/
def execPortRelease (p : Fin 48) (s : State) : Res :=
  act s fun s => s.portRelease p

/-- SERDES_PLL (R172): A group PLL loss sends the group's four ports to OFF and starts ladder step 1 on them. -/
def execSerdesPll (g : Fin 12) (s : State) : Res :=
  act s fun s => s.whenLocked (2 + g.val) fun s => s.serdesLoss g false

end Sys2Proof.Machine
end

