-- ==== Sys2Proof/Machine/PowerCmds.lean ====
section
/-!
DEFINITION. The meanings of the commands of power domains, supply, temperature and clocks (chapter 14): each hands its operands to the
operation that its rule describes, and the CCLK cycle closes (Cycle.lean).
-/
namespace Sys2Proof.Machine

/-- PWR_VOTE_CTRL (R313): A vote write sets a slot of one domain or of all, changing its resolved state. -/
def execPwrVoteCtrl (src : Src) (v : W64) (s : State) : Res :=
  act s fun s => s.voteCtrl src v

/-- DOMAIN_ABORT_RETURN (R317): At c + 16 an aborted entry returns the domain to the state it left. -/
def execDomainAbortReturn (d : Fin 84) (s : State) : Res :=
  act s fun s => s.abortReturn d

/-- DOMAIN_ENTRY_COMPLETE (R317): An entry reaches RET or OFF. -/
def execDomainEntryComplete (d : Fin 84) (s : State) : Res :=
  act s fun s => s.entryDone d

/-- DOMAIN_RAMP_START (R318): Once the stagger conditions hold, a domain starts its ramp toward its resolved state. -/
def execDomainRampStart (d : Fin 84) (s : State) : Res :=
  act s fun s => s.rampStart d

/-- DOMAIN_ON (R318): Rails are good and settled; the domain is ON or RET, and its blocks come out of reset. -/
def execDomainOn (d : Fin 84) (ok : Bool) (s : State) : Res :=
  act s fun s => s.domainOn d ok

/-- RAMP_FAIL (R318): Rails are not good within twice the exit time, and the domain returns to OFF. -/
def execRampFail (d : Fin 84) (s : State) : Res :=
  act s fun s => s.rampFail d

/-- CONVERTER_FAULT (R325): A converter fault takes the domain to OFF at once. -/
def execConverterFault (d : Fin 84) (s : State) : Res :=
  act s fun s => s.converterFault d

/-- WAKE_PIN (R319): WAKE_N held low writes V0 ON on the masked domains every cycle. -/
def execWakePin (low : Bool) (s : State) : Res :=
  act s fun s => s.wakePinSet low

/-- PWR_WAKE_SW_WRITE (R319): A write of PWR_WAKE_SW sets or clears level wake source 1. -/
def execPwrWakeSwWrite (v : W64) (s : State) : Res :=
  act s fun s => s.wakeSwWrite v

/-- I3C_IBI (R377): An I3C in-band interrupt from the BMC is an edge wake, and Osaux answers its request. -/
def execI3cIbi (regs : List Nat) (s : State) : Res :=
  act s fun s => s.ibi regs

/-- POWER_CAP_INTERVAL (R322): Each cap interval, the controller measures input power and adjusts the throttle duty. -/
def execPowerCapInterval (watts : Fin 65536) (volts : Fin 65536) (amps : Fin 65536) (s : State) : Res :=
  act s fun s => s.capInterval watts volts amps

/-- TEMP_WARN (R323): A junction reaches 100 °C, THERM_ALERT_N asserts, and temp_warn is set. -/
def execTempWarn (sensor : Byte) (temp : Byte) (s : State) : Res :=
  act s fun s => s.tempHot sensor.toNat temp.toNat

/-- TEMP_CLEAR (R323): The temperature falls below 95 °C, and temp_warn and THERM_ALERT_N clear. -/
def execTempClear (sensor : Byte) (temp : Byte) (s : State) : Res :=
  act s fun s => s.tempCool sensor.toNat temp.toNat

/-- TEMP_CRIT (R323): A junction reaches 105 °C, and the device goes down. -/
def execTempCrit (sensor : Byte) (temp : Byte) (s : State) : Res :=
  act s fun s => s.tempCrit sensor.toNat temp.toNat

/-- IN_UNDERVOLT (R307): VIN48 stays below 38 V for 10 µs, and the device goes down. -/
def execInUndervolt (s : State) : Res :=
  act s fun s => s.supplyFault false

/-- IN_OVERVOLT (R307): VIN48 stays above 62 V for 10 µs, and the device goes down. -/
def execInOvervolt (s : State) : Res :=
  act s fun s => s.supplyFault true

/-- REFCLK_LOSS (R326): Loss of REFCLK takes the device down. -/
def execRefclkLoss (s : State) : Res :=
  act s fun s => if s.pins.refclk then s.refclkLoss else s

/-- ROOT_UNLOCK (R326): Loss of lock in the root PLL takes the device down. -/
def execRootUnlock (s : State) : Res :=
  act s fun s => s.whenLocked 0 fun s => s.rootLoss

/-- HCLK_UNLOCK (R326): Loss of lock in the HCLK PLL fails outstanding HBM requests, and the stacks need retraining. -/
def execHclkUnlock (s : State) : Res :=
  act s fun s => s.whenLocked 1 fun s => s.hclkLoss

/-- CXL_PLL_UNLOCK (R326): Loss of lock in a CXL PLL takes that port's link down. -/
def execCxlPllUnlock (c : Fin 2) (s : State) : Res :=
  act s fun s => s.whenLocked (14 + c.val) fun s => s.cxlPllLoss c

/-- PCIE_PLL_UNLOCK (R326): Loss of lock in the PCIe PLL takes the host link down. -/
def execPciePllUnlock (s : State) : Res :=
  act s fun s => s.whenLocked 16 fun s => s.pciePll

end Sys2Proof.Machine
end

