-- ==== Sys2Proof/Machine/RecoveryCmds.lean ====
section
/-!
DEFINITION. The meanings of the commands of hangs, the reset ladder and the device reset (chapter 15): each hands its operands to the
operation that its rule describes, and the CCLK cycle closes (Cycle.lean).
-/
namespace Sys2Proof.Machine

/-- HANG (R335): A block's window count reaches BLK_PROGRESS_WIN with work outstanding; hung is set and ladder step 1 starts. -/
def execHang (b : Fin 152) (s : State) : Res :=
  act s fun s => s.hang b

/-- DEV_HEARTBEAT (R335): A write to DEV_HEARTBEAT advances block 0's progress counter. -/
def execDevHeartbeat (s : State) : Res :=
  act s fun s => s.progress 0

/-- ENGINE_RESET_DONE (R336): An engine reset ends with a passing self-check, and the ladder step succeeds. -/
def execEngineResetDone (b : Fin 152) (ok : Bool) (s : State) : Res :=
  act s fun s => s.resetDone b ok

/-- RESET_WINDOW_EXPIRY (R336): RESET_WINDOW passes without success, and ladder step 2 starts. -/
def execResetWindowExpiry (b : Fin 152) (s : State) : Res :=
  act s fun s => s.resetLate b

/-- ENGINE_RESET_REQ (R339): The DEV_RESET_CTRL operation engine reset runs step 1 on a block that is at S3, hung, or quiescent. -/
def execEngineResetReq (b : Fin 256) (s : State) : Res :=
  act s fun s => s.engineReq b

/-- DOMAIN_CYCLE_REQ (R339): The DEV_RESET_CTRL operation domain power cycle runs step 2 on a block's domain. -/
def execDomainCycleReq (b : Fin 256) (s : State) : Res :=
  act s fun s => s.cycleReq b

/-- DEVICE_RESET_REQ (R339): The DEV_RESET_CTRL operation device reset starts an S4 device reset with the software cause. -/
def execDeviceResetReq (s : State) : Res :=
  act s fun s => s.deviceReq 0

/-- DEVICE_RESET_HOLD_END (R340): The S4 hold phase ends by timer or by request. -/
def execDeviceResetHoldEnd (s : State) : Res :=
  act s fun s => s.holdOver

/-- DEVICE_RESET_POWER_CYCLE (R340): Once the S4 cause has cleared, every domain except PD_MGMT is cycled and the recorder epoch advances. -/
def execDeviceResetPowerCycle (causeClear : Bool) (s : State) : Res :=
  act s fun s => s.powerCycle causeClear

/-- DEVICE_RESET_RETRAIN_DONE (R340): HBM training, CXL enumeration and port training end, and the check phase begins. -/
def execDeviceResetRetrainDone (s : State) : Res :=
  act s fun s => s.retrained

/-- DEVICE_READY (R340): The self-checks pass, the plan is reinstalled, DEVICE_READY is sent, and device_down clears. -/
def execDeviceReady (s : State) : Res :=
  act s fun s => s.deviceReady

/-- DEV_INJECT_ARM_WRITE (R344): A write to DEV_INJECT_ARM arms one S4 injection while quiescent. -/
def execDevInjectArmWrite (v : W64) (s : State) : Res :=
  act s fun s => s.armWrite v

end Sys2Proof.Machine
end

