-- ==== Sys2Proof/Machine/RegisterCmds.lean ====
section
/-!
DEFINITION. The meanings of the commands of register accesses and the common block window (chapters 00 and 01): each hands its operands to the
operation that its rule describes, and the CCLK cycle closes (Cycle.lean).
-/
namespace Sys2Proof.Machine

/-- REG_WRITE (R7): A register write to a register that has no row of its own sets the value as its access code gives. -/
def execRegWrite (src : Src) (off : Nat) (half : Bool) (v : W64) (s : State) : Res :=
  act s fun s => s.regWrite src off half v

/-- RC_READ (R7): A read of an RC register returns its value and then clears it to zero, keeping a same-cycle increment. -/
def execRcRead (src : Src) (off : Nat) (half : Bool) (s : State) : Res :=
  act s fun s => s.regRead src off half

/-- MISALIGNED_ACCESS (R6): A register access that is not a naturally aligned 32-bit or 64-bit access completes without effect. -/
def execMisalignedAccess (src : Src) (off : Nat) (size : Nat) (s : State) : Res :=
  act s fun s => s.misaligned src off size

/-- FABRIC_REG_ACCESS (R20): A fabric access to the register block is performed only for a context that carries the privileged attribute. -/
def execFabricRegAccess (ctx : Fin 64) (off : Nat) (half : Bool) (w : Option W64) (s : State) : Res :=
  act s fun s => s.fabricAccess ctx off half w

/-- BLK_FAULT_W1C (R334): A W1C write to BLK_FAULT clears bits and acknowledges faults, subject to the severity limits of R334. -/
def execBlkFaultW1c (b : Fin 152) (v : W64) (s : State) : Res :=
  act s fun s => s.faultW1c b v

/-- BLK_SEV_ACK_WRITE (R24): A W1S write to BLK_SEV_ACK acknowledges outstanding faults and ends their escalation. -/
def execBlkSevAckWrite (b : Fin 152) (v : W64) (s : State) : Res :=
  act s fun s => s.sevAck b v

/-- BLK_INJECT (R344): A write to BLK_INJECT arms or performs fault injection on a detector of the block. -/
def execBlkInject (b : Fin 152) (v : W64) (s : State) : Res :=
  act s fun s => s.injectWrite b v

/-- BLK_PROGRESS_WIN_WRITE (R27): A write to BLK_PROGRESS_WIN sets the hang window and restarts the window measurement. -/
def execBlkProgressWinWrite (b : Fin 152) (v : W64) (s : State) : Res :=
  act s fun s => s.progressWin b v

/-- DEV_MODE_WRITE (R28): A write to DEV_MODE takes effect only while the device is quiescent. -/
def execDevModeWrite (v : W64) (s : State) : Res :=
  act s fun s => s.modeWrite v

end Sys2Proof.Machine
end

