-- ==== Sys2Proof/Machine/SchedulerCmds.lean ====
section
/-!
DEFINITION. The meanings of the commands of the scheduler, the contexts and the creel (chapter 09): each hands its operands to the
operation that its rule describes, and the CCLK cycle closes (Cycle.lean).
-/
namespace Sys2Proof.Machine

/-- SCH_SHAPE_CTRL (R209): A shaper change is accepted for an adjustable node within its image limits, or refused. -/
def execSchShapeCtrl (v : W64) (s : State) : Res :=
  act s fun s => s.shapeCtrl v

/-- SHAPER_REFILL (R208): Each refill period, every shaped bucket gains tokens up to its burst. -/
def execShaperRefill (s : State) : Res :=
  act s fun s => s.refill

/-- CTX_OPEN (R212): A CTX_CTRL open is checked under Table 9-5 and, if accepted, opens the context and starts its spindles. -/
def execCtxOpen (c : Fin 64) (setGen : Option (BitVec 16)) (s : State) : Res :=
  act s fun s => s.ctxOpen c (setGen.map BitVec.toNat)

/-- CTX_CLOSE (R212): A CTX_CTRL close marks the context CLOSING and starts teardown stage 1. -/
def execCtxClose (c : Fin 64) (s : State) : Res :=
  act s fun s => s.ctxClose c

/-- TEARDOWN_STAGE_ADVANCE (R215): Once its waited-for blocks report done, a teardown stage completes and the next one begins. -/
def execTeardownStageAdvance (c : Fin 64) (s : State) : Res :=
  act s fun s => s.teardownNext c

/-- TEARDOWN_TIMEOUT (R213): CTX_TEARDOWN_MAX passes, and the context enters STUCK. -/
def execTeardownTimeout (c : Fin 64) (s : State) : Res :=
  act s fun s => s.teardownLate c

/-- BITMAP_PARITY (R221): A creel bitmap parity error makes every bobbin request fail until reset. -/
def execBitmapParity (s : State) : Res :=
  act s fun s => s.bitmapParity

/-- SCH_STATE_PARITY (R222): A scheduler state parity error discards every queued loose and tree packet. -/
def execSchStateParity (s : State) : Res :=
  act s fun s => s.schParity

end Sys2Proof.Machine
end

