-- ==== Sys2Proof/Machine/SyncCmds.lean ====
section
/-!
DEFINITION. The meanings of the commands of the sync slot of a spindle (chapter 03): each hands its operands to the
operation that its rule describes, and the CCLK cycle closes (Cycle.lean).
-/
namespace Sys2Proof.Machine

/-- WAIT (R64): The sync instruction WAIT holds the bundle until a tally reaches n. -/
def execWait (t : Fin 8) (k : Fin 248) (n : Fin 67108864) (s : State) : Res :=
  act s fun s => s.waitCmd t k n false

/-- TAKE (R64): The sync instruction TAKE waits until a tally reaches n, then subtracts n. -/
def execTake (t : Fin 8) (k : Fin 248) (n : Fin 67108864) (s : State) : Res :=
  act s fun s => s.waitCmd t k n true

/-- SYNC_ADD (R64): The sync instruction ADD adds n to a tally at issue. -/
def execSyncAdd (t : Fin 8) (k : Fin 248) (n : Fin 67108864) (s : State) : Res :=
  act s fun s => s.addCmd t k n

/-- LOOP (R69): The sync instruction LOOP pushes a count onto the loop stack. -/
def execLoop (t : Fin 8) (n : Fin 16777216) (s : State) : Res :=
  act s fun s => s.slotIssue t fun s => s.loopPush t n

/-- ENDLOOP (R69): The sync instruction ENDLOOP decrements the innermost count, then branches back or pops the loop. -/
def execEndloop (t : Fin 8) (s : State) : Res :=
  act s fun s => s.slotIssue t fun s => s.loopEnd t

/-- STEP_END (R68): The sync instruction STEP_END reports the tile's step end, and the spindle holds in HARVEST. -/
def execStepEnd (t : Fin 8) (s : State) : Res :=
  act s fun s => s.slotIssue t fun s => s.stepEnd t

/-- HALT (R72): The sync instruction HALT ends the program, and the spindle enters HALTED. -/
def execHalt (t : Fin 8) (s : State) : Res :=
  act s fun s => s.slotIssue t fun s => s.spnHalt t

/-- WAIT_SATISFIED (R64): A held wait condition is seen satisfied, and its bundle issues. -/
def execWaitSatisfied (t : Fin 8) (j : Fin 64) (y0 y1 : Ecc) (s : State) : Res :=
  act s fun s => s.waitSatisfied t j y0 y1

/-- SEQ_PARITY (R72): A sequencer parity error sends the spindle to ERROR at S3. -/
def execSeqParity (t : Fin 8) (s : State) : Res :=
  act s fun s => s.seqParity t

/-- SPINDLE_ERROR_TEARDOWN (R72): Osaux tears down the context of a spindle in ERROR with status PROGRAM_FAULT. -/
def execSpindleErrorTeardown (t : Fin 8) (s : State) : Res :=
  act s fun s => s.errorTeardown t

end Sys2Proof.Machine
end

