-- ==== Sys2Proof/Machine/TestCmds.lean ====
section
/-!
DEFINITION. The meanings of the commands of the self-tests (Table 15-11): each hands its operands to the
operation that its rule describes, and the CCLK cycle closes (Cycle.lean).
-/
namespace Sys2Proof.Machine

/-- ARR_BIST (R346): Test 0x01 runs a logic and cell test of an array. -/
def execArrBist (inst : Fin 256) (atHarvest : Bool) (ctx : Fin 64) (s : State) : Res :=
  act s fun s => s.testReq 1 inst atHarvest ctx

/-- CRY_KAT (R346): Test 0x02 runs a known-answer update in a crystallizer. -/
def execCryKat (inst : Fin 256) (atHarvest : Bool) (ctx : Fin 64) (s : State) : Res :=
  act s fun s => s.testReq 2 inst atHarvest ctx

/-- PAN_BIST (R346): Test 0x03 tests the adders, residue checks and state of a pan quadrant. -/
def execPanBist (inst : Fin 256) (atHarvest : Bool) (ctx : Fin 64) (s : State) : Res :=
  act s fun s => s.testReq 3 inst atHarvest ctx

/-- HBM_RECAL (R346): Test 0x04 recalibrates the PHY of an HBM stack. -/
def execHbmRecal (inst : Fin 256) (atHarvest : Bool) (ctx : Fin 64) (s : State) : Res :=
  act s fun s => s.testReq 4 inst atHarvest ctx

/-- VU_BIST (R346): Test 0x05 tests a vector unit. -/
def execVuBist (inst : Fin 256) (atHarvest : Bool) (ctx : Fin 64) (s : State) : Res :=
  act s fun s => s.testReq 5 inst atHarvest ctx

/-- TILE_MBIST (R346): Test 0x06 runs a march test of a tile store while quiescent. -/
def execTileMbist (inst : Fin 256) (atHarvest : Bool) (ctx : Fin 64) (s : State) : Res :=
  act s fun s => s.testReq 6 inst atHarvest ctx

/-- CREEL_BIST (R346): Test 0x07 tests the creel while quiescent. -/
def execCreelBist (inst : Fin 256) (atHarvest : Bool) (ctx : Fin 64) (s : State) : Res :=
  act s fun s => s.testReq 7 inst atHarvest ctx

/-- SERDES_RECAL (R346): Test 0x08 recalibrates the receivers of a port group. -/
def execSerdesRecal (inst : Fin 256) (atHarvest : Bool) (ctx : Fin 64) (s : State) : Res :=
  act s fun s => s.testReq 8 inst atHarvest ctx

/-- SELFTEST_DONE (R347): A test ends, and DEV_TEST_STATUS holds its result. -/
def execSelftestDone (pass : Bool) (elem : Byte) (s : State) : Res :=
  act s fun s => s.testDone pass elem.toNat

end Sys2Proof.Machine
end

