-- ==== Sys2Proof/Machine/VectorCmds.lean ====
section
/-!
DEFINITION. The meanings of the commands of the vector unit and the encoder (chapters 03 and 05): each hands its operands to the
operation that its rule describes, and the CCLK cycle closes (Cycle.lean).
-/
namespace Sys2Proof.Machine

/-- VU_MOV (R55): The vector instruction MOV copies va to vd. -/
def execVuMov (t : Fin 8) (o : VOp) (e : Ecc) (s : State) : Res :=
  act s fun s => s.slotIssue t fun s => s.vecIssue t .mov o e

/-- VU_CVT (R56): The vector instruction CVT converts va to the format fmt. -/
def execVuCvt (t : Fin 8) (o : VOp) (e : Ecc) (s : State) : Res :=
  act s fun s => s.slotIssue t fun s => s.vecIssue t .cvt o e

/-- VU_ADD (R56): The vector instruction ADD adds va and vb. -/
def execVuAdd (t : Fin 8) (o : VOp) (e : Ecc) (s : State) : Res :=
  act s fun s => s.slotIssue t fun s => s.vecIssue t .add o e

/-- VU_SUB (R56): The vector instruction SUB subtracts vb from va. -/
def execVuSub (t : Fin 8) (o : VOp) (e : Ecc) (s : State) : Res :=
  act s fun s => s.slotIssue t fun s => s.vecIssue t .sub o e

/-- VU_MUL (R56): The vector instruction MUL multiplies va by vb. -/
def execVuMul (t : Fin 8) (o : VOp) (e : Ecc) (s : State) : Res :=
  act s fun s => s.slotIssue t fun s => s.vecIssue t .mul o e

/-- VU_FMA (R56): The vector instruction FMA computes va × vb + vc with one rounding. -/
def execVuFma (t : Fin 8) (o : VOp) (e : Ecc) (s : State) : Res :=
  act s fun s => s.slotIssue t fun s => s.vecIssue t .fma o e

/-- VU_MAX (R56): The vector instruction MAX takes the lane maximum of va and vb. -/
def execVuMax (t : Fin 8) (o : VOp) (e : Ecc) (s : State) : Res :=
  act s fun s => s.slotIssue t fun s => s.vecIssue t .max o e

/-- VU_MIN (R56): The vector instruction MIN takes the lane minimum of va and vb. -/
def execVuMin (t : Fin 8) (o : VOp) (e : Ecc) (s : State) : Res :=
  act s fun s => s.slotIssue t fun s => s.vecIssue t .min o e

/-- VU_ABS (R56): The vector instruction ABS takes the absolute value of va. -/
def execVuAbs (t : Fin 8) (o : VOp) (e : Ecc) (s : State) : Res :=
  act s fun s => s.slotIssue t fun s => s.vecIssue t .abs o e

/-- VU_NEG (R56): The vector instruction NEG negates va. -/
def execVuNeg (t : Fin 8) (o : VOp) (e : Ecc) (s : State) : Res :=
  act s fun s => s.slotIssue t fun s => s.vecIssue t .neg o e

/-- VU_SEL (R56): The vector instruction SEL selects va or vb by vc. -/
def execVuSel (t : Fin 8) (o : VOp) (e : Ecc) (s : State) : Res :=
  act s fun s => s.slotIssue t fun s => s.vecIssue t .sel o e

/-- VU_CMPGT (R56): The vector instruction CMPGT writes 1.0 where va is greater than vb, and 0.0 elsewhere. -/
def execVuCmpgt (t : Fin 8) (o : VOp) (e : Ecc) (s : State) : Res :=
  act s fun s => s.slotIssue t fun s => s.vecIssue t .cmpgt o e

/-- VU_EXP (R56): The vector instruction EXP computes e to the power va. -/
def execVuExp (t : Fin 8) (o : VOp) (e : Ecc) (s : State) : Res :=
  act s fun s => s.slotIssue t fun s => s.vecIssue t .exp o e

/-- VU_LOG (R56): The vector instruction LOG computes the natural logarithm of va. -/
def execVuLog (t : Fin 8) (o : VOp) (e : Ecc) (s : State) : Res :=
  act s fun s => s.slotIssue t fun s => s.vecIssue t .log o e

/-- VU_RSQRT (R56): The vector instruction RSQRT computes 1/√va. -/
def execVuRsqrt (t : Fin 8) (o : VOp) (e : Ecc) (s : State) : Res :=
  act s fun s => s.slotIssue t fun s => s.vecIssue t .rsqrt o e

/-- VU_RECIP (R56): The vector instruction RECIP computes 1/va. -/
def execVuRecip (t : Fin 8) (o : VOp) (e : Ecc) (s : State) : Res :=
  act s fun s => s.slotIssue t fun s => s.vecIssue t .recip o e

/-- VU_ROWSUM (R57): The vector instruction ROWSUM adds each row by a fixed pairwise tree. -/
def execVuRowsum (t : Fin 8) (o : VOp) (e : Ecc) (s : State) : Res :=
  act s fun s => s.slotIssue t fun s => s.vecIssue t .rowsum o e

/-- VU_ROWMAX (R57): The vector instruction ROWMAX takes the maximum of each row. -/
def execVuRowmax (t : Fin 8) (o : VOp) (e : Ecc) (s : State) : Res :=
  act s fun s => s.slotIssue t fun s => s.vecIssue t .rowmax o e

/-- VU_ROWMIN (R57): The vector instruction ROWMIN takes the minimum of each row. -/
def execVuRowmin (t : Fin 8) (o : VOp) (e : Ecc) (s : State) : Res :=
  act s fun s => s.slotIssue t fun s => s.vecIssue t .rowmin o e

/-- VU_SMAX_EXP (R57): The vector instruction SMAX_EXP computes exp(va − rowmax(va)). -/
def execVuSmaxExp (t : Fin 8) (o : VOp) (e : Ecc) (s : State) : Res :=
  act s fun s => s.slotIssue t fun s => s.vecIssue t .smaxExp o e

/-- VU_LN_STATS (R57): The vector instruction LN_STATS computes the row mean and variance. -/
def execVuLnStats (t : Fin 8) (o : VOp) (e : Ecc) (s : State) : Res :=
  act s fun s => s.slotIssue t fun s => s.vecIssue t .lnStats o e

/-- VU_LN_APPLY (R57): The vector instruction LN_APPLY normalises va with the mean and variance held in vb. -/
def execVuLnApply (t : Fin 8) (o : VOp) (e : Ecc) (s : State) : Res :=
  act s fun s => s.slotIssue t fun s => s.vecIssue t .lnApply o e

/-- VU_TOPK (R58): The vector instruction TOPK writes the k largest values of each row and their indices. -/
def execVuTopk (t : Fin 8) (o : VOp) (e : Ecc) (s : State) : Res :=
  act s fun s => s.slotIssue t fun s => s.vecIssue t .topk o e

/-- VU_ENCODE (R120): The vector instruction ENCODE passes va through the format encoder under a profile. -/
def execVuEncode (t : Fin 8) (o : VOp) (e : Ecc) (s : State) : Res :=
  act s fun s => s.slotIssue t fun s => s.vecIssue t .encode o e

/-- VU_RESULT_WRITE (R55): A vector result is written to vd at issue plus latency, and its tally increments. -/
def execVuResultWrite (t : Fin 8) (k : Nat) (s : State) : Res :=
  act s fun s => s.vecWrite t k

/-- ENCODE_DONE (R121): An ENCODE completes, writes vd, and adds to the encoder counters. -/
def execEncodeDone (t : Fin 8) (dataBad : Bool) (profileBad : Bool) (s : State) : Res :=
  act s fun s => s.encodeDone t dataBad profileBad

end Sys2Proof.Machine
end

