-- ==== Sys2Proof/Machine/Dispatch.lean ====
section
/-!
DEFINITION. One arm for each command: the direct call of its meaning.
-/
namespace Sys2Proof.Machine

/-- The effect of a command on everything but the queue. -/
def exec (i : Instr) (s : State) : Host.Outcome State Fault Refusal :=
  match i with
  | .regWrite src off half v => Sys2Proof.Machine.execRegWrite src off half v s
  | .rcRead src off half => Sys2Proof.Machine.execRcRead src off half s
  | .misalignedAccess src off size => Sys2Proof.Machine.execMisalignedAccess src off size s
  | .fabricRegAccess ctx off half w => Sys2Proof.Machine.execFabricRegAccess ctx off half w s
  | .blkFaultW1c b v => Sys2Proof.Machine.execBlkFaultW1c b v s
  | .blkSevAckWrite b v => Sys2Proof.Machine.execBlkSevAckWrite b v s
  | .blkInject b v => Sys2Proof.Machine.execBlkInject b v s
  | .blkProgressWinWrite b v => Sys2Proof.Machine.execBlkProgressWinWrite b v s
  | .devModeWrite v => Sys2Proof.Machine.execDevModeWrite v s
  | .loadStart v => Sys2Proof.Machine.execLoadStart v s
  | .harvestLoadStart v => Sys2Proof.Machine.execHarvestLoadStart v s
  | .loadCancel v => Sys2Proof.Machine.execLoadCancel v s
  | .loadUnload v => Sys2Proof.Machine.execLoadUnload v s
  | .loadStageEnd => Sys2Proof.Machine.execLoadStageEnd s
  | .loadHoldComplete => Sys2Proof.Machine.execLoadHoldComplete s
  | .noHarvestCtxHold c => Sys2Proof.Machine.execNoHarvestCtxHold c s
  | .loadHoldTimeout => Sys2Proof.Machine.execLoadHoldTimeout s
  | .commitDomainsOn => Sys2Proof.Machine.execCommitDomainsOn s
  | .commitCopyDone bad => Sys2Proof.Machine.execCommitCopyDone bad s
  | .structureReset => Sys2Proof.Machine.execStructureReset s
  | .bundleIssue t j e y0 y1 => Sys2Proof.Machine.execBundleIssue t j e y0 y1 s
  | .cacheFillDone t j ue y0 y1 => Sys2Proof.Machine.execCacheFillDone t j ue y0 y1 s
  | .wload t a half desc tally => Sys2Proof.Machine.execWload t a half desc tally s
  | .stream t a half desc tally => Sys2Proof.Machine.execStream t a half desc tally s
  | .streamClr t a half desc tally => Sys2Proof.Machine.execStreamClr t a half desc tally s
  | .drain t a half desc tally => Sys2Proof.Machine.execDrain t a half desc tally s
  | .wloadStart t a half ups => Sys2Proof.Machine.execWloadStart t a half ups s
  | .wloadDone t a half => Sys2Proof.Machine.execWloadDone t a half s
  | .streamStart t a half ups => Sys2Proof.Machine.execStreamStart t a half ups s
  | .streamDone t a half ce ue => Sys2Proof.Machine.execStreamDone t a half ce ue s
  | .drainStart t a half => Sys2Proof.Machine.execDrainStart t a half s
  | .drainDone t a half ce ue => Sys2Proof.Machine.execDrainDone t a half ce ue s
  | .arrayScopeStop t a half eng det k upTo => Sys2Proof.Machine.execArrayScopeStop t a half eng det k upTo s
  | .shapeChange t a => Sys2Proof.Machine.execShapeChange t a s
  | .shapeReconfigDone t a => Sys2Proof.Machine.execShapeReconfigDone t a s
  | .arrayClockGate t a half => Sys2Proof.Machine.execArrayClockGate t a half s
  | .arrayTeardownDone t a => Sys2Proof.Machine.execArrayTeardownDone t a s
  | .arrayHarvestClear t a => Sys2Proof.Machine.execArrayHarvestClear t a s
  | .arrayEmpty t a => Sys2Proof.Machine.execArrayEmpty t a s
  | .vuMov t o e => Sys2Proof.Machine.execVuMov t o e s
  | .vuCvt t o e => Sys2Proof.Machine.execVuCvt t o e s
  | .vuAdd t o e => Sys2Proof.Machine.execVuAdd t o e s
  | .vuSub t o e => Sys2Proof.Machine.execVuSub t o e s
  | .vuMul t o e => Sys2Proof.Machine.execVuMul t o e s
  | .vuFma t o e => Sys2Proof.Machine.execVuFma t o e s
  | .vuMax t o e => Sys2Proof.Machine.execVuMax t o e s
  | .vuMin t o e => Sys2Proof.Machine.execVuMin t o e s
  | .vuAbs t o e => Sys2Proof.Machine.execVuAbs t o e s
  | .vuNeg t o e => Sys2Proof.Machine.execVuNeg t o e s
  | .vuSel t o e => Sys2Proof.Machine.execVuSel t o e s
  | .vuCmpgt t o e => Sys2Proof.Machine.execVuCmpgt t o e s
  | .vuExp t o e => Sys2Proof.Machine.execVuExp t o e s
  | .vuLog t o e => Sys2Proof.Machine.execVuLog t o e s
  | .vuRsqrt t o e => Sys2Proof.Machine.execVuRsqrt t o e s
  | .vuRecip t o e => Sys2Proof.Machine.execVuRecip t o e s
  | .vuRowsum t o e => Sys2Proof.Machine.execVuRowsum t o e s
  | .vuRowmax t o e => Sys2Proof.Machine.execVuRowmax t o e s
  | .vuRowmin t o e => Sys2Proof.Machine.execVuRowmin t o e s
  | .vuSmaxExp t o e => Sys2Proof.Machine.execVuSmaxExp t o e s
  | .vuLnStats t o e => Sys2Proof.Machine.execVuLnStats t o e s
  | .vuLnApply t o e => Sys2Proof.Machine.execVuLnApply t o e s
  | .vuTopk t o e => Sys2Proof.Machine.execVuTopk t o e s
  | .vuEncode t o e => Sys2Proof.Machine.execVuEncode t o e s
  | .vuResultWrite t k => Sys2Proof.Machine.execVuResultWrite t k s
  | .encodeDone t dataBad profileBad => Sys2Proof.Machine.execEncodeDone t dataBad profileBad s
  | .run t m desc tally => Sys2Proof.Machine.execRun t m desc tally s
  | .moverRowWritten t m row ups y => Sys2Proof.Machine.execMoverRowWritten t m row ups y s
  | .moverDescDone t m => Sys2Proof.Machine.execMoverDescDone t m s
  | .moverOpFail t m status => Sys2Proof.Machine.execMoverOpFail t m status s
  | .moverParity t => Sys2Proof.Machine.execMoverParity t s
  | .send t desc tally => Sys2Proof.Machine.execSend t desc tally s
  | .expect t desc tally => Sys2Proof.Machine.execExpect t desc tally s
  | .join t desc tally => Sys2Proof.Machine.execJoin t desc tally s
  | .expectChunkWritten t g seq => Sys2Proof.Machine.execExpectChunkWritten t g seq s
  | .wait t k n => Sys2Proof.Machine.execWait t k n s
  | .take t k n => Sys2Proof.Machine.execTake t k n s
  | .syncAdd t k n => Sys2Proof.Machine.execSyncAdd t k n s
  | .loop t n => Sys2Proof.Machine.execLoop t n s
  | .endloop t => Sys2Proof.Machine.execEndloop t s
  | .stepEnd t => Sys2Proof.Machine.execStepEnd t s
  | .halt t => Sys2Proof.Machine.execHalt t s
  | .waitSatisfied t j y0 y1 => Sys2Proof.Machine.execWaitSatisfied t j y0 y1 s
  | .seqParity t => Sys2Proof.Machine.execSeqParity t s
  | .spindleErrorTeardown t => Sys2Proof.Machine.execSpindleErrorTeardown t s
  | .remoteRequestArrival k ups => Sys2Proof.Machine.execRemoteRequestArrival k ups s
  | .scrubRead b ups => Sys2Proof.Machine.execScrubRead b ups s
  | .caParity n => Sys2Proof.Machine.execCaParity n s
  | .tempHigh n temp => Sys2Proof.Machine.execTempHigh n temp s
  | .cxlHdmWrite c h v => Sys2Proof.Machine.execCxlHdmWrite c h v s
  | .cxlEnumerate c sizes unsupported => Sys2Proof.Machine.execCxlEnumerate c sizes unsupported s
  | .cxlCompletion c k r retried => Sys2Proof.Machine.execCxlCompletion c k r retried s
  | .cplTimeout c k => Sys2Proof.Machine.execCplTimeout c k s
  | .cxlLinkDown c => Sys2Proof.Machine.execCxlLinkDown c s
  | .viral c => Sys2Proof.Machine.execViral c s
  | .frameReceived p f looks pl ev => Sys2Proof.Machine.execFrameReceived p f looks pl ev s
  | .frameSend p bups => Sys2Proof.Machine.execFrameSend p bups s
  | .portTrainingDone p f0 f1 f2 f3 => Sys2Proof.Machine.execPortTrainingDone p f0 f1 f2 f3 s
  | .trainTimeout p signal => Sys2Proof.Machine.execTrainTimeout p signal s
  | .helloTimeout p => Sys2Proof.Machine.execHelloTimeout p s
  | .laneAdapt p lane param up fom => Sys2Proof.Machine.execLaneAdapt p lane param up fom s
  | .fomLow p lane fom => Sys2Proof.Machine.execFomLow p lane fom s
  | .eiIdleTimeout p => Sys2Proof.Machine.execEiIdleTimeout p s
  | .eiExitDone p f0 f1 f2 f3 => Sys2Proof.Machine.execEiExitDone p f0 f1 f2 f3 s
  | .trainingBurstDetect p => Sys2Proof.Machine.execTrainingBurstDetect p s
  | .laneSignalLoss p lane => Sys2Proof.Machine.execLaneSignalLoss p lane s
  | .absentBurst p => Sys2Proof.Machine.execAbsentBurst p s
  | .portRetrain p => Sys2Proof.Machine.execPortRetrain p s
  | .portHoldDown p => Sys2Proof.Machine.execPortHoldDown p s
  | .portRelease p => Sys2Proof.Machine.execPortRelease p s
  | .serdesPll g => Sys2Proof.Machine.execSerdesPll g s
  | .looseHeadArrival p busy k look ups => Sys2Proof.Machine.execLooseHeadArrival p busy k look ups s
  | .headReevaluate k busy => Sys2Proof.Machine.execHeadReevaluate k busy s
  | .treeHeadArrival p k look => Sys2Proof.Machine.execTreeHeadArrival p k look s
  | .pinnedChunkArrival p c look ev => Sys2Proof.Machine.execPinnedChunkArrival p c look ev s
  | .egressSelect p bups => Sys2Proof.Machine.execEgressSelect p bups s
  | .looseRequestInject u r => Sys2Proof.Machine.execLooseRequestInject u r s
  | .rtoExpiry u tag => Sys2Proof.Machine.execRtoExpiry u tag s
  | .completionArrival k => Sys2Proof.Machine.execCompletionArrival k s
  | .rateInterval => Sys2Proof.Machine.execRateInterval s
  | .swapNow => Sys2Proof.Machine.execSwapNow s
  | .swapAtHarvest => Sys2Proof.Machine.execSwapAtHarvest s
  | .swapCancel => Sys2Proof.Machine.execSwapCancel s
  | .routeSwap => Sys2Proof.Machine.execRouteSwap s
  | .swapHoldTimeout => Sys2Proof.Machine.execSwapHoldTimeout s
  | .swcCfgWrite v => Sys2Proof.Machine.execSwcCfgWrite v s
  | .rteDestWrite bank d v => Sys2Proof.Machine.execRteDestWrite bank d v s
  | .coreParity => Sys2Proof.Machine.execCoreParity s
  | .schShapeCtrl v => Sys2Proof.Machine.execSchShapeCtrl v s
  | .shaperRefill => Sys2Proof.Machine.execShaperRefill s
  | .ctxOpen c setGen => Sys2Proof.Machine.execCtxOpen c setGen s
  | .ctxClose c => Sys2Proof.Machine.execCtxClose c s
  | .teardownStageAdvance c => Sys2Proof.Machine.execTeardownStageAdvance c s
  | .teardownTimeout c => Sys2Proof.Machine.execTeardownTimeout c s
  | .bitmapParity => Sys2Proof.Machine.execBitmapParity s
  | .schStateParity => Sys2Proof.Machine.execSchStateParity s
  | .chunkPull g seq order ev ups => Sys2Proof.Machine.execChunkPull g seq order ev ups s
  | .creditArrival k => Sys2Proof.Machine.execCreditArrival k s
  | .creditRepeat g seq => Sys2Proof.Machine.execCreditRepeat g seq s
  | .collTimeout g => Sys2Proof.Machine.execCollTimeout g s
  | .abortArrival k => Sys2Proof.Machine.execAbortArrival k s
  | .treeDoneArrival k => Sys2Proof.Machine.execTreeDoneArrival k s
  | .broadcastRto g seq => Sys2Proof.Machine.execBroadcastRto g seq s
  | .a2aDataArrival k => Sys2Proof.Machine.execA2aDataArrival k s
  | .a2aDoneArrival k => Sys2Proof.Machine.execA2aDoneArrival k s
  | .countsArrival k => Sys2Proof.Machine.execCountsArrival k s
  | .a2aRto g seq member => Sys2Proof.Machine.execA2aRto g seq member s
  | .instanceComplete g seq => Sys2Proof.Machine.execInstanceComplete g seq s
  | .engineParity => Sys2Proof.Machine.execEngineParity s
  | .confirmArrival k => Sys2Proof.Machine.execConfirmArrival k s
  | .retractArrival k => Sys2Proof.Machine.execRetractArrival k s
  | .resendArrival k => Sys2Proof.Machine.execResendArrival k s
  | .acceptArrival k => Sys2Proof.Machine.execAcceptArrival k s
  | .retractRestoreDone g seq chunk half => Sys2Proof.Machine.execRetractRestoreDone g seq chunk half s
  | .confirmRepeat g seq chunk half => Sys2Proof.Machine.execConfirmRepeat g seq chunk half s
  | .acceptTimeout g seq chunk half gather => Sys2Proof.Machine.execAcceptTimeout g seq chunk half gather s
  | .slotParity q => Sys2Proof.Machine.execSlotParity q s
  | .cryVector t upd mism ups => Sys2Proof.Machine.execCryVector t upd mism ups s
  | .cryNormPassDone t => Sys2Proof.Machine.execCryNormPassDone t s
  | .cryNormDecide t g => Sys2Proof.Machine.execCryNormDecide t g s
  | .cryUpdatePassDone t => Sys2Proof.Machine.execCryUpdatePassDone t s
  | .cryStepWrite t g v => Sys2Proof.Machine.execCryStepWrite t g v s
  | .cryTableParity t => Sys2Proof.Machine.execCryTableParity t s
  | .harvestDrainEnd c => Sys2Proof.Machine.execHarvestDrainEnd c s
  | .harvestCrystallizeEnd c => Sys2Proof.Machine.execHarvestCrystallizeEnd c s
  | .harvestSettleEnd c => Sys2Proof.Machine.execHarvestSettleEnd c s
  | .harvestHoldEnd c => Sys2Proof.Machine.execHarvestHoldEnd c s
  | .harvestTimeout c => Sys2Proof.Machine.execHarvestTimeout c s
  | .pwrVoteCtrl src v => Sys2Proof.Machine.execPwrVoteCtrl src v s
  | .domainAbortReturn d => Sys2Proof.Machine.execDomainAbortReturn d s
  | .domainEntryComplete d => Sys2Proof.Machine.execDomainEntryComplete d s
  | .domainRampStart d => Sys2Proof.Machine.execDomainRampStart d s
  | .domainOn d ok => Sys2Proof.Machine.execDomainOn d ok s
  | .rampFail d => Sys2Proof.Machine.execRampFail d s
  | .converterFault d => Sys2Proof.Machine.execConverterFault d s
  | .wakePin low => Sys2Proof.Machine.execWakePin low s
  | .pwrWakeSwWrite v => Sys2Proof.Machine.execPwrWakeSwWrite v s
  | .i3cIbi regs => Sys2Proof.Machine.execI3cIbi regs s
  | .powerCapInterval watts volts amps => Sys2Proof.Machine.execPowerCapInterval watts volts amps s
  | .tempWarn sensor temp => Sys2Proof.Machine.execTempWarn sensor temp s
  | .tempClear sensor temp => Sys2Proof.Machine.execTempClear sensor temp s
  | .tempCrit sensor temp => Sys2Proof.Machine.execTempCrit sensor temp s
  | .inUndervolt => Sys2Proof.Machine.execInUndervolt s
  | .inOvervolt => Sys2Proof.Machine.execInOvervolt s
  | .refclkLoss => Sys2Proof.Machine.execRefclkLoss s
  | .rootUnlock => Sys2Proof.Machine.execRootUnlock s
  | .hclkUnlock => Sys2Proof.Machine.execHclkUnlock s
  | .cxlPllUnlock c => Sys2Proof.Machine.execCxlPllUnlock c s
  | .pciePllUnlock => Sys2Proof.Machine.execPciePllUnlock s
  | .pwrEnRise => Sys2Proof.Machine.execPwrEnRise s
  | .pwrEnFall => Sys2Proof.Machine.execPwrEnFall s
  | .mgmtRailFail => Sys2Proof.Machine.execMgmtRailFail s
  | .sysResetAssert => Sys2Proof.Machine.execSysResetAssert s
  | .sysResetDeassert rack fuseOk => Sys2Proof.Machine.execSysResetDeassert rack fuseOk s
  | .perstAssert => Sys2Proof.Machine.execPerstAssert s
  | .hang b => Sys2Proof.Machine.execHang b s
  | .devHeartbeat => Sys2Proof.Machine.execDevHeartbeat s
  | .engineResetDone b ok => Sys2Proof.Machine.execEngineResetDone b ok s
  | .resetWindowExpiry b => Sys2Proof.Machine.execResetWindowExpiry b s
  | .engineResetReq b => Sys2Proof.Machine.execEngineResetReq b s
  | .domainCycleReq b => Sys2Proof.Machine.execDomainCycleReq b s
  | .deviceResetReq => Sys2Proof.Machine.execDeviceResetReq s
  | .deviceResetHoldEnd => Sys2Proof.Machine.execDeviceResetHoldEnd s
  | .deviceResetPowerCycle causeClear => Sys2Proof.Machine.execDeviceResetPowerCycle causeClear s
  | .deviceResetRetrainDone => Sys2Proof.Machine.execDeviceResetRetrainDone s
  | .deviceReady => Sys2Proof.Machine.execDeviceReady s
  | .devInjectArmWrite v => Sys2Proof.Machine.execDevInjectArmWrite v s
  | .arrBist inst atHarvest ctx => Sys2Proof.Machine.execArrBist inst atHarvest ctx s
  | .cryKat inst atHarvest ctx => Sys2Proof.Machine.execCryKat inst atHarvest ctx s
  | .panBist inst atHarvest ctx => Sys2Proof.Machine.execPanBist inst atHarvest ctx s
  | .hbmRecal inst atHarvest ctx => Sys2Proof.Machine.execHbmRecal inst atHarvest ctx s
  | .vuBist inst atHarvest ctx => Sys2Proof.Machine.execVuBist inst atHarvest ctx s
  | .tileMbist inst atHarvest ctx => Sys2Proof.Machine.execTileMbist inst atHarvest ctx s
  | .creelBist inst atHarvest ctx => Sys2Proof.Machine.execCreelBist inst atHarvest ctx s
  | .serdesRecal inst atHarvest ctx => Sys2Proof.Machine.execSerdesRecal inst atHarvest ctx s
  | .selftestDone pass elem => Sys2Proof.Machine.execSelftestDone pass elem s
  | .recLogWrite => Sys2Proof.Machine.execRecLogWrite s
  | .recCursorWrite v ce ue => Sys2Proof.Machine.execRecCursorWrite v ce ue s
  | .bar2Access off op ups => Sys2Proof.Machine.execBar2Access off op ups s
  | .pcieLinkDown => Sys2Proof.Machine.execPcieLinkDown s
  | .pkgLinkDown t => Sys2Proof.Machine.execPkgLinkDown t s
  | .keyParity => Sys2Proof.Machine.execKeyParity s
  | .planInstall => Sys2Proof.Machine.execPlanInstall s
  | .ownerEnrol => Sys2Proof.Machine.execOwnerEnrol s
  | .ownerRemove => Sys2Proof.Machine.execOwnerRemove s
  | .attest => Sys2Proof.Machine.execAttest s
  | .getCert => Sys2Proof.Machine.execGetCert s
  | .fwFlash => Sys2Proof.Machine.execFwFlash s
  | .svnAdvance => Sys2Proof.Machine.execSvnAdvance s
  | .laneTable => Sys2Proof.Machine.execLaneTable s
  | .quilanMsg m => Sys2Proof.Machine.execQuilanMsg m s
  | .debugEnable nonce => Sys2Proof.Machine.execDebugEnable nonce s
  | .debugDisable => Sys2Proof.Machine.execDebugDisable s
  | .unknownCommand => Sys2Proof.Machine.execUnknownCommand s
  | .mbOutAck => Sys2Proof.Machine.execMbOutAck s
  | .bootGo => Sys2Proof.Machine.execBootGo s
  | .bootReboot => Sys2Proof.Machine.execBootReboot s
  | .romFlashReadDone => Sys2Proof.Machine.execRomFlashReadDone s
  | .debugExpiry => Sys2Proof.Machine.execDebugExpiry s
  | .i3cTelemetry acked => Sys2Proof.Machine.execI3cTelemetry acked s
  | .pcieLinkUp width rate => Sys2Proof.Machine.execPcieLinkUp width rate s
  | .cxlLinkUp c width rate => Sys2Proof.Machine.execCxlLinkUp c width rate s
  | .hbmTrainingDone n => Sys2Proof.Machine.execHbmTrainingDone n s
  | .hbmTempNormal n temp => Sys2Proof.Machine.execHbmTempNormal n temp s

end Sys2Proof.Machine
end

