-- ==== Sys2Proof/Safety.lean ====
section
/-!
DEFINITION. What the statements say of a state: the canonical form of memory, a state in which nothing is due at the end of a cycle, and what
it means for a command to answer with an effect.
-/
namespace Sys2Proof.Machine

/-- The canonical form of memory: addresses strictly rising. A listed byte is one that has been written; an unlisted byte reads as
uncorrectable or as a value that the spec leaves open (`State.byteAt`), so no entry can repeat what an unlisted address reads as. [DESIGN CHOICE, log entry 7] -/
def Memory.wf (m : List Host.Cell) : Bool := Table.rising m

/-- No injected failure waits for its occasion (R26, R344). -/
def State.uninjected (s : State) : Bool := s.blks.all fun x => x.2.inject.all fun y => y.2 == 0

/-- Nothing captured or asked for in the current cycle is still in its block (R328, R336, R350). -/
def State.flushed (s : State) : Bool := s.newEvts.isEmpty && s.newVecs.isEmpty

/-- Nothing is due at the end of a cycle: no captured event, vector, ladder step or domain transition; no request of a mover that has just ended; no stuck context that could resume, no
pending harvest load, swap or self-test; no level wake; no crystallizer at work; no injected failure; no message to place. -/
def State.settled (s : State) : Bool :=
  s.flushed && s.newSteps.isEmpty && s.newDoms.isEmpty && s.swc.ended.isEmpty &&
  (s.ctxs.all fun x => x.2.st != 3) && s.ld.state != 2 && !s.swc.pend && s.dev.test.state != 1 &&
  !s.pins.wakeLow && !(s.rg (blkR 2 0x078)).bit 0 &&
  (s.crys.all fun x => !x.2.active || x.2.st == 3 || x.2.st == 4) && s.uninjected &&
  (s.hst.mbPlaced || s.hst.mbOut.isEmpty)

/-- The command answers a next state in which its effect is `t` and the cycle has closed; where the effect leaves nothing due, the next state
is `t` itself, so that everything `t` takes from the old state is unchanged. -/
def Answers (c : Instr) (s t : State) : Prop :=
  exec c s = .next t.endCycle ∧ (t.settled = true → exec c s = .next t)

end Sys2Proof.Machine
end

