-- ==== Sys2Proof/Laws/State.lean ====
section
/-!
SUPPORT. The elementary updates of the state, field by field: each changes the one field it names and leaves every other as it was.
-/
namespace Sys2Proof.Machine

/-! ## setRg -/

@[simp] theorem State.setRg_pending (s : State) (o : Nat) (v : W64) : (s.setRg o v).pending = s.pending := rfl
@[simp] theorem State.setRg_out (s : State) (o : Nat) (v : W64) : (s.setRg o v).out = s.out := rfl
@[simp] theorem State.setRg_free (s : State) (o : Nat) (v : W64) : (s.setRg o v).free = s.free := rfl
@[simp] theorem State.setRg_cclk (s : State) (o : Nat) (v : W64) : (s.setRg o v).cclk = s.cclk := rfl
@[simp] theorem State.setRg_pins (s : State) (o : Nat) (v : W64) : (s.setRg o v).pins = s.pins := rfl
@[simp] theorem State.setRg_regs (s : State) (o : Nat) (v : W64) : (s.setRg o v).regs = s.regs.set o v := rfl
@[simp] theorem State.setRg_cyc (s : State) (o : Nat) (v : W64) : (s.setRg o v).cyc = s.cyc := rfl
@[simp] theorem State.setRg_newBits (s : State) (o : Nat) (v : W64) : (s.setRg o v).newBits = s.newBits := rfl
@[simp] theorem State.setRg_blks (s : State) (o : Nat) (v : W64) : (s.setRg o v).blks = s.blks := rfl
@[simp] theorem State.setRg_doms (s : State) (o : Nat) (v : W64) : (s.setRg o v).doms = s.doms := rfl
@[simp] theorem State.setRg_lastRamp (s : State) (o : Nat) (v : W64) : (s.setRg o v).lastRamp = s.lastRamp := rfl
@[simp] theorem State.setRg_rcd (s : State) (o : Nat) (v : W64) : (s.setRg o v).rcd = s.rcd := rfl
@[simp] theorem State.setRg_newEvts (s : State) (o : Nat) (v : W64) : (s.setRg o v).newEvts = s.newEvts := rfl
@[simp] theorem State.setRg_newVecs (s : State) (o : Nat) (v : W64) : (s.setRg o v).newVecs = s.newVecs := rfl
@[simp] theorem State.setRg_newSteps (s : State) (o : Nat) (v : W64) : (s.setRg o v).newSteps = s.newSteps := rfl
@[simp] theorem State.setRg_newDoms (s : State) (o : Nat) (v : W64) : (s.setRg o v).newDoms = s.newDoms := rfl
@[simp] theorem State.setRg_faultOf (s : State) (o : Nat) (v : W64) : (s.setRg o v).faultOf = s.faultOf := rfl
@[simp] theorem State.setRg_dev (s : State) (o : Nat) (v : W64) : (s.setRg o v).dev = s.dev := rfl
@[simp] theorem State.setRg_ld (s : State) (o : Nat) (v : W64) : (s.setRg o v).ld = s.ld := rfl
@[simp] theorem State.setRg_img (s : State) (o : Nat) (v : W64) : (s.setRg o v).img = s.img := rfl
@[simp] theorem State.setRg_hst (s : State) (o : Nat) (v : W64) : (s.setRg o v).hst = s.hst := rfl
@[simp] theorem State.setRg_tiles (s : State) (o : Nat) (v : W64) : (s.setRg o v).tiles = s.tiles := rfl
@[simp] theorem State.setRg_arrs (s : State) (o : Nat) (v : W64) : (s.setRg o v).arrs = s.arrs := rfl
@[simp] theorem State.setRg_ctxs (s : State) (o : Nat) (v : W64) : (s.setRg o v).ctxs = s.ctxs := rfl
@[simp] theorem State.setRg_ports (s : State) (o : Nat) (v : W64) : (s.setRg o v).ports = s.ports := rfl
@[simp] theorem State.setRg_paths (s : State) (o : Nat) (v : W64) : (s.setRg o v).paths = s.paths := rfl
@[simp] theorem State.setRg_swc (s : State) (o : Nat) (v : W64) : (s.setRg o v).swc = s.swc := rfl
@[simp] theorem State.setRg_shapes (s : State) (o : Nat) (v : W64) : (s.setRg o v).shapes = s.shapes := rfl
@[simp] theorem State.setRg_newShapes (s : State) (o : Nat) (v : W64) : (s.setRg o v).newShapes = s.newShapes := rfl
@[simp] theorem State.setRg_retired (s : State) (o : Nat) (v : W64) : (s.setRg o v).retired = s.retired := rfl
@[simp] theorem State.setRg_vcBobs (s : State) (o : Nat) (v : W64) : (s.setRg o v).vcBobs = s.vcBobs := rfl
@[simp] theorem State.setRg_bitmapBad (s : State) (o : Nat) (v : W64) : (s.setRg o v).bitmapBad = s.bitmapBad := rfl
@[simp] theorem State.setRg_bobUps (s : State) (o : Nat) (v : W64) : (s.setRg o v).bobUps = s.bobUps := rfl
@[simp] theorem State.setRg_insts (s : State) (o : Nat) (v : W64) : (s.setRg o v).insts = s.insts := rfl
@[simp] theorem State.setRg_grps (s : State) (o : Nat) (v : W64) : (s.setRg o v).grps = s.grps := rfl
@[simp] theorem State.setRg_crys (s : State) (o : Nat) (v : W64) : (s.setRg o v).crys = s.crys := rfl
@[simp] theorem State.setRg_cxls (s : State) (o : Nat) (v : W64) : (s.setRg o v).cxls = s.cxls := rfl
@[simp] theorem State.setRg_hbms (s : State) (o : Nat) (v : W64) : (s.setRg o v).hbms = s.hbms := rfl
@[simp] theorem State.setRg_upsets (s : State) (o : Nat) (v : W64) : (s.setRg o v).upsets = s.upsets := rfl
@[simp] theorem State.setRg_mem (s : State) (o : Nat) (v : W64) : (s.setRg o v).mem = s.mem := rfl
@[simp] theorem State.setRg_undef (s : State) (o : Nat) (v : W64) : (s.setRg o v).undef = s.undef := rfl
@[simp] theorem State.setRg_striped (s : State) (o : Nat) (v : W64) : (s.setRg o v).striped = s.striped := rfl

/-! ## count -/

@[simp] theorem State.count_pending (s : State) (o : Nat) (f : W64 → W64) : (s.count o f).pending = s.pending := rfl
@[simp] theorem State.count_out (s : State) (o : Nat) (f : W64 → W64) : (s.count o f).out = s.out := rfl
@[simp] theorem State.count_free (s : State) (o : Nat) (f : W64 → W64) : (s.count o f).free = s.free := rfl
@[simp] theorem State.count_cclk (s : State) (o : Nat) (f : W64 → W64) : (s.count o f).cclk = s.cclk := rfl
@[simp] theorem State.count_pins (s : State) (o : Nat) (f : W64 → W64) : (s.count o f).pins = s.pins := rfl
@[simp] theorem State.count_regs (s : State) (o : Nat) (f : W64 → W64) : (s.count o f).regs = s.regs.set o (f (s.rg o)) := rfl
@[simp] theorem State.count_cyc (s : State) (o : Nat) (f : W64 → W64) : (s.count o f).cyc = s.cyc.set o ((s.cyc.get (s.rg o, 0) o).1, f (s.cyc.get (s.rg o, 0) o).2) := rfl
@[simp] theorem State.count_newBits (s : State) (o : Nat) (f : W64 → W64) : (s.count o f).newBits = s.newBits := rfl
@[simp] theorem State.count_blks (s : State) (o : Nat) (f : W64 → W64) : (s.count o f).blks = s.blks := rfl
@[simp] theorem State.count_doms (s : State) (o : Nat) (f : W64 → W64) : (s.count o f).doms = s.doms := rfl
@[simp] theorem State.count_lastRamp (s : State) (o : Nat) (f : W64 → W64) : (s.count o f).lastRamp = s.lastRamp := rfl
@[simp] theorem State.count_rcd (s : State) (o : Nat) (f : W64 → W64) : (s.count o f).rcd = s.rcd := rfl
@[simp] theorem State.count_newEvts (s : State) (o : Nat) (f : W64 → W64) : (s.count o f).newEvts = s.newEvts := rfl
@[simp] theorem State.count_newVecs (s : State) (o : Nat) (f : W64 → W64) : (s.count o f).newVecs = s.newVecs := rfl
@[simp] theorem State.count_newSteps (s : State) (o : Nat) (f : W64 → W64) : (s.count o f).newSteps = s.newSteps := rfl
@[simp] theorem State.count_newDoms (s : State) (o : Nat) (f : W64 → W64) : (s.count o f).newDoms = s.newDoms := rfl
@[simp] theorem State.count_faultOf (s : State) (o : Nat) (f : W64 → W64) : (s.count o f).faultOf = s.faultOf := rfl
@[simp] theorem State.count_dev (s : State) (o : Nat) (f : W64 → W64) : (s.count o f).dev = s.dev := rfl
@[simp] theorem State.count_ld (s : State) (o : Nat) (f : W64 → W64) : (s.count o f).ld = s.ld := rfl
@[simp] theorem State.count_img (s : State) (o : Nat) (f : W64 → W64) : (s.count o f).img = s.img := rfl
@[simp] theorem State.count_hst (s : State) (o : Nat) (f : W64 → W64) : (s.count o f).hst = s.hst := rfl
@[simp] theorem State.count_tiles (s : State) (o : Nat) (f : W64 → W64) : (s.count o f).tiles = s.tiles := rfl
@[simp] theorem State.count_arrs (s : State) (o : Nat) (f : W64 → W64) : (s.count o f).arrs = s.arrs := rfl
@[simp] theorem State.count_ctxs (s : State) (o : Nat) (f : W64 → W64) : (s.count o f).ctxs = s.ctxs := rfl
@[simp] theorem State.count_ports (s : State) (o : Nat) (f : W64 → W64) : (s.count o f).ports = s.ports := rfl
@[simp] theorem State.count_paths (s : State) (o : Nat) (f : W64 → W64) : (s.count o f).paths = s.paths := rfl
@[simp] theorem State.count_swc (s : State) (o : Nat) (f : W64 → W64) : (s.count o f).swc = s.swc := rfl
@[simp] theorem State.count_shapes (s : State) (o : Nat) (f : W64 → W64) : (s.count o f).shapes = s.shapes := rfl
@[simp] theorem State.count_newShapes (s : State) (o : Nat) (f : W64 → W64) : (s.count o f).newShapes = s.newShapes := rfl
@[simp] theorem State.count_retired (s : State) (o : Nat) (f : W64 → W64) : (s.count o f).retired = s.retired := rfl
@[simp] theorem State.count_vcBobs (s : State) (o : Nat) (f : W64 → W64) : (s.count o f).vcBobs = s.vcBobs := rfl
@[simp] theorem State.count_bitmapBad (s : State) (o : Nat) (f : W64 → W64) : (s.count o f).bitmapBad = s.bitmapBad := rfl
@[simp] theorem State.count_bobUps (s : State) (o : Nat) (f : W64 → W64) : (s.count o f).bobUps = s.bobUps := rfl
@[simp] theorem State.count_insts (s : State) (o : Nat) (f : W64 → W64) : (s.count o f).insts = s.insts := rfl
@[simp] theorem State.count_grps (s : State) (o : Nat) (f : W64 → W64) : (s.count o f).grps = s.grps := rfl
@[simp] theorem State.count_crys (s : State) (o : Nat) (f : W64 → W64) : (s.count o f).crys = s.crys := rfl
@[simp] theorem State.count_cxls (s : State) (o : Nat) (f : W64 → W64) : (s.count o f).cxls = s.cxls := rfl
@[simp] theorem State.count_hbms (s : State) (o : Nat) (f : W64 → W64) : (s.count o f).hbms = s.hbms := rfl
@[simp] theorem State.count_upsets (s : State) (o : Nat) (f : W64 → W64) : (s.count o f).upsets = s.upsets := rfl
@[simp] theorem State.count_mem (s : State) (o : Nat) (f : W64 → W64) : (s.count o f).mem = s.mem := rfl
@[simp] theorem State.count_undef (s : State) (o : Nat) (f : W64 → W64) : (s.count o f).undef = s.undef := rfl
@[simp] theorem State.count_striped (s : State) (o : Nat) (f : W64 → W64) : (s.count o f).striped = s.striped := rfl

/-! ## setsBits -/

@[simp] theorem State.setsBits_pending (s : State) (o : Nat) (v : W64) : (s.setsBits o v).pending = s.pending := rfl
@[simp] theorem State.setsBits_out (s : State) (o : Nat) (v : W64) : (s.setsBits o v).out = s.out := rfl
@[simp] theorem State.setsBits_free (s : State) (o : Nat) (v : W64) : (s.setsBits o v).free = s.free := rfl
@[simp] theorem State.setsBits_cclk (s : State) (o : Nat) (v : W64) : (s.setsBits o v).cclk = s.cclk := rfl
@[simp] theorem State.setsBits_pins (s : State) (o : Nat) (v : W64) : (s.setsBits o v).pins = s.pins := rfl
@[simp] theorem State.setsBits_regs (s : State) (o : Nat) (v : W64) : (s.setsBits o v).regs = s.regs := rfl
@[simp] theorem State.setsBits_cyc (s : State) (o : Nat) (v : W64) : (s.setsBits o v).cyc = s.cyc := rfl
@[simp] theorem State.setsBits_newBits (s : State) (o : Nat) (v : W64) : (s.setsBits o v).newBits = s.newBits.set o (s.newBits.get 0 o ||| v) := rfl
@[simp] theorem State.setsBits_blks (s : State) (o : Nat) (v : W64) : (s.setsBits o v).blks = s.blks := rfl
@[simp] theorem State.setsBits_doms (s : State) (o : Nat) (v : W64) : (s.setsBits o v).doms = s.doms := rfl
@[simp] theorem State.setsBits_lastRamp (s : State) (o : Nat) (v : W64) : (s.setsBits o v).lastRamp = s.lastRamp := rfl
@[simp] theorem State.setsBits_rcd (s : State) (o : Nat) (v : W64) : (s.setsBits o v).rcd = s.rcd := rfl
@[simp] theorem State.setsBits_newEvts (s : State) (o : Nat) (v : W64) : (s.setsBits o v).newEvts = s.newEvts := rfl
@[simp] theorem State.setsBits_newVecs (s : State) (o : Nat) (v : W64) : (s.setsBits o v).newVecs = s.newVecs := rfl
@[simp] theorem State.setsBits_newSteps (s : State) (o : Nat) (v : W64) : (s.setsBits o v).newSteps = s.newSteps := rfl
@[simp] theorem State.setsBits_newDoms (s : State) (o : Nat) (v : W64) : (s.setsBits o v).newDoms = s.newDoms := rfl
@[simp] theorem State.setsBits_faultOf (s : State) (o : Nat) (v : W64) : (s.setsBits o v).faultOf = s.faultOf := rfl
@[simp] theorem State.setsBits_dev (s : State) (o : Nat) (v : W64) : (s.setsBits o v).dev = s.dev := rfl
@[simp] theorem State.setsBits_ld (s : State) (o : Nat) (v : W64) : (s.setsBits o v).ld = s.ld := rfl
@[simp] theorem State.setsBits_img (s : State) (o : Nat) (v : W64) : (s.setsBits o v).img = s.img := rfl
@[simp] theorem State.setsBits_hst (s : State) (o : Nat) (v : W64) : (s.setsBits o v).hst = s.hst := rfl
@[simp] theorem State.setsBits_tiles (s : State) (o : Nat) (v : W64) : (s.setsBits o v).tiles = s.tiles := rfl
@[simp] theorem State.setsBits_arrs (s : State) (o : Nat) (v : W64) : (s.setsBits o v).arrs = s.arrs := rfl
@[simp] theorem State.setsBits_ctxs (s : State) (o : Nat) (v : W64) : (s.setsBits o v).ctxs = s.ctxs := rfl
@[simp] theorem State.setsBits_ports (s : State) (o : Nat) (v : W64) : (s.setsBits o v).ports = s.ports := rfl
@[simp] theorem State.setsBits_paths (s : State) (o : Nat) (v : W64) : (s.setsBits o v).paths = s.paths := rfl
@[simp] theorem State.setsBits_swc (s : State) (o : Nat) (v : W64) : (s.setsBits o v).swc = s.swc := rfl
@[simp] theorem State.setsBits_shapes (s : State) (o : Nat) (v : W64) : (s.setsBits o v).shapes = s.shapes := rfl
@[simp] theorem State.setsBits_newShapes (s : State) (o : Nat) (v : W64) : (s.setsBits o v).newShapes = s.newShapes := rfl
@[simp] theorem State.setsBits_retired (s : State) (o : Nat) (v : W64) : (s.setsBits o v).retired = s.retired := rfl
@[simp] theorem State.setsBits_vcBobs (s : State) (o : Nat) (v : W64) : (s.setsBits o v).vcBobs = s.vcBobs := rfl
@[simp] theorem State.setsBits_bitmapBad (s : State) (o : Nat) (v : W64) : (s.setsBits o v).bitmapBad = s.bitmapBad := rfl
@[simp] theorem State.setsBits_bobUps (s : State) (o : Nat) (v : W64) : (s.setsBits o v).bobUps = s.bobUps := rfl
@[simp] theorem State.setsBits_insts (s : State) (o : Nat) (v : W64) : (s.setsBits o v).insts = s.insts := rfl
@[simp] theorem State.setsBits_grps (s : State) (o : Nat) (v : W64) : (s.setsBits o v).grps = s.grps := rfl
@[simp] theorem State.setsBits_crys (s : State) (o : Nat) (v : W64) : (s.setsBits o v).crys = s.crys := rfl
@[simp] theorem State.setsBits_cxls (s : State) (o : Nat) (v : W64) : (s.setsBits o v).cxls = s.cxls := rfl
@[simp] theorem State.setsBits_hbms (s : State) (o : Nat) (v : W64) : (s.setsBits o v).hbms = s.hbms := rfl
@[simp] theorem State.setsBits_upsets (s : State) (o : Nat) (v : W64) : (s.setsBits o v).upsets = s.upsets := rfl
@[simp] theorem State.setsBits_mem (s : State) (o : Nat) (v : W64) : (s.setsBits o v).mem = s.mem := rfl
@[simp] theorem State.setsBits_undef (s : State) (o : Nat) (v : W64) : (s.setsBits o v).undef = s.undef := rfl
@[simp] theorem State.setsBits_striped (s : State) (o : Nat) (v : W64) : (s.setsBits o v).striped = s.striped := rfl

/-! ## emit -/

@[simp] theorem State.emit_pending (s : State) (o : Out) : (s.emit o).pending = s.pending := rfl
@[simp] theorem State.emit_out (s : State) (o : Out) : (s.emit o).out = s.out ++ [o] := rfl
@[simp] theorem State.emit_free (s : State) (o : Out) : (s.emit o).free = s.free := rfl
@[simp] theorem State.emit_cclk (s : State) (o : Out) : (s.emit o).cclk = s.cclk := rfl
@[simp] theorem State.emit_pins (s : State) (o : Out) : (s.emit o).pins = s.pins := rfl
@[simp] theorem State.emit_regs (s : State) (o : Out) : (s.emit o).regs = s.regs := rfl
@[simp] theorem State.emit_cyc (s : State) (o : Out) : (s.emit o).cyc = s.cyc := rfl
@[simp] theorem State.emit_newBits (s : State) (o : Out) : (s.emit o).newBits = s.newBits := rfl
@[simp] theorem State.emit_blks (s : State) (o : Out) : (s.emit o).blks = s.blks := rfl
@[simp] theorem State.emit_doms (s : State) (o : Out) : (s.emit o).doms = s.doms := rfl
@[simp] theorem State.emit_lastRamp (s : State) (o : Out) : (s.emit o).lastRamp = s.lastRamp := rfl
@[simp] theorem State.emit_rcd (s : State) (o : Out) : (s.emit o).rcd = s.rcd := rfl
@[simp] theorem State.emit_newEvts (s : State) (o : Out) : (s.emit o).newEvts = s.newEvts := rfl
@[simp] theorem State.emit_newVecs (s : State) (o : Out) : (s.emit o).newVecs = s.newVecs := rfl
@[simp] theorem State.emit_newSteps (s : State) (o : Out) : (s.emit o).newSteps = s.newSteps := rfl
@[simp] theorem State.emit_newDoms (s : State) (o : Out) : (s.emit o).newDoms = s.newDoms := rfl
@[simp] theorem State.emit_faultOf (s : State) (o : Out) : (s.emit o).faultOf = s.faultOf := rfl
@[simp] theorem State.emit_dev (s : State) (o : Out) : (s.emit o).dev = s.dev := rfl
@[simp] theorem State.emit_ld (s : State) (o : Out) : (s.emit o).ld = s.ld := rfl
@[simp] theorem State.emit_img (s : State) (o : Out) : (s.emit o).img = s.img := rfl
@[simp] theorem State.emit_hst (s : State) (o : Out) : (s.emit o).hst = s.hst := rfl
@[simp] theorem State.emit_tiles (s : State) (o : Out) : (s.emit o).tiles = s.tiles := rfl
@[simp] theorem State.emit_arrs (s : State) (o : Out) : (s.emit o).arrs = s.arrs := rfl
@[simp] theorem State.emit_ctxs (s : State) (o : Out) : (s.emit o).ctxs = s.ctxs := rfl
@[simp] theorem State.emit_ports (s : State) (o : Out) : (s.emit o).ports = s.ports := rfl
@[simp] theorem State.emit_paths (s : State) (o : Out) : (s.emit o).paths = s.paths := rfl
@[simp] theorem State.emit_swc (s : State) (o : Out) : (s.emit o).swc = s.swc := rfl
@[simp] theorem State.emit_shapes (s : State) (o : Out) : (s.emit o).shapes = s.shapes := rfl
@[simp] theorem State.emit_newShapes (s : State) (o : Out) : (s.emit o).newShapes = s.newShapes := rfl
@[simp] theorem State.emit_retired (s : State) (o : Out) : (s.emit o).retired = s.retired := rfl
@[simp] theorem State.emit_vcBobs (s : State) (o : Out) : (s.emit o).vcBobs = s.vcBobs := rfl
@[simp] theorem State.emit_bitmapBad (s : State) (o : Out) : (s.emit o).bitmapBad = s.bitmapBad := rfl
@[simp] theorem State.emit_bobUps (s : State) (o : Out) : (s.emit o).bobUps = s.bobUps := rfl
@[simp] theorem State.emit_insts (s : State) (o : Out) : (s.emit o).insts = s.insts := rfl
@[simp] theorem State.emit_grps (s : State) (o : Out) : (s.emit o).grps = s.grps := rfl
@[simp] theorem State.emit_crys (s : State) (o : Out) : (s.emit o).crys = s.crys := rfl
@[simp] theorem State.emit_cxls (s : State) (o : Out) : (s.emit o).cxls = s.cxls := rfl
@[simp] theorem State.emit_hbms (s : State) (o : Out) : (s.emit o).hbms = s.hbms := rfl
@[simp] theorem State.emit_upsets (s : State) (o : Out) : (s.emit o).upsets = s.upsets := rfl
@[simp] theorem State.emit_mem (s : State) (o : Out) : (s.emit o).mem = s.mem := rfl
@[simp] theorem State.emit_undef (s : State) (o : Out) : (s.emit o).undef = s.undef := rfl
@[simp] theorem State.emit_striped (s : State) (o : Out) : (s.emit o).striped = s.striped := rfl

/-! ## setDom -/

@[simp] theorem State.setDom_pending (s : State) (d : Nat) (x : Dom) : (s.setDom d x).pending = s.pending := rfl
@[simp] theorem State.setDom_out (s : State) (d : Nat) (x : Dom) : (s.setDom d x).out = s.out := rfl
@[simp] theorem State.setDom_free (s : State) (d : Nat) (x : Dom) : (s.setDom d x).free = s.free := rfl
@[simp] theorem State.setDom_cclk (s : State) (d : Nat) (x : Dom) : (s.setDom d x).cclk = s.cclk := rfl
@[simp] theorem State.setDom_pins (s : State) (d : Nat) (x : Dom) : (s.setDom d x).pins = s.pins := rfl
@[simp] theorem State.setDom_regs (s : State) (d : Nat) (x : Dom) : (s.setDom d x).regs = s.regs := rfl
@[simp] theorem State.setDom_cyc (s : State) (d : Nat) (x : Dom) : (s.setDom d x).cyc = s.cyc := rfl
@[simp] theorem State.setDom_newBits (s : State) (d : Nat) (x : Dom) : (s.setDom d x).newBits = s.newBits := rfl
@[simp] theorem State.setDom_blks (s : State) (d : Nat) (x : Dom) : (s.setDom d x).blks = s.blks := rfl
@[simp] theorem State.setDom_doms (s : State) (d : Nat) (x : Dom) : (s.setDom d x).doms = s.doms.set d x := rfl
@[simp] theorem State.setDom_lastRamp (s : State) (d : Nat) (x : Dom) : (s.setDom d x).lastRamp = s.lastRamp := rfl
@[simp] theorem State.setDom_rcd (s : State) (d : Nat) (x : Dom) : (s.setDom d x).rcd = s.rcd := rfl
@[simp] theorem State.setDom_newEvts (s : State) (d : Nat) (x : Dom) : (s.setDom d x).newEvts = s.newEvts := rfl
@[simp] theorem State.setDom_newVecs (s : State) (d : Nat) (x : Dom) : (s.setDom d x).newVecs = s.newVecs := rfl
@[simp] theorem State.setDom_newSteps (s : State) (d : Nat) (x : Dom) : (s.setDom d x).newSteps = s.newSteps := rfl
@[simp] theorem State.setDom_newDoms (s : State) (d : Nat) (x : Dom) : (s.setDom d x).newDoms = s.newDoms := rfl
@[simp] theorem State.setDom_faultOf (s : State) (d : Nat) (x : Dom) : (s.setDom d x).faultOf = s.faultOf := rfl
@[simp] theorem State.setDom_dev (s : State) (d : Nat) (x : Dom) : (s.setDom d x).dev = s.dev := rfl
@[simp] theorem State.setDom_ld (s : State) (d : Nat) (x : Dom) : (s.setDom d x).ld = s.ld := rfl
@[simp] theorem State.setDom_img (s : State) (d : Nat) (x : Dom) : (s.setDom d x).img = s.img := rfl
@[simp] theorem State.setDom_hst (s : State) (d : Nat) (x : Dom) : (s.setDom d x).hst = s.hst := rfl
@[simp] theorem State.setDom_tiles (s : State) (d : Nat) (x : Dom) : (s.setDom d x).tiles = s.tiles := rfl
@[simp] theorem State.setDom_arrs (s : State) (d : Nat) (x : Dom) : (s.setDom d x).arrs = s.arrs := rfl
@[simp] theorem State.setDom_ctxs (s : State) (d : Nat) (x : Dom) : (s.setDom d x).ctxs = s.ctxs := rfl
@[simp] theorem State.setDom_ports (s : State) (d : Nat) (x : Dom) : (s.setDom d x).ports = s.ports := rfl
@[simp] theorem State.setDom_paths (s : State) (d : Nat) (x : Dom) : (s.setDom d x).paths = s.paths := rfl
@[simp] theorem State.setDom_swc (s : State) (d : Nat) (x : Dom) : (s.setDom d x).swc = s.swc := rfl
@[simp] theorem State.setDom_shapes (s : State) (d : Nat) (x : Dom) : (s.setDom d x).shapes = s.shapes := rfl
@[simp] theorem State.setDom_newShapes (s : State) (d : Nat) (x : Dom) : (s.setDom d x).newShapes = s.newShapes := rfl
@[simp] theorem State.setDom_retired (s : State) (d : Nat) (x : Dom) : (s.setDom d x).retired = s.retired := rfl
@[simp] theorem State.setDom_vcBobs (s : State) (d : Nat) (x : Dom) : (s.setDom d x).vcBobs = s.vcBobs := rfl
@[simp] theorem State.setDom_bitmapBad (s : State) (d : Nat) (x : Dom) : (s.setDom d x).bitmapBad = s.bitmapBad := rfl
@[simp] theorem State.setDom_bobUps (s : State) (d : Nat) (x : Dom) : (s.setDom d x).bobUps = s.bobUps := rfl
@[simp] theorem State.setDom_insts (s : State) (d : Nat) (x : Dom) : (s.setDom d x).insts = s.insts := rfl
@[simp] theorem State.setDom_grps (s : State) (d : Nat) (x : Dom) : (s.setDom d x).grps = s.grps := rfl
@[simp] theorem State.setDom_crys (s : State) (d : Nat) (x : Dom) : (s.setDom d x).crys = s.crys := rfl
@[simp] theorem State.setDom_cxls (s : State) (d : Nat) (x : Dom) : (s.setDom d x).cxls = s.cxls := rfl
@[simp] theorem State.setDom_hbms (s : State) (d : Nat) (x : Dom) : (s.setDom d x).hbms = s.hbms := rfl
@[simp] theorem State.setDom_upsets (s : State) (d : Nat) (x : Dom) : (s.setDom d x).upsets = s.upsets := rfl
@[simp] theorem State.setDom_mem (s : State) (d : Nat) (x : Dom) : (s.setDom d x).mem = s.mem := rfl
@[simp] theorem State.setDom_undef (s : State) (d : Nat) (x : Dom) : (s.setDom d x).undef = s.undef := rfl
@[simp] theorem State.setDom_striped (s : State) (d : Nat) (x : Dom) : (s.setDom d x).striped = s.striped := rfl

/-! ## setBlk -/

@[simp] theorem State.setBlk_pending (s : State) (b : Nat) (x : Blk) : (s.setBlk b x).pending = s.pending := rfl
@[simp] theorem State.setBlk_out (s : State) (b : Nat) (x : Blk) : (s.setBlk b x).out = s.out := rfl
@[simp] theorem State.setBlk_free (s : State) (b : Nat) (x : Blk) : (s.setBlk b x).free = s.free := rfl
@[simp] theorem State.setBlk_cclk (s : State) (b : Nat) (x : Blk) : (s.setBlk b x).cclk = s.cclk := rfl
@[simp] theorem State.setBlk_pins (s : State) (b : Nat) (x : Blk) : (s.setBlk b x).pins = s.pins := rfl
@[simp] theorem State.setBlk_regs (s : State) (b : Nat) (x : Blk) : (s.setBlk b x).regs = s.regs := rfl
@[simp] theorem State.setBlk_cyc (s : State) (b : Nat) (x : Blk) : (s.setBlk b x).cyc = s.cyc := rfl
@[simp] theorem State.setBlk_newBits (s : State) (b : Nat) (x : Blk) : (s.setBlk b x).newBits = s.newBits := rfl
@[simp] theorem State.setBlk_blks (s : State) (b : Nat) (x : Blk) : (s.setBlk b x).blks = s.blks.set b x := rfl
@[simp] theorem State.setBlk_doms (s : State) (b : Nat) (x : Blk) : (s.setBlk b x).doms = s.doms := rfl
@[simp] theorem State.setBlk_lastRamp (s : State) (b : Nat) (x : Blk) : (s.setBlk b x).lastRamp = s.lastRamp := rfl
@[simp] theorem State.setBlk_rcd (s : State) (b : Nat) (x : Blk) : (s.setBlk b x).rcd = s.rcd := rfl
@[simp] theorem State.setBlk_newEvts (s : State) (b : Nat) (x : Blk) : (s.setBlk b x).newEvts = s.newEvts := rfl
@[simp] theorem State.setBlk_newVecs (s : State) (b : Nat) (x : Blk) : (s.setBlk b x).newVecs = s.newVecs := rfl
@[simp] theorem State.setBlk_newSteps (s : State) (b : Nat) (x : Blk) : (s.setBlk b x).newSteps = s.newSteps := rfl
@[simp] theorem State.setBlk_newDoms (s : State) (b : Nat) (x : Blk) : (s.setBlk b x).newDoms = s.newDoms := rfl
@[simp] theorem State.setBlk_faultOf (s : State) (b : Nat) (x : Blk) : (s.setBlk b x).faultOf = s.faultOf := rfl
@[simp] theorem State.setBlk_dev (s : State) (b : Nat) (x : Blk) : (s.setBlk b x).dev = s.dev := rfl
@[simp] theorem State.setBlk_ld (s : State) (b : Nat) (x : Blk) : (s.setBlk b x).ld = s.ld := rfl
@[simp] theorem State.setBlk_img (s : State) (b : Nat) (x : Blk) : (s.setBlk b x).img = s.img := rfl
@[simp] theorem State.setBlk_hst (s : State) (b : Nat) (x : Blk) : (s.setBlk b x).hst = s.hst := rfl
@[simp] theorem State.setBlk_tiles (s : State) (b : Nat) (x : Blk) : (s.setBlk b x).tiles = s.tiles := rfl
@[simp] theorem State.setBlk_arrs (s : State) (b : Nat) (x : Blk) : (s.setBlk b x).arrs = s.arrs := rfl
@[simp] theorem State.setBlk_ctxs (s : State) (b : Nat) (x : Blk) : (s.setBlk b x).ctxs = s.ctxs := rfl
@[simp] theorem State.setBlk_ports (s : State) (b : Nat) (x : Blk) : (s.setBlk b x).ports = s.ports := rfl
@[simp] theorem State.setBlk_paths (s : State) (b : Nat) (x : Blk) : (s.setBlk b x).paths = s.paths := rfl
@[simp] theorem State.setBlk_swc (s : State) (b : Nat) (x : Blk) : (s.setBlk b x).swc = s.swc := rfl
@[simp] theorem State.setBlk_shapes (s : State) (b : Nat) (x : Blk) : (s.setBlk b x).shapes = s.shapes := rfl
@[simp] theorem State.setBlk_newShapes (s : State) (b : Nat) (x : Blk) : (s.setBlk b x).newShapes = s.newShapes := rfl
@[simp] theorem State.setBlk_retired (s : State) (b : Nat) (x : Blk) : (s.setBlk b x).retired = s.retired := rfl
@[simp] theorem State.setBlk_vcBobs (s : State) (b : Nat) (x : Blk) : (s.setBlk b x).vcBobs = s.vcBobs := rfl
@[simp] theorem State.setBlk_bitmapBad (s : State) (b : Nat) (x : Blk) : (s.setBlk b x).bitmapBad = s.bitmapBad := rfl
@[simp] theorem State.setBlk_bobUps (s : State) (b : Nat) (x : Blk) : (s.setBlk b x).bobUps = s.bobUps := rfl
@[simp] theorem State.setBlk_insts (s : State) (b : Nat) (x : Blk) : (s.setBlk b x).insts = s.insts := rfl
@[simp] theorem State.setBlk_grps (s : State) (b : Nat) (x : Blk) : (s.setBlk b x).grps = s.grps := rfl
@[simp] theorem State.setBlk_crys (s : State) (b : Nat) (x : Blk) : (s.setBlk b x).crys = s.crys := rfl
@[simp] theorem State.setBlk_cxls (s : State) (b : Nat) (x : Blk) : (s.setBlk b x).cxls = s.cxls := rfl
@[simp] theorem State.setBlk_hbms (s : State) (b : Nat) (x : Blk) : (s.setBlk b x).hbms = s.hbms := rfl
@[simp] theorem State.setBlk_upsets (s : State) (b : Nat) (x : Blk) : (s.setBlk b x).upsets = s.upsets := rfl
@[simp] theorem State.setBlk_mem (s : State) (b : Nat) (x : Blk) : (s.setBlk b x).mem = s.mem := rfl
@[simp] theorem State.setBlk_undef (s : State) (b : Nat) (x : Blk) : (s.setBlk b x).undef = s.undef := rfl
@[simp] theorem State.setBlk_striped (s : State) (b : Nat) (x : Blk) : (s.setBlk b x).striped = s.striped := rfl

/-! ## setCtx -/

@[simp] theorem State.setCtx_pending (s : State) (c : Nat) (x : Ctx) : (s.setCtx c x).pending = s.pending := rfl
@[simp] theorem State.setCtx_out (s : State) (c : Nat) (x : Ctx) : (s.setCtx c x).out = s.out := rfl
@[simp] theorem State.setCtx_free (s : State) (c : Nat) (x : Ctx) : (s.setCtx c x).free = s.free := rfl
@[simp] theorem State.setCtx_cclk (s : State) (c : Nat) (x : Ctx) : (s.setCtx c x).cclk = s.cclk := rfl
@[simp] theorem State.setCtx_pins (s : State) (c : Nat) (x : Ctx) : (s.setCtx c x).pins = s.pins := rfl
@[simp] theorem State.setCtx_regs (s : State) (c : Nat) (x : Ctx) : (s.setCtx c x).regs = s.regs := rfl
@[simp] theorem State.setCtx_cyc (s : State) (c : Nat) (x : Ctx) : (s.setCtx c x).cyc = s.cyc := rfl
@[simp] theorem State.setCtx_newBits (s : State) (c : Nat) (x : Ctx) : (s.setCtx c x).newBits = s.newBits := rfl
@[simp] theorem State.setCtx_blks (s : State) (c : Nat) (x : Ctx) : (s.setCtx c x).blks = s.blks := rfl
@[simp] theorem State.setCtx_doms (s : State) (c : Nat) (x : Ctx) : (s.setCtx c x).doms = s.doms := rfl
@[simp] theorem State.setCtx_lastRamp (s : State) (c : Nat) (x : Ctx) : (s.setCtx c x).lastRamp = s.lastRamp := rfl
@[simp] theorem State.setCtx_rcd (s : State) (c : Nat) (x : Ctx) : (s.setCtx c x).rcd = s.rcd := rfl
@[simp] theorem State.setCtx_newEvts (s : State) (c : Nat) (x : Ctx) : (s.setCtx c x).newEvts = s.newEvts := rfl
@[simp] theorem State.setCtx_newVecs (s : State) (c : Nat) (x : Ctx) : (s.setCtx c x).newVecs = s.newVecs := rfl
@[simp] theorem State.setCtx_newSteps (s : State) (c : Nat) (x : Ctx) : (s.setCtx c x).newSteps = s.newSteps := rfl
@[simp] theorem State.setCtx_newDoms (s : State) (c : Nat) (x : Ctx) : (s.setCtx c x).newDoms = s.newDoms := rfl
@[simp] theorem State.setCtx_faultOf (s : State) (c : Nat) (x : Ctx) : (s.setCtx c x).faultOf = s.faultOf := rfl
@[simp] theorem State.setCtx_dev (s : State) (c : Nat) (x : Ctx) : (s.setCtx c x).dev = s.dev := rfl
@[simp] theorem State.setCtx_ld (s : State) (c : Nat) (x : Ctx) : (s.setCtx c x).ld = s.ld := rfl
@[simp] theorem State.setCtx_img (s : State) (c : Nat) (x : Ctx) : (s.setCtx c x).img = s.img := rfl
@[simp] theorem State.setCtx_hst (s : State) (c : Nat) (x : Ctx) : (s.setCtx c x).hst = s.hst := rfl
@[simp] theorem State.setCtx_tiles (s : State) (c : Nat) (x : Ctx) : (s.setCtx c x).tiles = s.tiles := rfl
@[simp] theorem State.setCtx_arrs (s : State) (c : Nat) (x : Ctx) : (s.setCtx c x).arrs = s.arrs := rfl
@[simp] theorem State.setCtx_ctxs (s : State) (c : Nat) (x : Ctx) : (s.setCtx c x).ctxs = s.ctxs.set c x := rfl
@[simp] theorem State.setCtx_ports (s : State) (c : Nat) (x : Ctx) : (s.setCtx c x).ports = s.ports := rfl
@[simp] theorem State.setCtx_paths (s : State) (c : Nat) (x : Ctx) : (s.setCtx c x).paths = s.paths := rfl
@[simp] theorem State.setCtx_swc (s : State) (c : Nat) (x : Ctx) : (s.setCtx c x).swc = s.swc := rfl
@[simp] theorem State.setCtx_shapes (s : State) (c : Nat) (x : Ctx) : (s.setCtx c x).shapes = s.shapes := rfl
@[simp] theorem State.setCtx_newShapes (s : State) (c : Nat) (x : Ctx) : (s.setCtx c x).newShapes = s.newShapes := rfl
@[simp] theorem State.setCtx_retired (s : State) (c : Nat) (x : Ctx) : (s.setCtx c x).retired = s.retired := rfl
@[simp] theorem State.setCtx_vcBobs (s : State) (c : Nat) (x : Ctx) : (s.setCtx c x).vcBobs = s.vcBobs := rfl
@[simp] theorem State.setCtx_bitmapBad (s : State) (c : Nat) (x : Ctx) : (s.setCtx c x).bitmapBad = s.bitmapBad := rfl
@[simp] theorem State.setCtx_bobUps (s : State) (c : Nat) (x : Ctx) : (s.setCtx c x).bobUps = s.bobUps := rfl
@[simp] theorem State.setCtx_insts (s : State) (c : Nat) (x : Ctx) : (s.setCtx c x).insts = s.insts := rfl
@[simp] theorem State.setCtx_grps (s : State) (c : Nat) (x : Ctx) : (s.setCtx c x).grps = s.grps := rfl
@[simp] theorem State.setCtx_crys (s : State) (c : Nat) (x : Ctx) : (s.setCtx c x).crys = s.crys := rfl
@[simp] theorem State.setCtx_cxls (s : State) (c : Nat) (x : Ctx) : (s.setCtx c x).cxls = s.cxls := rfl
@[simp] theorem State.setCtx_hbms (s : State) (c : Nat) (x : Ctx) : (s.setCtx c x).hbms = s.hbms := rfl
@[simp] theorem State.setCtx_upsets (s : State) (c : Nat) (x : Ctx) : (s.setCtx c x).upsets = s.upsets := rfl
@[simp] theorem State.setCtx_mem (s : State) (c : Nat) (x : Ctx) : (s.setCtx c x).mem = s.mem := rfl
@[simp] theorem State.setCtx_undef (s : State) (c : Nat) (x : Ctx) : (s.setCtx c x).undef = s.undef := rfl
@[simp] theorem State.setCtx_striped (s : State) (c : Nat) (x : Ctx) : (s.setCtx c x).striped = s.striped := rfl

/-! ## faultNames -/

@[simp] theorem State.faultNames_pending (s : State) (b d n : Nat) : (s.faultNames b d n).pending = s.pending := rfl
@[simp] theorem State.faultNames_out (s : State) (b d n : Nat) : (s.faultNames b d n).out = s.out := rfl
@[simp] theorem State.faultNames_free (s : State) (b d n : Nat) : (s.faultNames b d n).free = s.free := rfl
@[simp] theorem State.faultNames_cclk (s : State) (b d n : Nat) : (s.faultNames b d n).cclk = s.cclk := rfl
@[simp] theorem State.faultNames_pins (s : State) (b d n : Nat) : (s.faultNames b d n).pins = s.pins := rfl
@[simp] theorem State.faultNames_regs (s : State) (b d n : Nat) : (s.faultNames b d n).regs = s.regs := rfl
@[simp] theorem State.faultNames_cyc (s : State) (b d n : Nat) : (s.faultNames b d n).cyc = s.cyc := rfl
@[simp] theorem State.faultNames_newBits (s : State) (b d n : Nat) : (s.faultNames b d n).newBits = s.newBits := rfl
@[simp] theorem State.faultNames_blks (s : State) (b d n : Nat) : (s.faultNames b d n).blks = s.blks := rfl
@[simp] theorem State.faultNames_doms (s : State) (b d n : Nat) : (s.faultNames b d n).doms = s.doms := rfl
@[simp] theorem State.faultNames_lastRamp (s : State) (b d n : Nat) : (s.faultNames b d n).lastRamp = s.lastRamp := rfl
@[simp] theorem State.faultNames_rcd (s : State) (b d n : Nat) : (s.faultNames b d n).rcd = s.rcd := rfl
@[simp] theorem State.faultNames_newEvts (s : State) (b d n : Nat) : (s.faultNames b d n).newEvts = s.newEvts := rfl
@[simp] theorem State.faultNames_newVecs (s : State) (b d n : Nat) : (s.faultNames b d n).newVecs = s.newVecs := rfl
@[simp] theorem State.faultNames_newSteps (s : State) (b d n : Nat) : (s.faultNames b d n).newSteps = s.newSteps := rfl
@[simp] theorem State.faultNames_newDoms (s : State) (b d n : Nat) : (s.faultNames b d n).newDoms = s.newDoms := rfl
@[simp] theorem State.faultNames_faultOf (s : State) (b d n : Nat) : (s.faultNames b d n).faultOf = s.faultOf.set (64 * b + d) n := rfl
@[simp] theorem State.faultNames_dev (s : State) (b d n : Nat) : (s.faultNames b d n).dev = s.dev := rfl
@[simp] theorem State.faultNames_ld (s : State) (b d n : Nat) : (s.faultNames b d n).ld = s.ld := rfl
@[simp] theorem State.faultNames_img (s : State) (b d n : Nat) : (s.faultNames b d n).img = s.img := rfl
@[simp] theorem State.faultNames_hst (s : State) (b d n : Nat) : (s.faultNames b d n).hst = s.hst := rfl
@[simp] theorem State.faultNames_tiles (s : State) (b d n : Nat) : (s.faultNames b d n).tiles = s.tiles := rfl
@[simp] theorem State.faultNames_arrs (s : State) (b d n : Nat) : (s.faultNames b d n).arrs = s.arrs := rfl
@[simp] theorem State.faultNames_ctxs (s : State) (b d n : Nat) : (s.faultNames b d n).ctxs = s.ctxs := rfl
@[simp] theorem State.faultNames_ports (s : State) (b d n : Nat) : (s.faultNames b d n).ports = s.ports := rfl
@[simp] theorem State.faultNames_paths (s : State) (b d n : Nat) : (s.faultNames b d n).paths = s.paths := rfl
@[simp] theorem State.faultNames_swc (s : State) (b d n : Nat) : (s.faultNames b d n).swc = s.swc := rfl
@[simp] theorem State.faultNames_shapes (s : State) (b d n : Nat) : (s.faultNames b d n).shapes = s.shapes := rfl
@[simp] theorem State.faultNames_newShapes (s : State) (b d n : Nat) : (s.faultNames b d n).newShapes = s.newShapes := rfl
@[simp] theorem State.faultNames_retired (s : State) (b d n : Nat) : (s.faultNames b d n).retired = s.retired := rfl
@[simp] theorem State.faultNames_vcBobs (s : State) (b d n : Nat) : (s.faultNames b d n).vcBobs = s.vcBobs := rfl
@[simp] theorem State.faultNames_bitmapBad (s : State) (b d n : Nat) : (s.faultNames b d n).bitmapBad = s.bitmapBad := rfl
@[simp] theorem State.faultNames_bobUps (s : State) (b d n : Nat) : (s.faultNames b d n).bobUps = s.bobUps := rfl
@[simp] theorem State.faultNames_insts (s : State) (b d n : Nat) : (s.faultNames b d n).insts = s.insts := rfl
@[simp] theorem State.faultNames_grps (s : State) (b d n : Nat) : (s.faultNames b d n).grps = s.grps := rfl
@[simp] theorem State.faultNames_crys (s : State) (b d n : Nat) : (s.faultNames b d n).crys = s.crys := rfl
@[simp] theorem State.faultNames_cxls (s : State) (b d n : Nat) : (s.faultNames b d n).cxls = s.cxls := rfl
@[simp] theorem State.faultNames_hbms (s : State) (b d n : Nat) : (s.faultNames b d n).hbms = s.hbms := rfl
@[simp] theorem State.faultNames_upsets (s : State) (b d n : Nat) : (s.faultNames b d n).upsets = s.upsets := rfl
@[simp] theorem State.faultNames_mem (s : State) (b d n : Nat) : (s.faultNames b d n).mem = s.mem := rfl
@[simp] theorem State.faultNames_undef (s : State) (b d n : Nat) : (s.faultNames b d n).undef = s.undef := rfl
@[simp] theorem State.faultNames_striped (s : State) (b d n : Nat) : (s.faultNames b d n).striped = s.striped := rfl

/-! ## wantStep -/

@[simp] theorem State.wantStep_pending (s : State) (b n : Nat) : (s.wantStep b n).pending = s.pending := rfl
@[simp] theorem State.wantStep_out (s : State) (b n : Nat) : (s.wantStep b n).out = s.out := rfl
@[simp] theorem State.wantStep_free (s : State) (b n : Nat) : (s.wantStep b n).free = s.free := rfl
@[simp] theorem State.wantStep_cclk (s : State) (b n : Nat) : (s.wantStep b n).cclk = s.cclk := rfl
@[simp] theorem State.wantStep_pins (s : State) (b n : Nat) : (s.wantStep b n).pins = s.pins := rfl
@[simp] theorem State.wantStep_regs (s : State) (b n : Nat) : (s.wantStep b n).regs = s.regs := rfl
@[simp] theorem State.wantStep_cyc (s : State) (b n : Nat) : (s.wantStep b n).cyc = s.cyc := rfl
@[simp] theorem State.wantStep_newBits (s : State) (b n : Nat) : (s.wantStep b n).newBits = s.newBits := rfl
@[simp] theorem State.wantStep_blks (s : State) (b n : Nat) : (s.wantStep b n).blks = s.blks := rfl
@[simp] theorem State.wantStep_doms (s : State) (b n : Nat) : (s.wantStep b n).doms = s.doms := rfl
@[simp] theorem State.wantStep_lastRamp (s : State) (b n : Nat) : (s.wantStep b n).lastRamp = s.lastRamp := rfl
@[simp] theorem State.wantStep_rcd (s : State) (b n : Nat) : (s.wantStep b n).rcd = s.rcd := rfl
@[simp] theorem State.wantStep_newEvts (s : State) (b n : Nat) : (s.wantStep b n).newEvts = s.newEvts := rfl
@[simp] theorem State.wantStep_newVecs (s : State) (b n : Nat) : (s.wantStep b n).newVecs = s.newVecs := rfl
@[simp] theorem State.wantStep_newSteps (s : State) (b n : Nat) : (s.wantStep b n).newSteps = s.newSteps ++ [(b, n)] := rfl
@[simp] theorem State.wantStep_newDoms (s : State) (b n : Nat) : (s.wantStep b n).newDoms = s.newDoms := rfl
@[simp] theorem State.wantStep_faultOf (s : State) (b n : Nat) : (s.wantStep b n).faultOf = s.faultOf := rfl
@[simp] theorem State.wantStep_dev (s : State) (b n : Nat) : (s.wantStep b n).dev = s.dev := rfl
@[simp] theorem State.wantStep_ld (s : State) (b n : Nat) : (s.wantStep b n).ld = s.ld := rfl
@[simp] theorem State.wantStep_img (s : State) (b n : Nat) : (s.wantStep b n).img = s.img := rfl
@[simp] theorem State.wantStep_hst (s : State) (b n : Nat) : (s.wantStep b n).hst = s.hst := rfl
@[simp] theorem State.wantStep_tiles (s : State) (b n : Nat) : (s.wantStep b n).tiles = s.tiles := rfl
@[simp] theorem State.wantStep_arrs (s : State) (b n : Nat) : (s.wantStep b n).arrs = s.arrs := rfl
@[simp] theorem State.wantStep_ctxs (s : State) (b n : Nat) : (s.wantStep b n).ctxs = s.ctxs := rfl
@[simp] theorem State.wantStep_ports (s : State) (b n : Nat) : (s.wantStep b n).ports = s.ports := rfl
@[simp] theorem State.wantStep_paths (s : State) (b n : Nat) : (s.wantStep b n).paths = s.paths := rfl
@[simp] theorem State.wantStep_swc (s : State) (b n : Nat) : (s.wantStep b n).swc = s.swc := rfl
@[simp] theorem State.wantStep_shapes (s : State) (b n : Nat) : (s.wantStep b n).shapes = s.shapes := rfl
@[simp] theorem State.wantStep_newShapes (s : State) (b n : Nat) : (s.wantStep b n).newShapes = s.newShapes := rfl
@[simp] theorem State.wantStep_retired (s : State) (b n : Nat) : (s.wantStep b n).retired = s.retired := rfl
@[simp] theorem State.wantStep_vcBobs (s : State) (b n : Nat) : (s.wantStep b n).vcBobs = s.vcBobs := rfl
@[simp] theorem State.wantStep_bitmapBad (s : State) (b n : Nat) : (s.wantStep b n).bitmapBad = s.bitmapBad := rfl
@[simp] theorem State.wantStep_bobUps (s : State) (b n : Nat) : (s.wantStep b n).bobUps = s.bobUps := rfl
@[simp] theorem State.wantStep_insts (s : State) (b n : Nat) : (s.wantStep b n).insts = s.insts := rfl
@[simp] theorem State.wantStep_grps (s : State) (b n : Nat) : (s.wantStep b n).grps = s.grps := rfl
@[simp] theorem State.wantStep_crys (s : State) (b n : Nat) : (s.wantStep b n).crys = s.crys := rfl
@[simp] theorem State.wantStep_cxls (s : State) (b n : Nat) : (s.wantStep b n).cxls = s.cxls := rfl
@[simp] theorem State.wantStep_hbms (s : State) (b n : Nat) : (s.wantStep b n).hbms = s.hbms := rfl
@[simp] theorem State.wantStep_upsets (s : State) (b n : Nat) : (s.wantStep b n).upsets = s.upsets := rfl
@[simp] theorem State.wantStep_mem (s : State) (b n : Nat) : (s.wantStep b n).mem = s.mem := rfl
@[simp] theorem State.wantStep_undef (s : State) (b n : Nat) : (s.wantStep b n).undef = s.undef := rfl
@[simp] theorem State.wantStep_striped (s : State) (b n : Nat) : (s.wantStep b n).striped = s.striped := rfl

/-! ## setTile -/

@[simp] theorem State.setTile_pending (s : State) (t : Nat) (x : Tile) : (s.setTile t x).pending = s.pending := rfl
@[simp] theorem State.setTile_out (s : State) (t : Nat) (x : Tile) : (s.setTile t x).out = s.out := rfl
@[simp] theorem State.setTile_free (s : State) (t : Nat) (x : Tile) : (s.setTile t x).free = s.free := rfl
@[simp] theorem State.setTile_cclk (s : State) (t : Nat) (x : Tile) : (s.setTile t x).cclk = s.cclk := rfl
@[simp] theorem State.setTile_pins (s : State) (t : Nat) (x : Tile) : (s.setTile t x).pins = s.pins := rfl
@[simp] theorem State.setTile_regs (s : State) (t : Nat) (x : Tile) : (s.setTile t x).regs = s.regs := rfl
@[simp] theorem State.setTile_cyc (s : State) (t : Nat) (x : Tile) : (s.setTile t x).cyc = s.cyc := rfl
@[simp] theorem State.setTile_newBits (s : State) (t : Nat) (x : Tile) : (s.setTile t x).newBits = s.newBits := rfl
@[simp] theorem State.setTile_blks (s : State) (t : Nat) (x : Tile) : (s.setTile t x).blks = s.blks := rfl
@[simp] theorem State.setTile_doms (s : State) (t : Nat) (x : Tile) : (s.setTile t x).doms = s.doms := rfl
@[simp] theorem State.setTile_lastRamp (s : State) (t : Nat) (x : Tile) : (s.setTile t x).lastRamp = s.lastRamp := rfl
@[simp] theorem State.setTile_rcd (s : State) (t : Nat) (x : Tile) : (s.setTile t x).rcd = s.rcd := rfl
@[simp] theorem State.setTile_newEvts (s : State) (t : Nat) (x : Tile) : (s.setTile t x).newEvts = s.newEvts := rfl
@[simp] theorem State.setTile_newVecs (s : State) (t : Nat) (x : Tile) : (s.setTile t x).newVecs = s.newVecs := rfl
@[simp] theorem State.setTile_newSteps (s : State) (t : Nat) (x : Tile) : (s.setTile t x).newSteps = s.newSteps := rfl
@[simp] theorem State.setTile_newDoms (s : State) (t : Nat) (x : Tile) : (s.setTile t x).newDoms = s.newDoms := rfl
@[simp] theorem State.setTile_faultOf (s : State) (t : Nat) (x : Tile) : (s.setTile t x).faultOf = s.faultOf := rfl
@[simp] theorem State.setTile_dev (s : State) (t : Nat) (x : Tile) : (s.setTile t x).dev = s.dev := rfl
@[simp] theorem State.setTile_ld (s : State) (t : Nat) (x : Tile) : (s.setTile t x).ld = s.ld := rfl
@[simp] theorem State.setTile_img (s : State) (t : Nat) (x : Tile) : (s.setTile t x).img = s.img := rfl
@[simp] theorem State.setTile_hst (s : State) (t : Nat) (x : Tile) : (s.setTile t x).hst = s.hst := rfl
@[simp] theorem State.setTile_tiles (s : State) (t : Nat) (x : Tile) : (s.setTile t x).tiles = s.tiles.set t x := rfl
@[simp] theorem State.setTile_arrs (s : State) (t : Nat) (x : Tile) : (s.setTile t x).arrs = s.arrs := rfl
@[simp] theorem State.setTile_ctxs (s : State) (t : Nat) (x : Tile) : (s.setTile t x).ctxs = s.ctxs := rfl
@[simp] theorem State.setTile_ports (s : State) (t : Nat) (x : Tile) : (s.setTile t x).ports = s.ports := rfl
@[simp] theorem State.setTile_paths (s : State) (t : Nat) (x : Tile) : (s.setTile t x).paths = s.paths := rfl
@[simp] theorem State.setTile_swc (s : State) (t : Nat) (x : Tile) : (s.setTile t x).swc = s.swc := rfl
@[simp] theorem State.setTile_shapes (s : State) (t : Nat) (x : Tile) : (s.setTile t x).shapes = s.shapes := rfl
@[simp] theorem State.setTile_newShapes (s : State) (t : Nat) (x : Tile) : (s.setTile t x).newShapes = s.newShapes := rfl
@[simp] theorem State.setTile_retired (s : State) (t : Nat) (x : Tile) : (s.setTile t x).retired = s.retired := rfl
@[simp] theorem State.setTile_vcBobs (s : State) (t : Nat) (x : Tile) : (s.setTile t x).vcBobs = s.vcBobs := rfl
@[simp] theorem State.setTile_bitmapBad (s : State) (t : Nat) (x : Tile) : (s.setTile t x).bitmapBad = s.bitmapBad := rfl
@[simp] theorem State.setTile_bobUps (s : State) (t : Nat) (x : Tile) : (s.setTile t x).bobUps = s.bobUps := rfl
@[simp] theorem State.setTile_insts (s : State) (t : Nat) (x : Tile) : (s.setTile t x).insts = s.insts := rfl
@[simp] theorem State.setTile_grps (s : State) (t : Nat) (x : Tile) : (s.setTile t x).grps = s.grps := rfl
@[simp] theorem State.setTile_crys (s : State) (t : Nat) (x : Tile) : (s.setTile t x).crys = s.crys := rfl
@[simp] theorem State.setTile_cxls (s : State) (t : Nat) (x : Tile) : (s.setTile t x).cxls = s.cxls := rfl
@[simp] theorem State.setTile_hbms (s : State) (t : Nat) (x : Tile) : (s.setTile t x).hbms = s.hbms := rfl
@[simp] theorem State.setTile_upsets (s : State) (t : Nat) (x : Tile) : (s.setTile t x).upsets = s.upsets := rfl
@[simp] theorem State.setTile_mem (s : State) (t : Nat) (x : Tile) : (s.setTile t x).mem = s.mem := rfl
@[simp] theorem State.setTile_undef (s : State) (t : Nat) (x : Tile) : (s.setTile t x).undef = s.undef := rfl
@[simp] theorem State.setTile_striped (s : State) (t : Nat) (x : Tile) : (s.setTile t x).striped = s.striped := rfl

/-! ## modTile -/

@[simp] theorem State.modTile_pending (s : State) (t : Nat) (f : Tile → Tile) : (s.modTile t f).pending = s.pending := rfl
@[simp] theorem State.modTile_out (s : State) (t : Nat) (f : Tile → Tile) : (s.modTile t f).out = s.out := rfl
@[simp] theorem State.modTile_free (s : State) (t : Nat) (f : Tile → Tile) : (s.modTile t f).free = s.free := rfl
@[simp] theorem State.modTile_cclk (s : State) (t : Nat) (f : Tile → Tile) : (s.modTile t f).cclk = s.cclk := rfl
@[simp] theorem State.modTile_pins (s : State) (t : Nat) (f : Tile → Tile) : (s.modTile t f).pins = s.pins := rfl
@[simp] theorem State.modTile_regs (s : State) (t : Nat) (f : Tile → Tile) : (s.modTile t f).regs = s.regs := rfl
@[simp] theorem State.modTile_cyc (s : State) (t : Nat) (f : Tile → Tile) : (s.modTile t f).cyc = s.cyc := rfl
@[simp] theorem State.modTile_newBits (s : State) (t : Nat) (f : Tile → Tile) : (s.modTile t f).newBits = s.newBits := rfl
@[simp] theorem State.modTile_blks (s : State) (t : Nat) (f : Tile → Tile) : (s.modTile t f).blks = s.blks := rfl
@[simp] theorem State.modTile_doms (s : State) (t : Nat) (f : Tile → Tile) : (s.modTile t f).doms = s.doms := rfl
@[simp] theorem State.modTile_lastRamp (s : State) (t : Nat) (f : Tile → Tile) : (s.modTile t f).lastRamp = s.lastRamp := rfl
@[simp] theorem State.modTile_rcd (s : State) (t : Nat) (f : Tile → Tile) : (s.modTile t f).rcd = s.rcd := rfl
@[simp] theorem State.modTile_newEvts (s : State) (t : Nat) (f : Tile → Tile) : (s.modTile t f).newEvts = s.newEvts := rfl
@[simp] theorem State.modTile_newVecs (s : State) (t : Nat) (f : Tile → Tile) : (s.modTile t f).newVecs = s.newVecs := rfl
@[simp] theorem State.modTile_newSteps (s : State) (t : Nat) (f : Tile → Tile) : (s.modTile t f).newSteps = s.newSteps := rfl
@[simp] theorem State.modTile_newDoms (s : State) (t : Nat) (f : Tile → Tile) : (s.modTile t f).newDoms = s.newDoms := rfl
@[simp] theorem State.modTile_faultOf (s : State) (t : Nat) (f : Tile → Tile) : (s.modTile t f).faultOf = s.faultOf := rfl
@[simp] theorem State.modTile_dev (s : State) (t : Nat) (f : Tile → Tile) : (s.modTile t f).dev = s.dev := rfl
@[simp] theorem State.modTile_ld (s : State) (t : Nat) (f : Tile → Tile) : (s.modTile t f).ld = s.ld := rfl
@[simp] theorem State.modTile_img (s : State) (t : Nat) (f : Tile → Tile) : (s.modTile t f).img = s.img := rfl
@[simp] theorem State.modTile_hst (s : State) (t : Nat) (f : Tile → Tile) : (s.modTile t f).hst = s.hst := rfl
@[simp] theorem State.modTile_tiles (s : State) (t : Nat) (f : Tile → Tile) : (s.modTile t f).tiles = s.tiles.set t (f (s.tile t)) := rfl
@[simp] theorem State.modTile_arrs (s : State) (t : Nat) (f : Tile → Tile) : (s.modTile t f).arrs = s.arrs := rfl
@[simp] theorem State.modTile_ctxs (s : State) (t : Nat) (f : Tile → Tile) : (s.modTile t f).ctxs = s.ctxs := rfl
@[simp] theorem State.modTile_ports (s : State) (t : Nat) (f : Tile → Tile) : (s.modTile t f).ports = s.ports := rfl
@[simp] theorem State.modTile_paths (s : State) (t : Nat) (f : Tile → Tile) : (s.modTile t f).paths = s.paths := rfl
@[simp] theorem State.modTile_swc (s : State) (t : Nat) (f : Tile → Tile) : (s.modTile t f).swc = s.swc := rfl
@[simp] theorem State.modTile_shapes (s : State) (t : Nat) (f : Tile → Tile) : (s.modTile t f).shapes = s.shapes := rfl
@[simp] theorem State.modTile_newShapes (s : State) (t : Nat) (f : Tile → Tile) : (s.modTile t f).newShapes = s.newShapes := rfl
@[simp] theorem State.modTile_retired (s : State) (t : Nat) (f : Tile → Tile) : (s.modTile t f).retired = s.retired := rfl
@[simp] theorem State.modTile_vcBobs (s : State) (t : Nat) (f : Tile → Tile) : (s.modTile t f).vcBobs = s.vcBobs := rfl
@[simp] theorem State.modTile_bitmapBad (s : State) (t : Nat) (f : Tile → Tile) : (s.modTile t f).bitmapBad = s.bitmapBad := rfl
@[simp] theorem State.modTile_bobUps (s : State) (t : Nat) (f : Tile → Tile) : (s.modTile t f).bobUps = s.bobUps := rfl
@[simp] theorem State.modTile_insts (s : State) (t : Nat) (f : Tile → Tile) : (s.modTile t f).insts = s.insts := rfl
@[simp] theorem State.modTile_grps (s : State) (t : Nat) (f : Tile → Tile) : (s.modTile t f).grps = s.grps := rfl
@[simp] theorem State.modTile_crys (s : State) (t : Nat) (f : Tile → Tile) : (s.modTile t f).crys = s.crys := rfl
@[simp] theorem State.modTile_cxls (s : State) (t : Nat) (f : Tile → Tile) : (s.modTile t f).cxls = s.cxls := rfl
@[simp] theorem State.modTile_hbms (s : State) (t : Nat) (f : Tile → Tile) : (s.modTile t f).hbms = s.hbms := rfl
@[simp] theorem State.modTile_upsets (s : State) (t : Nat) (f : Tile → Tile) : (s.modTile t f).upsets = s.upsets := rfl
@[simp] theorem State.modTile_mem (s : State) (t : Nat) (f : Tile → Tile) : (s.modTile t f).mem = s.mem := rfl
@[simp] theorem State.modTile_undef (s : State) (t : Nat) (f : Tile → Tile) : (s.modTile t f).undef = s.undef := rfl
@[simp] theorem State.modTile_striped (s : State) (t : Nat) (f : Tile → Tile) : (s.modTile t f).striped = s.striped := rfl

/-! ## setArr -/

@[simp] theorem State.setArr_pending (s : State) (i : Nat) (x : Arr) : (s.setArr i x).pending = s.pending := rfl
@[simp] theorem State.setArr_out (s : State) (i : Nat) (x : Arr) : (s.setArr i x).out = s.out := rfl
@[simp] theorem State.setArr_free (s : State) (i : Nat) (x : Arr) : (s.setArr i x).free = s.free := rfl
@[simp] theorem State.setArr_cclk (s : State) (i : Nat) (x : Arr) : (s.setArr i x).cclk = s.cclk := rfl
@[simp] theorem State.setArr_pins (s : State) (i : Nat) (x : Arr) : (s.setArr i x).pins = s.pins := rfl
@[simp] theorem State.setArr_regs (s : State) (i : Nat) (x : Arr) : (s.setArr i x).regs = s.regs := rfl
@[simp] theorem State.setArr_cyc (s : State) (i : Nat) (x : Arr) : (s.setArr i x).cyc = s.cyc := rfl
@[simp] theorem State.setArr_newBits (s : State) (i : Nat) (x : Arr) : (s.setArr i x).newBits = s.newBits := rfl
@[simp] theorem State.setArr_blks (s : State) (i : Nat) (x : Arr) : (s.setArr i x).blks = s.blks := rfl
@[simp] theorem State.setArr_doms (s : State) (i : Nat) (x : Arr) : (s.setArr i x).doms = s.doms := rfl
@[simp] theorem State.setArr_lastRamp (s : State) (i : Nat) (x : Arr) : (s.setArr i x).lastRamp = s.lastRamp := rfl
@[simp] theorem State.setArr_rcd (s : State) (i : Nat) (x : Arr) : (s.setArr i x).rcd = s.rcd := rfl
@[simp] theorem State.setArr_newEvts (s : State) (i : Nat) (x : Arr) : (s.setArr i x).newEvts = s.newEvts := rfl
@[simp] theorem State.setArr_newVecs (s : State) (i : Nat) (x : Arr) : (s.setArr i x).newVecs = s.newVecs := rfl
@[simp] theorem State.setArr_newSteps (s : State) (i : Nat) (x : Arr) : (s.setArr i x).newSteps = s.newSteps := rfl
@[simp] theorem State.setArr_newDoms (s : State) (i : Nat) (x : Arr) : (s.setArr i x).newDoms = s.newDoms := rfl
@[simp] theorem State.setArr_faultOf (s : State) (i : Nat) (x : Arr) : (s.setArr i x).faultOf = s.faultOf := rfl
@[simp] theorem State.setArr_dev (s : State) (i : Nat) (x : Arr) : (s.setArr i x).dev = s.dev := rfl
@[simp] theorem State.setArr_ld (s : State) (i : Nat) (x : Arr) : (s.setArr i x).ld = s.ld := rfl
@[simp] theorem State.setArr_img (s : State) (i : Nat) (x : Arr) : (s.setArr i x).img = s.img := rfl
@[simp] theorem State.setArr_hst (s : State) (i : Nat) (x : Arr) : (s.setArr i x).hst = s.hst := rfl
@[simp] theorem State.setArr_tiles (s : State) (i : Nat) (x : Arr) : (s.setArr i x).tiles = s.tiles := rfl
@[simp] theorem State.setArr_arrs (s : State) (i : Nat) (x : Arr) : (s.setArr i x).arrs = s.arrs.set i x := rfl
@[simp] theorem State.setArr_ctxs (s : State) (i : Nat) (x : Arr) : (s.setArr i x).ctxs = s.ctxs := rfl
@[simp] theorem State.setArr_ports (s : State) (i : Nat) (x : Arr) : (s.setArr i x).ports = s.ports := rfl
@[simp] theorem State.setArr_paths (s : State) (i : Nat) (x : Arr) : (s.setArr i x).paths = s.paths := rfl
@[simp] theorem State.setArr_swc (s : State) (i : Nat) (x : Arr) : (s.setArr i x).swc = s.swc := rfl
@[simp] theorem State.setArr_shapes (s : State) (i : Nat) (x : Arr) : (s.setArr i x).shapes = s.shapes := rfl
@[simp] theorem State.setArr_newShapes (s : State) (i : Nat) (x : Arr) : (s.setArr i x).newShapes = s.newShapes := rfl
@[simp] theorem State.setArr_retired (s : State) (i : Nat) (x : Arr) : (s.setArr i x).retired = s.retired := rfl
@[simp] theorem State.setArr_vcBobs (s : State) (i : Nat) (x : Arr) : (s.setArr i x).vcBobs = s.vcBobs := rfl
@[simp] theorem State.setArr_bitmapBad (s : State) (i : Nat) (x : Arr) : (s.setArr i x).bitmapBad = s.bitmapBad := rfl
@[simp] theorem State.setArr_bobUps (s : State) (i : Nat) (x : Arr) : (s.setArr i x).bobUps = s.bobUps := rfl
@[simp] theorem State.setArr_insts (s : State) (i : Nat) (x : Arr) : (s.setArr i x).insts = s.insts := rfl
@[simp] theorem State.setArr_grps (s : State) (i : Nat) (x : Arr) : (s.setArr i x).grps = s.grps := rfl
@[simp] theorem State.setArr_crys (s : State) (i : Nat) (x : Arr) : (s.setArr i x).crys = s.crys := rfl
@[simp] theorem State.setArr_cxls (s : State) (i : Nat) (x : Arr) : (s.setArr i x).cxls = s.cxls := rfl
@[simp] theorem State.setArr_hbms (s : State) (i : Nat) (x : Arr) : (s.setArr i x).hbms = s.hbms := rfl
@[simp] theorem State.setArr_upsets (s : State) (i : Nat) (x : Arr) : (s.setArr i x).upsets = s.upsets := rfl
@[simp] theorem State.setArr_mem (s : State) (i : Nat) (x : Arr) : (s.setArr i x).mem = s.mem := rfl
@[simp] theorem State.setArr_undef (s : State) (i : Nat) (x : Arr) : (s.setArr i x).undef = s.undef := rfl
@[simp] theorem State.setArr_striped (s : State) (i : Nat) (x : Arr) : (s.setArr i x).striped = s.striped := rfl

/-! ## modArr -/

@[simp] theorem State.modArr_pending (s : State) (i : Nat) (f : Arr → Arr) : (s.modArr i f).pending = s.pending := rfl
@[simp] theorem State.modArr_out (s : State) (i : Nat) (f : Arr → Arr) : (s.modArr i f).out = s.out := rfl
@[simp] theorem State.modArr_free (s : State) (i : Nat) (f : Arr → Arr) : (s.modArr i f).free = s.free := rfl
@[simp] theorem State.modArr_cclk (s : State) (i : Nat) (f : Arr → Arr) : (s.modArr i f).cclk = s.cclk := rfl
@[simp] theorem State.modArr_pins (s : State) (i : Nat) (f : Arr → Arr) : (s.modArr i f).pins = s.pins := rfl
@[simp] theorem State.modArr_regs (s : State) (i : Nat) (f : Arr → Arr) : (s.modArr i f).regs = s.regs := rfl
@[simp] theorem State.modArr_cyc (s : State) (i : Nat) (f : Arr → Arr) : (s.modArr i f).cyc = s.cyc := rfl
@[simp] theorem State.modArr_newBits (s : State) (i : Nat) (f : Arr → Arr) : (s.modArr i f).newBits = s.newBits := rfl
@[simp] theorem State.modArr_blks (s : State) (i : Nat) (f : Arr → Arr) : (s.modArr i f).blks = s.blks := rfl
@[simp] theorem State.modArr_doms (s : State) (i : Nat) (f : Arr → Arr) : (s.modArr i f).doms = s.doms := rfl
@[simp] theorem State.modArr_lastRamp (s : State) (i : Nat) (f : Arr → Arr) : (s.modArr i f).lastRamp = s.lastRamp := rfl
@[simp] theorem State.modArr_rcd (s : State) (i : Nat) (f : Arr → Arr) : (s.modArr i f).rcd = s.rcd := rfl
@[simp] theorem State.modArr_newEvts (s : State) (i : Nat) (f : Arr → Arr) : (s.modArr i f).newEvts = s.newEvts := rfl
@[simp] theorem State.modArr_newVecs (s : State) (i : Nat) (f : Arr → Arr) : (s.modArr i f).newVecs = s.newVecs := rfl
@[simp] theorem State.modArr_newSteps (s : State) (i : Nat) (f : Arr → Arr) : (s.modArr i f).newSteps = s.newSteps := rfl
@[simp] theorem State.modArr_newDoms (s : State) (i : Nat) (f : Arr → Arr) : (s.modArr i f).newDoms = s.newDoms := rfl
@[simp] theorem State.modArr_faultOf (s : State) (i : Nat) (f : Arr → Arr) : (s.modArr i f).faultOf = s.faultOf := rfl
@[simp] theorem State.modArr_dev (s : State) (i : Nat) (f : Arr → Arr) : (s.modArr i f).dev = s.dev := rfl
@[simp] theorem State.modArr_ld (s : State) (i : Nat) (f : Arr → Arr) : (s.modArr i f).ld = s.ld := rfl
@[simp] theorem State.modArr_img (s : State) (i : Nat) (f : Arr → Arr) : (s.modArr i f).img = s.img := rfl
@[simp] theorem State.modArr_hst (s : State) (i : Nat) (f : Arr → Arr) : (s.modArr i f).hst = s.hst := rfl
@[simp] theorem State.modArr_tiles (s : State) (i : Nat) (f : Arr → Arr) : (s.modArr i f).tiles = s.tiles := rfl
@[simp] theorem State.modArr_arrs (s : State) (i : Nat) (f : Arr → Arr) : (s.modArr i f).arrs = s.arrs.set i (f (s.arr i)) := rfl
@[simp] theorem State.modArr_ctxs (s : State) (i : Nat) (f : Arr → Arr) : (s.modArr i f).ctxs = s.ctxs := rfl
@[simp] theorem State.modArr_ports (s : State) (i : Nat) (f : Arr → Arr) : (s.modArr i f).ports = s.ports := rfl
@[simp] theorem State.modArr_paths (s : State) (i : Nat) (f : Arr → Arr) : (s.modArr i f).paths = s.paths := rfl
@[simp] theorem State.modArr_swc (s : State) (i : Nat) (f : Arr → Arr) : (s.modArr i f).swc = s.swc := rfl
@[simp] theorem State.modArr_shapes (s : State) (i : Nat) (f : Arr → Arr) : (s.modArr i f).shapes = s.shapes := rfl
@[simp] theorem State.modArr_newShapes (s : State) (i : Nat) (f : Arr → Arr) : (s.modArr i f).newShapes = s.newShapes := rfl
@[simp] theorem State.modArr_retired (s : State) (i : Nat) (f : Arr → Arr) : (s.modArr i f).retired = s.retired := rfl
@[simp] theorem State.modArr_vcBobs (s : State) (i : Nat) (f : Arr → Arr) : (s.modArr i f).vcBobs = s.vcBobs := rfl
@[simp] theorem State.modArr_bitmapBad (s : State) (i : Nat) (f : Arr → Arr) : (s.modArr i f).bitmapBad = s.bitmapBad := rfl
@[simp] theorem State.modArr_bobUps (s : State) (i : Nat) (f : Arr → Arr) : (s.modArr i f).bobUps = s.bobUps := rfl
@[simp] theorem State.modArr_insts (s : State) (i : Nat) (f : Arr → Arr) : (s.modArr i f).insts = s.insts := rfl
@[simp] theorem State.modArr_grps (s : State) (i : Nat) (f : Arr → Arr) : (s.modArr i f).grps = s.grps := rfl
@[simp] theorem State.modArr_crys (s : State) (i : Nat) (f : Arr → Arr) : (s.modArr i f).crys = s.crys := rfl
@[simp] theorem State.modArr_cxls (s : State) (i : Nat) (f : Arr → Arr) : (s.modArr i f).cxls = s.cxls := rfl
@[simp] theorem State.modArr_hbms (s : State) (i : Nat) (f : Arr → Arr) : (s.modArr i f).hbms = s.hbms := rfl
@[simp] theorem State.modArr_upsets (s : State) (i : Nat) (f : Arr → Arr) : (s.modArr i f).upsets = s.upsets := rfl
@[simp] theorem State.modArr_mem (s : State) (i : Nat) (f : Arr → Arr) : (s.modArr i f).mem = s.mem := rfl
@[simp] theorem State.modArr_undef (s : State) (i : Nat) (f : Arr → Arr) : (s.modArr i f).undef = s.undef := rfl
@[simp] theorem State.modArr_striped (s : State) (i : Nat) (f : Arr → Arr) : (s.modArr i f).striped = s.striped := rfl

/-! ## setPort -/

@[simp] theorem State.setPort_pending (s : State) (p : Nat) (x : Port) : (s.setPort p x).pending = s.pending := rfl
@[simp] theorem State.setPort_out (s : State) (p : Nat) (x : Port) : (s.setPort p x).out = s.out := rfl
@[simp] theorem State.setPort_free (s : State) (p : Nat) (x : Port) : (s.setPort p x).free = s.free := rfl
@[simp] theorem State.setPort_cclk (s : State) (p : Nat) (x : Port) : (s.setPort p x).cclk = s.cclk := rfl
@[simp] theorem State.setPort_pins (s : State) (p : Nat) (x : Port) : (s.setPort p x).pins = s.pins := rfl
@[simp] theorem State.setPort_regs (s : State) (p : Nat) (x : Port) : (s.setPort p x).regs = s.regs := rfl
@[simp] theorem State.setPort_cyc (s : State) (p : Nat) (x : Port) : (s.setPort p x).cyc = s.cyc := rfl
@[simp] theorem State.setPort_newBits (s : State) (p : Nat) (x : Port) : (s.setPort p x).newBits = s.newBits := rfl
@[simp] theorem State.setPort_blks (s : State) (p : Nat) (x : Port) : (s.setPort p x).blks = s.blks := rfl
@[simp] theorem State.setPort_doms (s : State) (p : Nat) (x : Port) : (s.setPort p x).doms = s.doms := rfl
@[simp] theorem State.setPort_lastRamp (s : State) (p : Nat) (x : Port) : (s.setPort p x).lastRamp = s.lastRamp := rfl
@[simp] theorem State.setPort_rcd (s : State) (p : Nat) (x : Port) : (s.setPort p x).rcd = s.rcd := rfl
@[simp] theorem State.setPort_newEvts (s : State) (p : Nat) (x : Port) : (s.setPort p x).newEvts = s.newEvts := rfl
@[simp] theorem State.setPort_newVecs (s : State) (p : Nat) (x : Port) : (s.setPort p x).newVecs = s.newVecs := rfl
@[simp] theorem State.setPort_newSteps (s : State) (p : Nat) (x : Port) : (s.setPort p x).newSteps = s.newSteps := rfl
@[simp] theorem State.setPort_newDoms (s : State) (p : Nat) (x : Port) : (s.setPort p x).newDoms = s.newDoms := rfl
@[simp] theorem State.setPort_faultOf (s : State) (p : Nat) (x : Port) : (s.setPort p x).faultOf = s.faultOf := rfl
@[simp] theorem State.setPort_dev (s : State) (p : Nat) (x : Port) : (s.setPort p x).dev = s.dev := rfl
@[simp] theorem State.setPort_ld (s : State) (p : Nat) (x : Port) : (s.setPort p x).ld = s.ld := rfl
@[simp] theorem State.setPort_img (s : State) (p : Nat) (x : Port) : (s.setPort p x).img = s.img := rfl
@[simp] theorem State.setPort_hst (s : State) (p : Nat) (x : Port) : (s.setPort p x).hst = s.hst := rfl
@[simp] theorem State.setPort_tiles (s : State) (p : Nat) (x : Port) : (s.setPort p x).tiles = s.tiles := rfl
@[simp] theorem State.setPort_arrs (s : State) (p : Nat) (x : Port) : (s.setPort p x).arrs = s.arrs := rfl
@[simp] theorem State.setPort_ctxs (s : State) (p : Nat) (x : Port) : (s.setPort p x).ctxs = s.ctxs := rfl
@[simp] theorem State.setPort_ports (s : State) (p : Nat) (x : Port) : (s.setPort p x).ports = s.ports.set p x := rfl
@[simp] theorem State.setPort_paths (s : State) (p : Nat) (x : Port) : (s.setPort p x).paths = s.paths := rfl
@[simp] theorem State.setPort_swc (s : State) (p : Nat) (x : Port) : (s.setPort p x).swc = s.swc := rfl
@[simp] theorem State.setPort_shapes (s : State) (p : Nat) (x : Port) : (s.setPort p x).shapes = s.shapes := rfl
@[simp] theorem State.setPort_newShapes (s : State) (p : Nat) (x : Port) : (s.setPort p x).newShapes = s.newShapes := rfl
@[simp] theorem State.setPort_retired (s : State) (p : Nat) (x : Port) : (s.setPort p x).retired = s.retired := rfl
@[simp] theorem State.setPort_vcBobs (s : State) (p : Nat) (x : Port) : (s.setPort p x).vcBobs = s.vcBobs := rfl
@[simp] theorem State.setPort_bitmapBad (s : State) (p : Nat) (x : Port) : (s.setPort p x).bitmapBad = s.bitmapBad := rfl
@[simp] theorem State.setPort_bobUps (s : State) (p : Nat) (x : Port) : (s.setPort p x).bobUps = s.bobUps := rfl
@[simp] theorem State.setPort_insts (s : State) (p : Nat) (x : Port) : (s.setPort p x).insts = s.insts := rfl
@[simp] theorem State.setPort_grps (s : State) (p : Nat) (x : Port) : (s.setPort p x).grps = s.grps := rfl
@[simp] theorem State.setPort_crys (s : State) (p : Nat) (x : Port) : (s.setPort p x).crys = s.crys := rfl
@[simp] theorem State.setPort_cxls (s : State) (p : Nat) (x : Port) : (s.setPort p x).cxls = s.cxls := rfl
@[simp] theorem State.setPort_hbms (s : State) (p : Nat) (x : Port) : (s.setPort p x).hbms = s.hbms := rfl
@[simp] theorem State.setPort_upsets (s : State) (p : Nat) (x : Port) : (s.setPort p x).upsets = s.upsets := rfl
@[simp] theorem State.setPort_mem (s : State) (p : Nat) (x : Port) : (s.setPort p x).mem = s.mem := rfl
@[simp] theorem State.setPort_undef (s : State) (p : Nat) (x : Port) : (s.setPort p x).undef = s.undef := rfl
@[simp] theorem State.setPort_striped (s : State) (p : Nat) (x : Port) : (s.setPort p x).striped = s.striped := rfl

/-! ## modPort -/

@[simp] theorem State.modPort_pending (s : State) (p : Nat) (f : Port → Port) : (s.modPort p f).pending = s.pending := rfl
@[simp] theorem State.modPort_out (s : State) (p : Nat) (f : Port → Port) : (s.modPort p f).out = s.out := rfl
@[simp] theorem State.modPort_free (s : State) (p : Nat) (f : Port → Port) : (s.modPort p f).free = s.free := rfl
@[simp] theorem State.modPort_cclk (s : State) (p : Nat) (f : Port → Port) : (s.modPort p f).cclk = s.cclk := rfl
@[simp] theorem State.modPort_pins (s : State) (p : Nat) (f : Port → Port) : (s.modPort p f).pins = s.pins := rfl
@[simp] theorem State.modPort_regs (s : State) (p : Nat) (f : Port → Port) : (s.modPort p f).regs = s.regs := rfl
@[simp] theorem State.modPort_cyc (s : State) (p : Nat) (f : Port → Port) : (s.modPort p f).cyc = s.cyc := rfl
@[simp] theorem State.modPort_newBits (s : State) (p : Nat) (f : Port → Port) : (s.modPort p f).newBits = s.newBits := rfl
@[simp] theorem State.modPort_blks (s : State) (p : Nat) (f : Port → Port) : (s.modPort p f).blks = s.blks := rfl
@[simp] theorem State.modPort_doms (s : State) (p : Nat) (f : Port → Port) : (s.modPort p f).doms = s.doms := rfl
@[simp] theorem State.modPort_lastRamp (s : State) (p : Nat) (f : Port → Port) : (s.modPort p f).lastRamp = s.lastRamp := rfl
@[simp] theorem State.modPort_rcd (s : State) (p : Nat) (f : Port → Port) : (s.modPort p f).rcd = s.rcd := rfl
@[simp] theorem State.modPort_newEvts (s : State) (p : Nat) (f : Port → Port) : (s.modPort p f).newEvts = s.newEvts := rfl
@[simp] theorem State.modPort_newVecs (s : State) (p : Nat) (f : Port → Port) : (s.modPort p f).newVecs = s.newVecs := rfl
@[simp] theorem State.modPort_newSteps (s : State) (p : Nat) (f : Port → Port) : (s.modPort p f).newSteps = s.newSteps := rfl
@[simp] theorem State.modPort_newDoms (s : State) (p : Nat) (f : Port → Port) : (s.modPort p f).newDoms = s.newDoms := rfl
@[simp] theorem State.modPort_faultOf (s : State) (p : Nat) (f : Port → Port) : (s.modPort p f).faultOf = s.faultOf := rfl
@[simp] theorem State.modPort_dev (s : State) (p : Nat) (f : Port → Port) : (s.modPort p f).dev = s.dev := rfl
@[simp] theorem State.modPort_ld (s : State) (p : Nat) (f : Port → Port) : (s.modPort p f).ld = s.ld := rfl
@[simp] theorem State.modPort_img (s : State) (p : Nat) (f : Port → Port) : (s.modPort p f).img = s.img := rfl
@[simp] theorem State.modPort_hst (s : State) (p : Nat) (f : Port → Port) : (s.modPort p f).hst = s.hst := rfl
@[simp] theorem State.modPort_tiles (s : State) (p : Nat) (f : Port → Port) : (s.modPort p f).tiles = s.tiles := rfl
@[simp] theorem State.modPort_arrs (s : State) (p : Nat) (f : Port → Port) : (s.modPort p f).arrs = s.arrs := rfl
@[simp] theorem State.modPort_ctxs (s : State) (p : Nat) (f : Port → Port) : (s.modPort p f).ctxs = s.ctxs := rfl
@[simp] theorem State.modPort_ports (s : State) (p : Nat) (f : Port → Port) : (s.modPort p f).ports = s.ports.set p (f (s.port p)) := rfl
@[simp] theorem State.modPort_paths (s : State) (p : Nat) (f : Port → Port) : (s.modPort p f).paths = s.paths := rfl
@[simp] theorem State.modPort_swc (s : State) (p : Nat) (f : Port → Port) : (s.modPort p f).swc = s.swc := rfl
@[simp] theorem State.modPort_shapes (s : State) (p : Nat) (f : Port → Port) : (s.modPort p f).shapes = s.shapes := rfl
@[simp] theorem State.modPort_newShapes (s : State) (p : Nat) (f : Port → Port) : (s.modPort p f).newShapes = s.newShapes := rfl
@[simp] theorem State.modPort_retired (s : State) (p : Nat) (f : Port → Port) : (s.modPort p f).retired = s.retired := rfl
@[simp] theorem State.modPort_vcBobs (s : State) (p : Nat) (f : Port → Port) : (s.modPort p f).vcBobs = s.vcBobs := rfl
@[simp] theorem State.modPort_bitmapBad (s : State) (p : Nat) (f : Port → Port) : (s.modPort p f).bitmapBad = s.bitmapBad := rfl
@[simp] theorem State.modPort_bobUps (s : State) (p : Nat) (f : Port → Port) : (s.modPort p f).bobUps = s.bobUps := rfl
@[simp] theorem State.modPort_insts (s : State) (p : Nat) (f : Port → Port) : (s.modPort p f).insts = s.insts := rfl
@[simp] theorem State.modPort_grps (s : State) (p : Nat) (f : Port → Port) : (s.modPort p f).grps = s.grps := rfl
@[simp] theorem State.modPort_crys (s : State) (p : Nat) (f : Port → Port) : (s.modPort p f).crys = s.crys := rfl
@[simp] theorem State.modPort_cxls (s : State) (p : Nat) (f : Port → Port) : (s.modPort p f).cxls = s.cxls := rfl
@[simp] theorem State.modPort_hbms (s : State) (p : Nat) (f : Port → Port) : (s.modPort p f).hbms = s.hbms := rfl
@[simp] theorem State.modPort_upsets (s : State) (p : Nat) (f : Port → Port) : (s.modPort p f).upsets = s.upsets := rfl
@[simp] theorem State.modPort_mem (s : State) (p : Nat) (f : Port → Port) : (s.modPort p f).mem = s.mem := rfl
@[simp] theorem State.modPort_undef (s : State) (p : Nat) (f : Port → Port) : (s.modPort p f).undef = s.undef := rfl
@[simp] theorem State.modPort_striped (s : State) (p : Nat) (f : Port → Port) : (s.modPort p f).striped = s.striped := rfl

/-! ## modSwc -/

@[simp] theorem State.modSwc_pending (s : State) (f : Swc → Swc) : (s.modSwc f).pending = s.pending := rfl
@[simp] theorem State.modSwc_out (s : State) (f : Swc → Swc) : (s.modSwc f).out = s.out := rfl
@[simp] theorem State.modSwc_free (s : State) (f : Swc → Swc) : (s.modSwc f).free = s.free := rfl
@[simp] theorem State.modSwc_cclk (s : State) (f : Swc → Swc) : (s.modSwc f).cclk = s.cclk := rfl
@[simp] theorem State.modSwc_pins (s : State) (f : Swc → Swc) : (s.modSwc f).pins = s.pins := rfl
@[simp] theorem State.modSwc_regs (s : State) (f : Swc → Swc) : (s.modSwc f).regs = s.regs := rfl
@[simp] theorem State.modSwc_cyc (s : State) (f : Swc → Swc) : (s.modSwc f).cyc = s.cyc := rfl
@[simp] theorem State.modSwc_newBits (s : State) (f : Swc → Swc) : (s.modSwc f).newBits = s.newBits := rfl
@[simp] theorem State.modSwc_blks (s : State) (f : Swc → Swc) : (s.modSwc f).blks = s.blks := rfl
@[simp] theorem State.modSwc_doms (s : State) (f : Swc → Swc) : (s.modSwc f).doms = s.doms := rfl
@[simp] theorem State.modSwc_lastRamp (s : State) (f : Swc → Swc) : (s.modSwc f).lastRamp = s.lastRamp := rfl
@[simp] theorem State.modSwc_rcd (s : State) (f : Swc → Swc) : (s.modSwc f).rcd = s.rcd := rfl
@[simp] theorem State.modSwc_newEvts (s : State) (f : Swc → Swc) : (s.modSwc f).newEvts = s.newEvts := rfl
@[simp] theorem State.modSwc_newVecs (s : State) (f : Swc → Swc) : (s.modSwc f).newVecs = s.newVecs := rfl
@[simp] theorem State.modSwc_newSteps (s : State) (f : Swc → Swc) : (s.modSwc f).newSteps = s.newSteps := rfl
@[simp] theorem State.modSwc_newDoms (s : State) (f : Swc → Swc) : (s.modSwc f).newDoms = s.newDoms := rfl
@[simp] theorem State.modSwc_faultOf (s : State) (f : Swc → Swc) : (s.modSwc f).faultOf = s.faultOf := rfl
@[simp] theorem State.modSwc_dev (s : State) (f : Swc → Swc) : (s.modSwc f).dev = s.dev := rfl
@[simp] theorem State.modSwc_ld (s : State) (f : Swc → Swc) : (s.modSwc f).ld = s.ld := rfl
@[simp] theorem State.modSwc_img (s : State) (f : Swc → Swc) : (s.modSwc f).img = s.img := rfl
@[simp] theorem State.modSwc_hst (s : State) (f : Swc → Swc) : (s.modSwc f).hst = s.hst := rfl
@[simp] theorem State.modSwc_tiles (s : State) (f : Swc → Swc) : (s.modSwc f).tiles = s.tiles := rfl
@[simp] theorem State.modSwc_arrs (s : State) (f : Swc → Swc) : (s.modSwc f).arrs = s.arrs := rfl
@[simp] theorem State.modSwc_ctxs (s : State) (f : Swc → Swc) : (s.modSwc f).ctxs = s.ctxs := rfl
@[simp] theorem State.modSwc_ports (s : State) (f : Swc → Swc) : (s.modSwc f).ports = s.ports := rfl
@[simp] theorem State.modSwc_paths (s : State) (f : Swc → Swc) : (s.modSwc f).paths = s.paths := rfl
@[simp] theorem State.modSwc_swc (s : State) (f : Swc → Swc) : (s.modSwc f).swc = f s.swc := rfl
@[simp] theorem State.modSwc_shapes (s : State) (f : Swc → Swc) : (s.modSwc f).shapes = s.shapes := rfl
@[simp] theorem State.modSwc_newShapes (s : State) (f : Swc → Swc) : (s.modSwc f).newShapes = s.newShapes := rfl
@[simp] theorem State.modSwc_retired (s : State) (f : Swc → Swc) : (s.modSwc f).retired = s.retired := rfl
@[simp] theorem State.modSwc_vcBobs (s : State) (f : Swc → Swc) : (s.modSwc f).vcBobs = s.vcBobs := rfl
@[simp] theorem State.modSwc_bitmapBad (s : State) (f : Swc → Swc) : (s.modSwc f).bitmapBad = s.bitmapBad := rfl
@[simp] theorem State.modSwc_bobUps (s : State) (f : Swc → Swc) : (s.modSwc f).bobUps = s.bobUps := rfl
@[simp] theorem State.modSwc_insts (s : State) (f : Swc → Swc) : (s.modSwc f).insts = s.insts := rfl
@[simp] theorem State.modSwc_grps (s : State) (f : Swc → Swc) : (s.modSwc f).grps = s.grps := rfl
@[simp] theorem State.modSwc_crys (s : State) (f : Swc → Swc) : (s.modSwc f).crys = s.crys := rfl
@[simp] theorem State.modSwc_cxls (s : State) (f : Swc → Swc) : (s.modSwc f).cxls = s.cxls := rfl
@[simp] theorem State.modSwc_hbms (s : State) (f : Swc → Swc) : (s.modSwc f).hbms = s.hbms := rfl
@[simp] theorem State.modSwc_upsets (s : State) (f : Swc → Swc) : (s.modSwc f).upsets = s.upsets := rfl
@[simp] theorem State.modSwc_mem (s : State) (f : Swc → Swc) : (s.modSwc f).mem = s.mem := rfl
@[simp] theorem State.modSwc_undef (s : State) (f : Swc → Swc) : (s.modSwc f).undef = s.undef := rfl
@[simp] theorem State.modSwc_striped (s : State) (f : Swc → Swc) : (s.modSwc f).striped = s.striped := rfl

/-! ## modGrp -/

@[simp] theorem State.modGrp_pending (s : State) (g : Nat) (f : Grp → Grp) : (s.modGrp g f).pending = s.pending := rfl
@[simp] theorem State.modGrp_out (s : State) (g : Nat) (f : Grp → Grp) : (s.modGrp g f).out = s.out := rfl
@[simp] theorem State.modGrp_free (s : State) (g : Nat) (f : Grp → Grp) : (s.modGrp g f).free = s.free := rfl
@[simp] theorem State.modGrp_cclk (s : State) (g : Nat) (f : Grp → Grp) : (s.modGrp g f).cclk = s.cclk := rfl
@[simp] theorem State.modGrp_pins (s : State) (g : Nat) (f : Grp → Grp) : (s.modGrp g f).pins = s.pins := rfl
@[simp] theorem State.modGrp_regs (s : State) (g : Nat) (f : Grp → Grp) : (s.modGrp g f).regs = s.regs := rfl
@[simp] theorem State.modGrp_cyc (s : State) (g : Nat) (f : Grp → Grp) : (s.modGrp g f).cyc = s.cyc := rfl
@[simp] theorem State.modGrp_newBits (s : State) (g : Nat) (f : Grp → Grp) : (s.modGrp g f).newBits = s.newBits := rfl
@[simp] theorem State.modGrp_blks (s : State) (g : Nat) (f : Grp → Grp) : (s.modGrp g f).blks = s.blks := rfl
@[simp] theorem State.modGrp_doms (s : State) (g : Nat) (f : Grp → Grp) : (s.modGrp g f).doms = s.doms := rfl
@[simp] theorem State.modGrp_lastRamp (s : State) (g : Nat) (f : Grp → Grp) : (s.modGrp g f).lastRamp = s.lastRamp := rfl
@[simp] theorem State.modGrp_rcd (s : State) (g : Nat) (f : Grp → Grp) : (s.modGrp g f).rcd = s.rcd := rfl
@[simp] theorem State.modGrp_newEvts (s : State) (g : Nat) (f : Grp → Grp) : (s.modGrp g f).newEvts = s.newEvts := rfl
@[simp] theorem State.modGrp_newVecs (s : State) (g : Nat) (f : Grp → Grp) : (s.modGrp g f).newVecs = s.newVecs := rfl
@[simp] theorem State.modGrp_newSteps (s : State) (g : Nat) (f : Grp → Grp) : (s.modGrp g f).newSteps = s.newSteps := rfl
@[simp] theorem State.modGrp_newDoms (s : State) (g : Nat) (f : Grp → Grp) : (s.modGrp g f).newDoms = s.newDoms := rfl
@[simp] theorem State.modGrp_faultOf (s : State) (g : Nat) (f : Grp → Grp) : (s.modGrp g f).faultOf = s.faultOf := rfl
@[simp] theorem State.modGrp_dev (s : State) (g : Nat) (f : Grp → Grp) : (s.modGrp g f).dev = s.dev := rfl
@[simp] theorem State.modGrp_ld (s : State) (g : Nat) (f : Grp → Grp) : (s.modGrp g f).ld = s.ld := rfl
@[simp] theorem State.modGrp_img (s : State) (g : Nat) (f : Grp → Grp) : (s.modGrp g f).img = s.img := rfl
@[simp] theorem State.modGrp_hst (s : State) (g : Nat) (f : Grp → Grp) : (s.modGrp g f).hst = s.hst := rfl
@[simp] theorem State.modGrp_tiles (s : State) (g : Nat) (f : Grp → Grp) : (s.modGrp g f).tiles = s.tiles := rfl
@[simp] theorem State.modGrp_arrs (s : State) (g : Nat) (f : Grp → Grp) : (s.modGrp g f).arrs = s.arrs := rfl
@[simp] theorem State.modGrp_ctxs (s : State) (g : Nat) (f : Grp → Grp) : (s.modGrp g f).ctxs = s.ctxs := rfl
@[simp] theorem State.modGrp_ports (s : State) (g : Nat) (f : Grp → Grp) : (s.modGrp g f).ports = s.ports := rfl
@[simp] theorem State.modGrp_paths (s : State) (g : Nat) (f : Grp → Grp) : (s.modGrp g f).paths = s.paths := rfl
@[simp] theorem State.modGrp_swc (s : State) (g : Nat) (f : Grp → Grp) : (s.modGrp g f).swc = s.swc := rfl
@[simp] theorem State.modGrp_shapes (s : State) (g : Nat) (f : Grp → Grp) : (s.modGrp g f).shapes = s.shapes := rfl
@[simp] theorem State.modGrp_newShapes (s : State) (g : Nat) (f : Grp → Grp) : (s.modGrp g f).newShapes = s.newShapes := rfl
@[simp] theorem State.modGrp_retired (s : State) (g : Nat) (f : Grp → Grp) : (s.modGrp g f).retired = s.retired := rfl
@[simp] theorem State.modGrp_vcBobs (s : State) (g : Nat) (f : Grp → Grp) : (s.modGrp g f).vcBobs = s.vcBobs := rfl
@[simp] theorem State.modGrp_bitmapBad (s : State) (g : Nat) (f : Grp → Grp) : (s.modGrp g f).bitmapBad = s.bitmapBad := rfl
@[simp] theorem State.modGrp_bobUps (s : State) (g : Nat) (f : Grp → Grp) : (s.modGrp g f).bobUps = s.bobUps := rfl
@[simp] theorem State.modGrp_insts (s : State) (g : Nat) (f : Grp → Grp) : (s.modGrp g f).insts = s.insts := rfl
@[simp] theorem State.modGrp_grps (s : State) (g : Nat) (f : Grp → Grp) : (s.modGrp g f).grps = s.grps.set g (f (s.grp g)) := rfl
@[simp] theorem State.modGrp_crys (s : State) (g : Nat) (f : Grp → Grp) : (s.modGrp g f).crys = s.crys := rfl
@[simp] theorem State.modGrp_cxls (s : State) (g : Nat) (f : Grp → Grp) : (s.modGrp g f).cxls = s.cxls := rfl
@[simp] theorem State.modGrp_hbms (s : State) (g : Nat) (f : Grp → Grp) : (s.modGrp g f).hbms = s.hbms := rfl
@[simp] theorem State.modGrp_upsets (s : State) (g : Nat) (f : Grp → Grp) : (s.modGrp g f).upsets = s.upsets := rfl
@[simp] theorem State.modGrp_mem (s : State) (g : Nat) (f : Grp → Grp) : (s.modGrp g f).mem = s.mem := rfl
@[simp] theorem State.modGrp_undef (s : State) (g : Nat) (f : Grp → Grp) : (s.modGrp g f).undef = s.undef := rfl
@[simp] theorem State.modGrp_striped (s : State) (g : Nat) (f : Grp → Grp) : (s.modGrp g f).striped = s.striped := rfl

/-! ## setInst -/

@[simp] theorem State.setInst_pending (s : State) (g q : Nat) (i : Inst) : (s.setInst g q i).pending = s.pending := rfl
@[simp] theorem State.setInst_out (s : State) (g q : Nat) (i : Inst) : (s.setInst g q i).out = s.out := rfl
@[simp] theorem State.setInst_free (s : State) (g q : Nat) (i : Inst) : (s.setInst g q i).free = s.free := rfl
@[simp] theorem State.setInst_cclk (s : State) (g q : Nat) (i : Inst) : (s.setInst g q i).cclk = s.cclk := rfl
@[simp] theorem State.setInst_pins (s : State) (g q : Nat) (i : Inst) : (s.setInst g q i).pins = s.pins := rfl
@[simp] theorem State.setInst_regs (s : State) (g q : Nat) (i : Inst) : (s.setInst g q i).regs = s.regs := rfl
@[simp] theorem State.setInst_cyc (s : State) (g q : Nat) (i : Inst) : (s.setInst g q i).cyc = s.cyc := rfl
@[simp] theorem State.setInst_newBits (s : State) (g q : Nat) (i : Inst) : (s.setInst g q i).newBits = s.newBits := rfl
@[simp] theorem State.setInst_blks (s : State) (g q : Nat) (i : Inst) : (s.setInst g q i).blks = s.blks := rfl
@[simp] theorem State.setInst_doms (s : State) (g q : Nat) (i : Inst) : (s.setInst g q i).doms = s.doms := rfl
@[simp] theorem State.setInst_lastRamp (s : State) (g q : Nat) (i : Inst) : (s.setInst g q i).lastRamp = s.lastRamp := rfl
@[simp] theorem State.setInst_rcd (s : State) (g q : Nat) (i : Inst) : (s.setInst g q i).rcd = s.rcd := rfl
@[simp] theorem State.setInst_newEvts (s : State) (g q : Nat) (i : Inst) : (s.setInst g q i).newEvts = s.newEvts := rfl
@[simp] theorem State.setInst_newVecs (s : State) (g q : Nat) (i : Inst) : (s.setInst g q i).newVecs = s.newVecs := rfl
@[simp] theorem State.setInst_newSteps (s : State) (g q : Nat) (i : Inst) : (s.setInst g q i).newSteps = s.newSteps := rfl
@[simp] theorem State.setInst_newDoms (s : State) (g q : Nat) (i : Inst) : (s.setInst g q i).newDoms = s.newDoms := rfl
@[simp] theorem State.setInst_faultOf (s : State) (g q : Nat) (i : Inst) : (s.setInst g q i).faultOf = s.faultOf := rfl
@[simp] theorem State.setInst_dev (s : State) (g q : Nat) (i : Inst) : (s.setInst g q i).dev = s.dev := rfl
@[simp] theorem State.setInst_ld (s : State) (g q : Nat) (i : Inst) : (s.setInst g q i).ld = s.ld := rfl
@[simp] theorem State.setInst_img (s : State) (g q : Nat) (i : Inst) : (s.setInst g q i).img = s.img := rfl
@[simp] theorem State.setInst_hst (s : State) (g q : Nat) (i : Inst) : (s.setInst g q i).hst = s.hst := rfl
@[simp] theorem State.setInst_tiles (s : State) (g q : Nat) (i : Inst) : (s.setInst g q i).tiles = s.tiles := rfl
@[simp] theorem State.setInst_arrs (s : State) (g q : Nat) (i : Inst) : (s.setInst g q i).arrs = s.arrs := rfl
@[simp] theorem State.setInst_ctxs (s : State) (g q : Nat) (i : Inst) : (s.setInst g q i).ctxs = s.ctxs := rfl
@[simp] theorem State.setInst_ports (s : State) (g q : Nat) (i : Inst) : (s.setInst g q i).ports = s.ports := rfl
@[simp] theorem State.setInst_paths (s : State) (g q : Nat) (i : Inst) : (s.setInst g q i).paths = s.paths := rfl
@[simp] theorem State.setInst_swc (s : State) (g q : Nat) (i : Inst) : (s.setInst g q i).swc = s.swc := rfl
@[simp] theorem State.setInst_shapes (s : State) (g q : Nat) (i : Inst) : (s.setInst g q i).shapes = s.shapes := rfl
@[simp] theorem State.setInst_newShapes (s : State) (g q : Nat) (i : Inst) : (s.setInst g q i).newShapes = s.newShapes := rfl
@[simp] theorem State.setInst_retired (s : State) (g q : Nat) (i : Inst) : (s.setInst g q i).retired = s.retired := rfl
@[simp] theorem State.setInst_vcBobs (s : State) (g q : Nat) (i : Inst) : (s.setInst g q i).vcBobs = s.vcBobs := rfl
@[simp] theorem State.setInst_bitmapBad (s : State) (g q : Nat) (i : Inst) : (s.setInst g q i).bitmapBad = s.bitmapBad := rfl
@[simp] theorem State.setInst_bobUps (s : State) (g q : Nat) (i : Inst) : (s.setInst g q i).bobUps = s.bobUps := rfl
@[simp] theorem State.setInst_insts (s : State) (g q : Nat) (i : Inst) : (s.setInst g q i).insts = s.insts.set (instKey g q) i := rfl
@[simp] theorem State.setInst_grps (s : State) (g q : Nat) (i : Inst) : (s.setInst g q i).grps = s.grps := rfl
@[simp] theorem State.setInst_crys (s : State) (g q : Nat) (i : Inst) : (s.setInst g q i).crys = s.crys := rfl
@[simp] theorem State.setInst_cxls (s : State) (g q : Nat) (i : Inst) : (s.setInst g q i).cxls = s.cxls := rfl
@[simp] theorem State.setInst_hbms (s : State) (g q : Nat) (i : Inst) : (s.setInst g q i).hbms = s.hbms := rfl
@[simp] theorem State.setInst_upsets (s : State) (g q : Nat) (i : Inst) : (s.setInst g q i).upsets = s.upsets := rfl
@[simp] theorem State.setInst_mem (s : State) (g q : Nat) (i : Inst) : (s.setInst g q i).mem = s.mem := rfl
@[simp] theorem State.setInst_undef (s : State) (g q : Nat) (i : Inst) : (s.setInst g q i).undef = s.undef := rfl
@[simp] theorem State.setInst_striped (s : State) (g q : Nat) (i : Inst) : (s.setInst g q i).striped = s.striped := rfl

/-! ## modCry -/

@[simp] theorem State.modCry_pending (s : State) (t : Nat) (f : Cry → Cry) : (s.modCry t f).pending = s.pending := rfl
@[simp] theorem State.modCry_out (s : State) (t : Nat) (f : Cry → Cry) : (s.modCry t f).out = s.out := rfl
@[simp] theorem State.modCry_free (s : State) (t : Nat) (f : Cry → Cry) : (s.modCry t f).free = s.free := rfl
@[simp] theorem State.modCry_cclk (s : State) (t : Nat) (f : Cry → Cry) : (s.modCry t f).cclk = s.cclk := rfl
@[simp] theorem State.modCry_pins (s : State) (t : Nat) (f : Cry → Cry) : (s.modCry t f).pins = s.pins := rfl
@[simp] theorem State.modCry_regs (s : State) (t : Nat) (f : Cry → Cry) : (s.modCry t f).regs = s.regs := rfl
@[simp] theorem State.modCry_cyc (s : State) (t : Nat) (f : Cry → Cry) : (s.modCry t f).cyc = s.cyc := rfl
@[simp] theorem State.modCry_newBits (s : State) (t : Nat) (f : Cry → Cry) : (s.modCry t f).newBits = s.newBits := rfl
@[simp] theorem State.modCry_blks (s : State) (t : Nat) (f : Cry → Cry) : (s.modCry t f).blks = s.blks := rfl
@[simp] theorem State.modCry_doms (s : State) (t : Nat) (f : Cry → Cry) : (s.modCry t f).doms = s.doms := rfl
@[simp] theorem State.modCry_lastRamp (s : State) (t : Nat) (f : Cry → Cry) : (s.modCry t f).lastRamp = s.lastRamp := rfl
@[simp] theorem State.modCry_rcd (s : State) (t : Nat) (f : Cry → Cry) : (s.modCry t f).rcd = s.rcd := rfl
@[simp] theorem State.modCry_newEvts (s : State) (t : Nat) (f : Cry → Cry) : (s.modCry t f).newEvts = s.newEvts := rfl
@[simp] theorem State.modCry_newVecs (s : State) (t : Nat) (f : Cry → Cry) : (s.modCry t f).newVecs = s.newVecs := rfl
@[simp] theorem State.modCry_newSteps (s : State) (t : Nat) (f : Cry → Cry) : (s.modCry t f).newSteps = s.newSteps := rfl
@[simp] theorem State.modCry_newDoms (s : State) (t : Nat) (f : Cry → Cry) : (s.modCry t f).newDoms = s.newDoms := rfl
@[simp] theorem State.modCry_faultOf (s : State) (t : Nat) (f : Cry → Cry) : (s.modCry t f).faultOf = s.faultOf := rfl
@[simp] theorem State.modCry_dev (s : State) (t : Nat) (f : Cry → Cry) : (s.modCry t f).dev = s.dev := rfl
@[simp] theorem State.modCry_ld (s : State) (t : Nat) (f : Cry → Cry) : (s.modCry t f).ld = s.ld := rfl
@[simp] theorem State.modCry_img (s : State) (t : Nat) (f : Cry → Cry) : (s.modCry t f).img = s.img := rfl
@[simp] theorem State.modCry_hst (s : State) (t : Nat) (f : Cry → Cry) : (s.modCry t f).hst = s.hst := rfl
@[simp] theorem State.modCry_tiles (s : State) (t : Nat) (f : Cry → Cry) : (s.modCry t f).tiles = s.tiles := rfl
@[simp] theorem State.modCry_arrs (s : State) (t : Nat) (f : Cry → Cry) : (s.modCry t f).arrs = s.arrs := rfl
@[simp] theorem State.modCry_ctxs (s : State) (t : Nat) (f : Cry → Cry) : (s.modCry t f).ctxs = s.ctxs := rfl
@[simp] theorem State.modCry_ports (s : State) (t : Nat) (f : Cry → Cry) : (s.modCry t f).ports = s.ports := rfl
@[simp] theorem State.modCry_paths (s : State) (t : Nat) (f : Cry → Cry) : (s.modCry t f).paths = s.paths := rfl
@[simp] theorem State.modCry_swc (s : State) (t : Nat) (f : Cry → Cry) : (s.modCry t f).swc = s.swc := rfl
@[simp] theorem State.modCry_shapes (s : State) (t : Nat) (f : Cry → Cry) : (s.modCry t f).shapes = s.shapes := rfl
@[simp] theorem State.modCry_newShapes (s : State) (t : Nat) (f : Cry → Cry) : (s.modCry t f).newShapes = s.newShapes := rfl
@[simp] theorem State.modCry_retired (s : State) (t : Nat) (f : Cry → Cry) : (s.modCry t f).retired = s.retired := rfl
@[simp] theorem State.modCry_vcBobs (s : State) (t : Nat) (f : Cry → Cry) : (s.modCry t f).vcBobs = s.vcBobs := rfl
@[simp] theorem State.modCry_bitmapBad (s : State) (t : Nat) (f : Cry → Cry) : (s.modCry t f).bitmapBad = s.bitmapBad := rfl
@[simp] theorem State.modCry_bobUps (s : State) (t : Nat) (f : Cry → Cry) : (s.modCry t f).bobUps = s.bobUps := rfl
@[simp] theorem State.modCry_insts (s : State) (t : Nat) (f : Cry → Cry) : (s.modCry t f).insts = s.insts := rfl
@[simp] theorem State.modCry_grps (s : State) (t : Nat) (f : Cry → Cry) : (s.modCry t f).grps = s.grps := rfl
@[simp] theorem State.modCry_crys (s : State) (t : Nat) (f : Cry → Cry) : (s.modCry t f).crys = s.crys.set t (f (s.cry t)) := rfl
@[simp] theorem State.modCry_cxls (s : State) (t : Nat) (f : Cry → Cry) : (s.modCry t f).cxls = s.cxls := rfl
@[simp] theorem State.modCry_hbms (s : State) (t : Nat) (f : Cry → Cry) : (s.modCry t f).hbms = s.hbms := rfl
@[simp] theorem State.modCry_upsets (s : State) (t : Nat) (f : Cry → Cry) : (s.modCry t f).upsets = s.upsets := rfl
@[simp] theorem State.modCry_mem (s : State) (t : Nat) (f : Cry → Cry) : (s.modCry t f).mem = s.mem := rfl
@[simp] theorem State.modCry_undef (s : State) (t : Nat) (f : Cry → Cry) : (s.modCry t f).undef = s.undef := rfl
@[simp] theorem State.modCry_striped (s : State) (t : Nat) (f : Cry → Cry) : (s.modCry t f).striped = s.striped := rfl

/-! ## modCxl -/

@[simp] theorem State.modCxl_pending (s : State) (c : Nat) (f : Cxl → Cxl) : (s.modCxl c f).pending = s.pending := rfl
@[simp] theorem State.modCxl_out (s : State) (c : Nat) (f : Cxl → Cxl) : (s.modCxl c f).out = s.out := rfl
@[simp] theorem State.modCxl_free (s : State) (c : Nat) (f : Cxl → Cxl) : (s.modCxl c f).free = s.free := rfl
@[simp] theorem State.modCxl_cclk (s : State) (c : Nat) (f : Cxl → Cxl) : (s.modCxl c f).cclk = s.cclk := rfl
@[simp] theorem State.modCxl_pins (s : State) (c : Nat) (f : Cxl → Cxl) : (s.modCxl c f).pins = s.pins := rfl
@[simp] theorem State.modCxl_regs (s : State) (c : Nat) (f : Cxl → Cxl) : (s.modCxl c f).regs = s.regs := rfl
@[simp] theorem State.modCxl_cyc (s : State) (c : Nat) (f : Cxl → Cxl) : (s.modCxl c f).cyc = s.cyc := rfl
@[simp] theorem State.modCxl_newBits (s : State) (c : Nat) (f : Cxl → Cxl) : (s.modCxl c f).newBits = s.newBits := rfl
@[simp] theorem State.modCxl_blks (s : State) (c : Nat) (f : Cxl → Cxl) : (s.modCxl c f).blks = s.blks := rfl
@[simp] theorem State.modCxl_doms (s : State) (c : Nat) (f : Cxl → Cxl) : (s.modCxl c f).doms = s.doms := rfl
@[simp] theorem State.modCxl_lastRamp (s : State) (c : Nat) (f : Cxl → Cxl) : (s.modCxl c f).lastRamp = s.lastRamp := rfl
@[simp] theorem State.modCxl_rcd (s : State) (c : Nat) (f : Cxl → Cxl) : (s.modCxl c f).rcd = s.rcd := rfl
@[simp] theorem State.modCxl_newEvts (s : State) (c : Nat) (f : Cxl → Cxl) : (s.modCxl c f).newEvts = s.newEvts := rfl
@[simp] theorem State.modCxl_newVecs (s : State) (c : Nat) (f : Cxl → Cxl) : (s.modCxl c f).newVecs = s.newVecs := rfl
@[simp] theorem State.modCxl_newSteps (s : State) (c : Nat) (f : Cxl → Cxl) : (s.modCxl c f).newSteps = s.newSteps := rfl
@[simp] theorem State.modCxl_newDoms (s : State) (c : Nat) (f : Cxl → Cxl) : (s.modCxl c f).newDoms = s.newDoms := rfl
@[simp] theorem State.modCxl_faultOf (s : State) (c : Nat) (f : Cxl → Cxl) : (s.modCxl c f).faultOf = s.faultOf := rfl
@[simp] theorem State.modCxl_dev (s : State) (c : Nat) (f : Cxl → Cxl) : (s.modCxl c f).dev = s.dev := rfl
@[simp] theorem State.modCxl_ld (s : State) (c : Nat) (f : Cxl → Cxl) : (s.modCxl c f).ld = s.ld := rfl
@[simp] theorem State.modCxl_img (s : State) (c : Nat) (f : Cxl → Cxl) : (s.modCxl c f).img = s.img := rfl
@[simp] theorem State.modCxl_hst (s : State) (c : Nat) (f : Cxl → Cxl) : (s.modCxl c f).hst = s.hst := rfl
@[simp] theorem State.modCxl_tiles (s : State) (c : Nat) (f : Cxl → Cxl) : (s.modCxl c f).tiles = s.tiles := rfl
@[simp] theorem State.modCxl_arrs (s : State) (c : Nat) (f : Cxl → Cxl) : (s.modCxl c f).arrs = s.arrs := rfl
@[simp] theorem State.modCxl_ctxs (s : State) (c : Nat) (f : Cxl → Cxl) : (s.modCxl c f).ctxs = s.ctxs := rfl
@[simp] theorem State.modCxl_ports (s : State) (c : Nat) (f : Cxl → Cxl) : (s.modCxl c f).ports = s.ports := rfl
@[simp] theorem State.modCxl_paths (s : State) (c : Nat) (f : Cxl → Cxl) : (s.modCxl c f).paths = s.paths := rfl
@[simp] theorem State.modCxl_swc (s : State) (c : Nat) (f : Cxl → Cxl) : (s.modCxl c f).swc = s.swc := rfl
@[simp] theorem State.modCxl_shapes (s : State) (c : Nat) (f : Cxl → Cxl) : (s.modCxl c f).shapes = s.shapes := rfl
@[simp] theorem State.modCxl_newShapes (s : State) (c : Nat) (f : Cxl → Cxl) : (s.modCxl c f).newShapes = s.newShapes := rfl
@[simp] theorem State.modCxl_retired (s : State) (c : Nat) (f : Cxl → Cxl) : (s.modCxl c f).retired = s.retired := rfl
@[simp] theorem State.modCxl_vcBobs (s : State) (c : Nat) (f : Cxl → Cxl) : (s.modCxl c f).vcBobs = s.vcBobs := rfl
@[simp] theorem State.modCxl_bitmapBad (s : State) (c : Nat) (f : Cxl → Cxl) : (s.modCxl c f).bitmapBad = s.bitmapBad := rfl
@[simp] theorem State.modCxl_bobUps (s : State) (c : Nat) (f : Cxl → Cxl) : (s.modCxl c f).bobUps = s.bobUps := rfl
@[simp] theorem State.modCxl_insts (s : State) (c : Nat) (f : Cxl → Cxl) : (s.modCxl c f).insts = s.insts := rfl
@[simp] theorem State.modCxl_grps (s : State) (c : Nat) (f : Cxl → Cxl) : (s.modCxl c f).grps = s.grps := rfl
@[simp] theorem State.modCxl_crys (s : State) (c : Nat) (f : Cxl → Cxl) : (s.modCxl c f).crys = s.crys := rfl
@[simp] theorem State.modCxl_cxls (s : State) (c : Nat) (f : Cxl → Cxl) : (s.modCxl c f).cxls = s.cxls.set c (f (s.cxl c)) := rfl
@[simp] theorem State.modCxl_hbms (s : State) (c : Nat) (f : Cxl → Cxl) : (s.modCxl c f).hbms = s.hbms := rfl
@[simp] theorem State.modCxl_upsets (s : State) (c : Nat) (f : Cxl → Cxl) : (s.modCxl c f).upsets = s.upsets := rfl
@[simp] theorem State.modCxl_mem (s : State) (c : Nat) (f : Cxl → Cxl) : (s.modCxl c f).mem = s.mem := rfl
@[simp] theorem State.modCxl_undef (s : State) (c : Nat) (f : Cxl → Cxl) : (s.modCxl c f).undef = s.undef := rfl
@[simp] theorem State.modCxl_striped (s : State) (c : Nat) (f : Cxl → Cxl) : (s.modCxl c f).striped = s.striped := rfl

/-! ## modHbm -/

@[simp] theorem State.modHbm_pending (s : State) (n : Nat) (f : Hbm → Hbm) : (s.modHbm n f).pending = s.pending := rfl
@[simp] theorem State.modHbm_out (s : State) (n : Nat) (f : Hbm → Hbm) : (s.modHbm n f).out = s.out := rfl
@[simp] theorem State.modHbm_free (s : State) (n : Nat) (f : Hbm → Hbm) : (s.modHbm n f).free = s.free := rfl
@[simp] theorem State.modHbm_cclk (s : State) (n : Nat) (f : Hbm → Hbm) : (s.modHbm n f).cclk = s.cclk := rfl
@[simp] theorem State.modHbm_pins (s : State) (n : Nat) (f : Hbm → Hbm) : (s.modHbm n f).pins = s.pins := rfl
@[simp] theorem State.modHbm_regs (s : State) (n : Nat) (f : Hbm → Hbm) : (s.modHbm n f).regs = s.regs := rfl
@[simp] theorem State.modHbm_cyc (s : State) (n : Nat) (f : Hbm → Hbm) : (s.modHbm n f).cyc = s.cyc := rfl
@[simp] theorem State.modHbm_newBits (s : State) (n : Nat) (f : Hbm → Hbm) : (s.modHbm n f).newBits = s.newBits := rfl
@[simp] theorem State.modHbm_blks (s : State) (n : Nat) (f : Hbm → Hbm) : (s.modHbm n f).blks = s.blks := rfl
@[simp] theorem State.modHbm_doms (s : State) (n : Nat) (f : Hbm → Hbm) : (s.modHbm n f).doms = s.doms := rfl
@[simp] theorem State.modHbm_lastRamp (s : State) (n : Nat) (f : Hbm → Hbm) : (s.modHbm n f).lastRamp = s.lastRamp := rfl
@[simp] theorem State.modHbm_rcd (s : State) (n : Nat) (f : Hbm → Hbm) : (s.modHbm n f).rcd = s.rcd := rfl
@[simp] theorem State.modHbm_newEvts (s : State) (n : Nat) (f : Hbm → Hbm) : (s.modHbm n f).newEvts = s.newEvts := rfl
@[simp] theorem State.modHbm_newVecs (s : State) (n : Nat) (f : Hbm → Hbm) : (s.modHbm n f).newVecs = s.newVecs := rfl
@[simp] theorem State.modHbm_newSteps (s : State) (n : Nat) (f : Hbm → Hbm) : (s.modHbm n f).newSteps = s.newSteps := rfl
@[simp] theorem State.modHbm_newDoms (s : State) (n : Nat) (f : Hbm → Hbm) : (s.modHbm n f).newDoms = s.newDoms := rfl
@[simp] theorem State.modHbm_faultOf (s : State) (n : Nat) (f : Hbm → Hbm) : (s.modHbm n f).faultOf = s.faultOf := rfl
@[simp] theorem State.modHbm_dev (s : State) (n : Nat) (f : Hbm → Hbm) : (s.modHbm n f).dev = s.dev := rfl
@[simp] theorem State.modHbm_ld (s : State) (n : Nat) (f : Hbm → Hbm) : (s.modHbm n f).ld = s.ld := rfl
@[simp] theorem State.modHbm_img (s : State) (n : Nat) (f : Hbm → Hbm) : (s.modHbm n f).img = s.img := rfl
@[simp] theorem State.modHbm_hst (s : State) (n : Nat) (f : Hbm → Hbm) : (s.modHbm n f).hst = s.hst := rfl
@[simp] theorem State.modHbm_tiles (s : State) (n : Nat) (f : Hbm → Hbm) : (s.modHbm n f).tiles = s.tiles := rfl
@[simp] theorem State.modHbm_arrs (s : State) (n : Nat) (f : Hbm → Hbm) : (s.modHbm n f).arrs = s.arrs := rfl
@[simp] theorem State.modHbm_ctxs (s : State) (n : Nat) (f : Hbm → Hbm) : (s.modHbm n f).ctxs = s.ctxs := rfl
@[simp] theorem State.modHbm_ports (s : State) (n : Nat) (f : Hbm → Hbm) : (s.modHbm n f).ports = s.ports := rfl
@[simp] theorem State.modHbm_paths (s : State) (n : Nat) (f : Hbm → Hbm) : (s.modHbm n f).paths = s.paths := rfl
@[simp] theorem State.modHbm_swc (s : State) (n : Nat) (f : Hbm → Hbm) : (s.modHbm n f).swc = s.swc := rfl
@[simp] theorem State.modHbm_shapes (s : State) (n : Nat) (f : Hbm → Hbm) : (s.modHbm n f).shapes = s.shapes := rfl
@[simp] theorem State.modHbm_newShapes (s : State) (n : Nat) (f : Hbm → Hbm) : (s.modHbm n f).newShapes = s.newShapes := rfl
@[simp] theorem State.modHbm_retired (s : State) (n : Nat) (f : Hbm → Hbm) : (s.modHbm n f).retired = s.retired := rfl
@[simp] theorem State.modHbm_vcBobs (s : State) (n : Nat) (f : Hbm → Hbm) : (s.modHbm n f).vcBobs = s.vcBobs := rfl
@[simp] theorem State.modHbm_bitmapBad (s : State) (n : Nat) (f : Hbm → Hbm) : (s.modHbm n f).bitmapBad = s.bitmapBad := rfl
@[simp] theorem State.modHbm_bobUps (s : State) (n : Nat) (f : Hbm → Hbm) : (s.modHbm n f).bobUps = s.bobUps := rfl
@[simp] theorem State.modHbm_insts (s : State) (n : Nat) (f : Hbm → Hbm) : (s.modHbm n f).insts = s.insts := rfl
@[simp] theorem State.modHbm_grps (s : State) (n : Nat) (f : Hbm → Hbm) : (s.modHbm n f).grps = s.grps := rfl
@[simp] theorem State.modHbm_crys (s : State) (n : Nat) (f : Hbm → Hbm) : (s.modHbm n f).crys = s.crys := rfl
@[simp] theorem State.modHbm_cxls (s : State) (n : Nat) (f : Hbm → Hbm) : (s.modHbm n f).cxls = s.cxls := rfl
@[simp] theorem State.modHbm_hbms (s : State) (n : Nat) (f : Hbm → Hbm) : (s.modHbm n f).hbms = s.hbms.set n (f (s.hbms.get {} n)) := rfl
@[simp] theorem State.modHbm_upsets (s : State) (n : Nat) (f : Hbm → Hbm) : (s.modHbm n f).upsets = s.upsets := rfl
@[simp] theorem State.modHbm_mem (s : State) (n : Nat) (f : Hbm → Hbm) : (s.modHbm n f).mem = s.mem := rfl
@[simp] theorem State.modHbm_undef (s : State) (n : Nat) (f : Hbm → Hbm) : (s.modHbm n f).undef = s.undef := rfl
@[simp] theorem State.modHbm_striped (s : State) (n : Nat) (f : Hbm → Hbm) : (s.modHbm n f).striped = s.striped := rfl

/-! ## forget -/

@[simp] theorem State.forget_pending (s : State) (p : Nat → Bool) : (s.forget p).pending = s.pending := rfl
@[simp] theorem State.forget_out (s : State) (p : Nat → Bool) : (s.forget p).out = s.out := rfl
@[simp] theorem State.forget_free (s : State) (p : Nat → Bool) : (s.forget p).free = s.free := rfl
@[simp] theorem State.forget_cclk (s : State) (p : Nat → Bool) : (s.forget p).cclk = s.cclk := rfl
@[simp] theorem State.forget_pins (s : State) (p : Nat → Bool) : (s.forget p).pins = s.pins := rfl
@[simp] theorem State.forget_regs (s : State) (p : Nat → Bool) : (s.forget p).regs = s.regs := rfl
@[simp] theorem State.forget_cyc (s : State) (p : Nat → Bool) : (s.forget p).cyc = s.cyc := rfl
@[simp] theorem State.forget_newBits (s : State) (p : Nat → Bool) : (s.forget p).newBits = s.newBits := rfl
@[simp] theorem State.forget_blks (s : State) (p : Nat → Bool) : (s.forget p).blks = s.blks := rfl
@[simp] theorem State.forget_doms (s : State) (p : Nat → Bool) : (s.forget p).doms = s.doms := rfl
@[simp] theorem State.forget_lastRamp (s : State) (p : Nat → Bool) : (s.forget p).lastRamp = s.lastRamp := rfl
@[simp] theorem State.forget_rcd (s : State) (p : Nat → Bool) : (s.forget p).rcd = s.rcd := rfl
@[simp] theorem State.forget_newEvts (s : State) (p : Nat → Bool) : (s.forget p).newEvts = s.newEvts := rfl
@[simp] theorem State.forget_newVecs (s : State) (p : Nat → Bool) : (s.forget p).newVecs = s.newVecs := rfl
@[simp] theorem State.forget_newSteps (s : State) (p : Nat → Bool) : (s.forget p).newSteps = s.newSteps := rfl
@[simp] theorem State.forget_newDoms (s : State) (p : Nat → Bool) : (s.forget p).newDoms = s.newDoms := rfl
@[simp] theorem State.forget_faultOf (s : State) (p : Nat → Bool) : (s.forget p).faultOf = s.faultOf := rfl
@[simp] theorem State.forget_dev (s : State) (p : Nat → Bool) : (s.forget p).dev = s.dev := rfl
@[simp] theorem State.forget_ld (s : State) (p : Nat → Bool) : (s.forget p).ld = s.ld := rfl
@[simp] theorem State.forget_img (s : State) (p : Nat → Bool) : (s.forget p).img = s.img := rfl
@[simp] theorem State.forget_hst (s : State) (p : Nat → Bool) : (s.forget p).hst = s.hst := rfl
@[simp] theorem State.forget_tiles (s : State) (p : Nat → Bool) : (s.forget p).tiles = s.tiles := rfl
@[simp] theorem State.forget_arrs (s : State) (p : Nat → Bool) : (s.forget p).arrs = s.arrs := rfl
@[simp] theorem State.forget_ctxs (s : State) (p : Nat → Bool) : (s.forget p).ctxs = s.ctxs := rfl
@[simp] theorem State.forget_ports (s : State) (p : Nat → Bool) : (s.forget p).ports = s.ports := rfl
@[simp] theorem State.forget_paths (s : State) (p : Nat → Bool) : (s.forget p).paths = s.paths := rfl
@[simp] theorem State.forget_swc (s : State) (p : Nat → Bool) : (s.forget p).swc = s.swc := rfl
@[simp] theorem State.forget_shapes (s : State) (p : Nat → Bool) : (s.forget p).shapes = s.shapes := rfl
@[simp] theorem State.forget_newShapes (s : State) (p : Nat → Bool) : (s.forget p).newShapes = s.newShapes := rfl
@[simp] theorem State.forget_retired (s : State) (p : Nat → Bool) : (s.forget p).retired = s.retired := rfl
@[simp] theorem State.forget_vcBobs (s : State) (p : Nat → Bool) : (s.forget p).vcBobs = s.vcBobs := rfl
@[simp] theorem State.forget_bitmapBad (s : State) (p : Nat → Bool) : (s.forget p).bitmapBad = s.bitmapBad := rfl
@[simp] theorem State.forget_bobUps (s : State) (p : Nat → Bool) : (s.forget p).bobUps = s.bobUps := rfl
@[simp] theorem State.forget_insts (s : State) (p : Nat → Bool) : (s.forget p).insts = s.insts := rfl
@[simp] theorem State.forget_grps (s : State) (p : Nat → Bool) : (s.forget p).grps = s.grps := rfl
@[simp] theorem State.forget_crys (s : State) (p : Nat → Bool) : (s.forget p).crys = s.crys := rfl
@[simp] theorem State.forget_cxls (s : State) (p : Nat → Bool) : (s.forget p).cxls = s.cxls := rfl
@[simp] theorem State.forget_hbms (s : State) (p : Nat → Bool) : (s.forget p).hbms = s.hbms := rfl
@[simp] theorem State.forget_upsets (s : State) (p : Nat → Bool) : (s.forget p).upsets = s.upsets.drop p := rfl
@[simp] theorem State.forget_mem (s : State) (p : Nat → Bool) : (s.forget p).mem = s.mem.filter fun c => !p c.1 := rfl
@[simp] theorem State.forget_undef (s : State) (p : Nat → Bool) : (s.forget p).undef = s.undef := rfl
@[simp] theorem State.forget_striped (s : State) (p : Nat → Bool) : (s.forget p).striped = s.striped := rfl

end Sys2Proof.Machine
end

