-- ==== Sys2Proof/Laws/Table.lean ====
section
/-!
SUPPORT. Sparse tables: a record read after it was set, the other records, and the rising order that every operation keeps.
-/
namespace Sys2Proof.Machine

variable {α : Type}

@[simp] theorem Table.get_set_self (d : α) (m : Table α) (k : Nat) (v : α) : (m.set k v).get d k = v := by
  induction m with
  | nil => simp [Table.set, Table.get]
  | cons y m ih =>
    obtain ⟨j, w⟩ := y
    simp only [Table.set]
    split
    · simp [Table.get]
    · split
      · simp [Table.get]
      · simp_all [Table.get]

theorem Table.get_set_ne (d : α) (m : Table α) {k i : Nat} (v : α) (h : i ≠ k) : (m.set k v).get d i = m.get d i := by
  induction m with
  | nil => simp [Table.set, Table.get, h]
  | cons y m ih =>
    obtain ⟨j, w⟩ := y
    simp only [Table.set]
    split
    · simp [Table.get, h]
    · split
      · simp_all [Table.get]
      · simp [Table.get, ih]

/-- The later of two records at one number stands. -/
@[simp] theorem Table.set_set (m : Table α) (k : Nat) (v w : α) : (m.set k v).set k w = m.set k w := by
  induction m with
  | nil => simp [Table.set]
  | cons c m ih =>
    obtain ⟨j, x⟩ := c
    rcases Nat.lt_trichotomy k j with h | h | h
    · simp [Table.set, h]
    · simp [Table.set, h]
    · have h1 := Nat.not_lt.2 (Nat.le_of_lt h)
      have h2 : k ≠ j := by omega
      simp [Table.set, h1, h2, ih]

@[simp] theorem Table.find_set_self (m : Table α) (k : Nat) (v : α) : (m.set k v).find k = some v := by
  induction m with
  | nil => simp [Table.set, Table.find]
  | cons y m ih =>
    obtain ⟨j, w⟩ := y
    simp only [Table.set]
    split
    · simp [Table.find]
    · split
      · simp [Table.find]
      · simp_all [Table.find]

theorem Table.find_set_ne (m : Table α) {k i : Nat} (v : α) (h : i ≠ k) : (m.set k v).find i = m.find i := by
  induction m with
  | nil => simp [Table.set, Table.find, h]
  | cons y m ih =>
    obtain ⟨j, w⟩ := y
    simp only [Table.set]
    split
    · simp [Table.find, h]
    · split
      · simp_all [Table.find]
      · simp [Table.find, ih]

/-- Every number of a table lies above a bound. -/
def Table.above (b : Nat) (m : Table α) : Prop := ∀ x ∈ m, b < x.1

theorem Table.rising_cons (x : Nat × α) (m : Table α) : Table.rising (x :: m) = true ↔ Table.above x.1 m ∧ Table.rising m = true := by
  induction m generalizing x with
  | nil => simp [Table.rising, Table.above]
  | cons y m ih =>
    simp only [Table.rising, Bool.and_eq_true, decide_eq_true_eq, ih y, Table.above, List.mem_cons, forall_eq_or_imp]
    constructor
    · rintro ⟨h, h1, h2⟩
      exact ⟨⟨h, fun z hz => Nat.lt_trans h (h1 z hz)⟩, h1, h2⟩
    · rintro ⟨⟨h, -⟩, h1, h2⟩
      exact ⟨h, h1, h2⟩

theorem Table.above_set (b : Nat) (m : Table α) (k : Nat) (v : α) (h : Table.above b m) (hk : b < k) : Table.above b (m.set k v) := by
  induction m with
  | nil => simpa [Table.set, Table.above] using hk
  | cons y m ih =>
    have h2 : Table.above b m := fun x hx => h x (List.mem_cons_of_mem _ hx)
    have h1 : b < y.1 := h y List.mem_cons_self
    obtain ⟨j, w⟩ := y
    simp only [Table.set]
    split
    · exact List.forall_mem_cons.mpr ⟨hk, List.forall_mem_cons.mpr ⟨h1, h2⟩⟩
    · split
      · exact List.forall_mem_cons.mpr ⟨hk, h2⟩
      · exact List.forall_mem_cons.mpr ⟨h1, ih h2⟩

/-- Setting a record keeps the rising order. -/
theorem Table.rising_set (m : Table α) (k : Nat) (v : α) (h : Table.rising m = true) : Table.rising (m.set k v) = true := by
  induction m with
  | nil => rfl
  | cons y m ih =>
    obtain ⟨j, w⟩ := y
    rw [Table.rising_cons] at h
    simp only [Table.set]
    split
    · rename_i hk
      rw [Table.rising_cons, Table.rising_cons]
      refine ⟨?_, h⟩
      intro x hx
      rcases List.mem_cons.mp hx with rfl | hx
      · exact hk
      · exact Nat.lt_trans hk (h.1 x hx)
    · split
      · rename_i _ hk
        subst hk
        rw [Table.rising_cons]
        exact h
      · rename_i h1 h2
        rw [Table.rising_cons]
        exact ⟨Table.above_set j m k v h.1 (by omega), ih h.2⟩

/-- What holds of every record still holds after one that satisfies it was set. -/
theorem Table.all_set (p : α → Bool) (m : Table α) (k : Nat) (v : α) (h : m.all (fun x => p x.2) = true) (hv : p v = true) :
    (m.set k v).all (fun x => p x.2) = true := by
  induction m with
  | nil => simpa [Table.set] using hv
  | cons y m ih =>
    obtain ⟨j, w⟩ := y
    simp only [List.all_cons, Bool.and_eq_true] at h
    simp only [Table.set]
    split
    · simp [h, hv]
    · split
      · simp [h, hv]
      · simp [h, ih]

/-- Dropping records keeps the rising order. -/
theorem Table.rising_filter (m : Table α) (p : Nat × α → Bool) (h : Table.rising m = true) : Table.rising (m.filter p) = true := by
  induction m with
  | nil => rfl
  | cons y m ih =>
    rw [Table.rising_cons] at h
    rw [List.filter_cons]
    split
    · rw [Table.rising_cons]
      exact ⟨fun x hx => h.1 x (List.mem_filter.mp hx).1, ih h.2⟩
    · exact ih h.2

/-- A table without the numbers that satisfy a test. -/
theorem Table.find_drop (m : Table α) (p : Nat → Bool) (k : Nat) : (m.drop p).find k = if p k then none else m.find k := by
  induction m with
  | nil => simp [Table.drop, Table.find]
  | cons x m ih =>
    obtain ⟨j, v⟩ := x
    simp only [Table.drop, List.filter_cons, Table.find] at *
    by_cases h : p j <;> by_cases h1 : k = j <;> simp_all [Table.find]

end Sys2Proof.Machine
end

