-- ==== Sys2Proof/Laws/Access.lean ====
section
/-!
SUPPORT. What each elementary update leaves of the records that the operations read: the register, block, domain, tile, array, context,
port, crystallizer, CXL port or group named, and what they say together (alive, up, ok, uninjected).
-/
namespace Sys2Proof.Machine

/-! ## setRg -/

@[simp] theorem State.setRg_blk_same (s : State) (o : Nat) (v : W64) (a : Nat) : (s.setRg o v).blk a = s.blk a := rfl
@[simp] theorem State.setRg_dom_same (s : State) (o : Nat) (v : W64) (a : Nat) : (s.setRg o v).dom a = s.dom a := rfl
@[simp] theorem State.setRg_domOn_same (s : State) (o : Nat) (v : W64) (a : Nat) : (s.setRg o v).domOn a = s.domOn a := rfl
@[simp] theorem State.setRg_tile_same (s : State) (o : Nat) (v : W64) (a : Nat) : (s.setRg o v).tile a = s.tile a := rfl
@[simp] theorem State.setRg_tally_same (s : State) (o : Nat) (v : W64) (a e : Nat) : (s.setRg o v).tally a e = s.tally a e := rfl
@[simp] theorem State.setRg_arr_same (s : State) (o : Nat) (v : W64) (a : Nat) : (s.setRg o v).arr a = s.arr a := rfl
@[simp] theorem State.setRg_ctx_same (s : State) (o : Nat) (v : W64) (a : Nat) : (s.setRg o v).ctx a = s.ctx a := rfl
@[simp] theorem State.setRg_port_same (s : State) (o : Nat) (v : W64) (a : Nat) : (s.setRg o v).port a = s.port a := rfl
@[simp] theorem State.setRg_cry_same (s : State) (o : Nat) (v : W64) (a : Nat) : (s.setRg o v).cry a = s.cry a := rfl
@[simp] theorem State.setRg_cxl_same (s : State) (o : Nat) (v : W64) (a : Nat) : (s.setRg o v).cxl a = s.cxl a := rfl
@[simp] theorem State.setRg_grp_same (s : State) (o : Nat) (v : W64) (a : Nat) : (s.setRg o v).grp a = s.grp a := rfl
@[simp] theorem State.setRg_alive_same (s : State) (o : Nat) (v : W64) : (s.setRg o v).alive = s.alive := rfl
@[simp] theorem State.setRg_up_same (s : State) (o : Nat) (v : W64) (a : Nat) : (s.setRg o v).up a = s.up a := rfl
@[simp] theorem State.setRg_ok_same (s : State) (o : Nat) (v : W64) (a : Nat) : (s.setRg o v).ok a = s.ok a := rfl
@[simp] theorem State.setRg_inReset_same (s : State) (o : Nat) (v : W64) (a : Nat) : (s.setRg o v).inReset a = s.inReset a := rfl
@[simp] theorem State.setRg_uninjected_same (s : State) (o : Nat) (v : W64) : (s.setRg o v).uninjected = s.uninjected := rfl

/-! ## emit -/

@[simp] theorem State.emit_rg_same (s : State) (o : Out) (a : Nat) : (s.emit o).rg a = s.rg a := rfl
@[simp] theorem State.emit_blk_same (s : State) (o : Out) (a : Nat) : (s.emit o).blk a = s.blk a := rfl
@[simp] theorem State.emit_dom_same (s : State) (o : Out) (a : Nat) : (s.emit o).dom a = s.dom a := rfl
@[simp] theorem State.emit_domOn_same (s : State) (o : Out) (a : Nat) : (s.emit o).domOn a = s.domOn a := rfl
@[simp] theorem State.emit_tile_same (s : State) (o : Out) (a : Nat) : (s.emit o).tile a = s.tile a := rfl
@[simp] theorem State.emit_tally_same (s : State) (o : Out) (a e : Nat) : (s.emit o).tally a e = s.tally a e := rfl
@[simp] theorem State.emit_arr_same (s : State) (o : Out) (a : Nat) : (s.emit o).arr a = s.arr a := rfl
@[simp] theorem State.emit_ctx_same (s : State) (o : Out) (a : Nat) : (s.emit o).ctx a = s.ctx a := rfl
@[simp] theorem State.emit_port_same (s : State) (o : Out) (a : Nat) : (s.emit o).port a = s.port a := rfl
@[simp] theorem State.emit_cry_same (s : State) (o : Out) (a : Nat) : (s.emit o).cry a = s.cry a := rfl
@[simp] theorem State.emit_cxl_same (s : State) (o : Out) (a : Nat) : (s.emit o).cxl a = s.cxl a := rfl
@[simp] theorem State.emit_grp_same (s : State) (o : Out) (a : Nat) : (s.emit o).grp a = s.grp a := rfl
@[simp] theorem State.emit_alive_same (s : State) (o : Out) : (s.emit o).alive = s.alive := rfl
@[simp] theorem State.emit_up_same (s : State) (o : Out) (a : Nat) : (s.emit o).up a = s.up a := rfl
@[simp] theorem State.emit_ok_same (s : State) (o : Out) (a : Nat) : (s.emit o).ok a = s.ok a := rfl
@[simp] theorem State.emit_inReset_same (s : State) (o : Out) (a : Nat) : (s.emit o).inReset a = s.inReset a := rfl
@[simp] theorem State.emit_uninjected_same (s : State) (o : Out) : (s.emit o).uninjected = s.uninjected := rfl

/-! ## setDom -/

@[simp] theorem State.setDom_rg_same (s : State) (d : Nat) (x : Dom) (a : Nat) : (s.setDom d x).rg a = s.rg a := rfl
@[simp] theorem State.setDom_blk_same (s : State) (d : Nat) (x : Dom) (a : Nat) : (s.setDom d x).blk a = s.blk a := rfl
@[simp] theorem State.setDom_tile_same (s : State) (d : Nat) (x : Dom) (a : Nat) : (s.setDom d x).tile a = s.tile a := rfl
@[simp] theorem State.setDom_tally_same (s : State) (d : Nat) (x : Dom) (a e : Nat) : (s.setDom d x).tally a e = s.tally a e := rfl
@[simp] theorem State.setDom_arr_same (s : State) (d : Nat) (x : Dom) (a : Nat) : (s.setDom d x).arr a = s.arr a := rfl
@[simp] theorem State.setDom_ctx_same (s : State) (d : Nat) (x : Dom) (a : Nat) : (s.setDom d x).ctx a = s.ctx a := rfl
@[simp] theorem State.setDom_port_same (s : State) (d : Nat) (x : Dom) (a : Nat) : (s.setDom d x).port a = s.port a := rfl
@[simp] theorem State.setDom_cry_same (s : State) (d : Nat) (x : Dom) (a : Nat) : (s.setDom d x).cry a = s.cry a := rfl
@[simp] theorem State.setDom_cxl_same (s : State) (d : Nat) (x : Dom) (a : Nat) : (s.setDom d x).cxl a = s.cxl a := rfl
@[simp] theorem State.setDom_grp_same (s : State) (d : Nat) (x : Dom) (a : Nat) : (s.setDom d x).grp a = s.grp a := rfl
@[simp] theorem State.setDom_alive_same (s : State) (d : Nat) (x : Dom) : (s.setDom d x).alive = s.alive := rfl
@[simp] theorem State.setDom_inReset_same (s : State) (d : Nat) (x : Dom) (a : Nat) : (s.setDom d x).inReset a = s.inReset a := rfl
@[simp] theorem State.setDom_uninjected_same (s : State) (d : Nat) (x : Dom) : (s.setDom d x).uninjected = s.uninjected := rfl

/-! ## setBlk -/

@[simp] theorem State.setBlk_rg_same (s : State) (b : Nat) (x : Blk) (a : Nat) : (s.setBlk b x).rg a = s.rg a := rfl
@[simp] theorem State.setBlk_dom_same (s : State) (b : Nat) (x : Blk) (a : Nat) : (s.setBlk b x).dom a = s.dom a := rfl
@[simp] theorem State.setBlk_domOn_same (s : State) (b : Nat) (x : Blk) (a : Nat) : (s.setBlk b x).domOn a = s.domOn a := rfl
@[simp] theorem State.setBlk_tile_same (s : State) (b : Nat) (x : Blk) (a : Nat) : (s.setBlk b x).tile a = s.tile a := rfl
@[simp] theorem State.setBlk_tally_same (s : State) (b : Nat) (x : Blk) (a e : Nat) : (s.setBlk b x).tally a e = s.tally a e := rfl
@[simp] theorem State.setBlk_arr_same (s : State) (b : Nat) (x : Blk) (a : Nat) : (s.setBlk b x).arr a = s.arr a := rfl
@[simp] theorem State.setBlk_ctx_same (s : State) (b : Nat) (x : Blk) (a : Nat) : (s.setBlk b x).ctx a = s.ctx a := rfl
@[simp] theorem State.setBlk_port_same (s : State) (b : Nat) (x : Blk) (a : Nat) : (s.setBlk b x).port a = s.port a := rfl
@[simp] theorem State.setBlk_cry_same (s : State) (b : Nat) (x : Blk) (a : Nat) : (s.setBlk b x).cry a = s.cry a := rfl
@[simp] theorem State.setBlk_cxl_same (s : State) (b : Nat) (x : Blk) (a : Nat) : (s.setBlk b x).cxl a = s.cxl a := rfl
@[simp] theorem State.setBlk_grp_same (s : State) (b : Nat) (x : Blk) (a : Nat) : (s.setBlk b x).grp a = s.grp a := rfl
@[simp] theorem State.setBlk_alive_same (s : State) (b : Nat) (x : Blk) : (s.setBlk b x).alive = s.alive := rfl

/-! ## setCtx -/

@[simp] theorem State.setCtx_rg_same (s : State) (c : Nat) (x : Ctx) (a : Nat) : (s.setCtx c x).rg a = s.rg a := rfl
@[simp] theorem State.setCtx_blk_same (s : State) (c : Nat) (x : Ctx) (a : Nat) : (s.setCtx c x).blk a = s.blk a := rfl
@[simp] theorem State.setCtx_dom_same (s : State) (c : Nat) (x : Ctx) (a : Nat) : (s.setCtx c x).dom a = s.dom a := rfl
@[simp] theorem State.setCtx_domOn_same (s : State) (c : Nat) (x : Ctx) (a : Nat) : (s.setCtx c x).domOn a = s.domOn a := rfl
@[simp] theorem State.setCtx_tile_same (s : State) (c : Nat) (x : Ctx) (a : Nat) : (s.setCtx c x).tile a = s.tile a := rfl
@[simp] theorem State.setCtx_tally_same (s : State) (c : Nat) (x : Ctx) (a e : Nat) : (s.setCtx c x).tally a e = s.tally a e := rfl
@[simp] theorem State.setCtx_arr_same (s : State) (c : Nat) (x : Ctx) (a : Nat) : (s.setCtx c x).arr a = s.arr a := rfl
@[simp] theorem State.setCtx_port_same (s : State) (c : Nat) (x : Ctx) (a : Nat) : (s.setCtx c x).port a = s.port a := rfl
@[simp] theorem State.setCtx_cry_same (s : State) (c : Nat) (x : Ctx) (a : Nat) : (s.setCtx c x).cry a = s.cry a := rfl
@[simp] theorem State.setCtx_cxl_same (s : State) (c : Nat) (x : Ctx) (a : Nat) : (s.setCtx c x).cxl a = s.cxl a := rfl
@[simp] theorem State.setCtx_grp_same (s : State) (c : Nat) (x : Ctx) (a : Nat) : (s.setCtx c x).grp a = s.grp a := rfl
@[simp] theorem State.setCtx_alive_same (s : State) (c : Nat) (x : Ctx) : (s.setCtx c x).alive = s.alive := rfl
@[simp] theorem State.setCtx_up_same (s : State) (c : Nat) (x : Ctx) (a : Nat) : (s.setCtx c x).up a = s.up a := rfl
@[simp] theorem State.setCtx_ok_same (s : State) (c : Nat) (x : Ctx) (a : Nat) : (s.setCtx c x).ok a = s.ok a := rfl
@[simp] theorem State.setCtx_inReset_same (s : State) (c : Nat) (x : Ctx) (a : Nat) : (s.setCtx c x).inReset a = s.inReset a := rfl
@[simp] theorem State.setCtx_uninjected_same (s : State) (c : Nat) (x : Ctx) : (s.setCtx c x).uninjected = s.uninjected := rfl

/-! ## wantStep -/

@[simp] theorem State.wantStep_rg_same (s : State) (b n : Nat) (a : Nat) : (s.wantStep b n).rg a = s.rg a := rfl
@[simp] theorem State.wantStep_blk_same (s : State) (b n : Nat) (a : Nat) : (s.wantStep b n).blk a = s.blk a := rfl
@[simp] theorem State.wantStep_dom_same (s : State) (b n : Nat) (a : Nat) : (s.wantStep b n).dom a = s.dom a := rfl
@[simp] theorem State.wantStep_domOn_same (s : State) (b n : Nat) (a : Nat) : (s.wantStep b n).domOn a = s.domOn a := rfl
@[simp] theorem State.wantStep_tile_same (s : State) (b n : Nat) (a : Nat) : (s.wantStep b n).tile a = s.tile a := rfl
@[simp] theorem State.wantStep_tally_same (s : State) (b n : Nat) (a e : Nat) : (s.wantStep b n).tally a e = s.tally a e := rfl
@[simp] theorem State.wantStep_arr_same (s : State) (b n : Nat) (a : Nat) : (s.wantStep b n).arr a = s.arr a := rfl
@[simp] theorem State.wantStep_ctx_same (s : State) (b n : Nat) (a : Nat) : (s.wantStep b n).ctx a = s.ctx a := rfl
@[simp] theorem State.wantStep_port_same (s : State) (b n : Nat) (a : Nat) : (s.wantStep b n).port a = s.port a := rfl
@[simp] theorem State.wantStep_cry_same (s : State) (b n : Nat) (a : Nat) : (s.wantStep b n).cry a = s.cry a := rfl
@[simp] theorem State.wantStep_cxl_same (s : State) (b n : Nat) (a : Nat) : (s.wantStep b n).cxl a = s.cxl a := rfl
@[simp] theorem State.wantStep_grp_same (s : State) (b n : Nat) (a : Nat) : (s.wantStep b n).grp a = s.grp a := rfl
@[simp] theorem State.wantStep_alive_same (s : State) (b n : Nat) : (s.wantStep b n).alive = s.alive := rfl
@[simp] theorem State.wantStep_up_same (s : State) (b n : Nat) (a : Nat) : (s.wantStep b n).up a = s.up a := rfl
@[simp] theorem State.wantStep_ok_same (s : State) (b n : Nat) (a : Nat) : (s.wantStep b n).ok a = s.ok a := rfl
@[simp] theorem State.wantStep_inReset_same (s : State) (b n : Nat) (a : Nat) : (s.wantStep b n).inReset a = s.inReset a := rfl
@[simp] theorem State.wantStep_uninjected_same (s : State) (b n : Nat) : (s.wantStep b n).uninjected = s.uninjected := rfl

/-! ## modTile -/

@[simp] theorem State.modTile_rg_same (s : State) (t : Nat) (f : Tile → Tile) (a : Nat) : (s.modTile t f).rg a = s.rg a := rfl
@[simp] theorem State.modTile_blk_same (s : State) (t : Nat) (f : Tile → Tile) (a : Nat) : (s.modTile t f).blk a = s.blk a := rfl
@[simp] theorem State.modTile_dom_same (s : State) (t : Nat) (f : Tile → Tile) (a : Nat) : (s.modTile t f).dom a = s.dom a := rfl
@[simp] theorem State.modTile_domOn_same (s : State) (t : Nat) (f : Tile → Tile) (a : Nat) : (s.modTile t f).domOn a = s.domOn a := rfl
@[simp] theorem State.modTile_arr_same (s : State) (t : Nat) (f : Tile → Tile) (a : Nat) : (s.modTile t f).arr a = s.arr a := rfl
@[simp] theorem State.modTile_ctx_same (s : State) (t : Nat) (f : Tile → Tile) (a : Nat) : (s.modTile t f).ctx a = s.ctx a := rfl
@[simp] theorem State.modTile_port_same (s : State) (t : Nat) (f : Tile → Tile) (a : Nat) : (s.modTile t f).port a = s.port a := rfl
@[simp] theorem State.modTile_cry_same (s : State) (t : Nat) (f : Tile → Tile) (a : Nat) : (s.modTile t f).cry a = s.cry a := rfl
@[simp] theorem State.modTile_cxl_same (s : State) (t : Nat) (f : Tile → Tile) (a : Nat) : (s.modTile t f).cxl a = s.cxl a := rfl
@[simp] theorem State.modTile_grp_same (s : State) (t : Nat) (f : Tile → Tile) (a : Nat) : (s.modTile t f).grp a = s.grp a := rfl
@[simp] theorem State.modTile_alive_same (s : State) (t : Nat) (f : Tile → Tile) : (s.modTile t f).alive = s.alive := rfl
@[simp] theorem State.modTile_up_same (s : State) (t : Nat) (f : Tile → Tile) (a : Nat) : (s.modTile t f).up a = s.up a := rfl
@[simp] theorem State.modTile_ok_same (s : State) (t : Nat) (f : Tile → Tile) (a : Nat) : (s.modTile t f).ok a = s.ok a := rfl
@[simp] theorem State.modTile_inReset_same (s : State) (t : Nat) (f : Tile → Tile) (a : Nat) : (s.modTile t f).inReset a = s.inReset a := rfl
@[simp] theorem State.modTile_uninjected_same (s : State) (t : Nat) (f : Tile → Tile) : (s.modTile t f).uninjected = s.uninjected := rfl

/-! ## setTally -/

@[simp] theorem State.setTally_rg_same (s : State) (t k : Nat) (x : Tally) (a : Nat) : (s.setTally t k x).rg a = s.rg a := rfl
@[simp] theorem State.setTally_blk_same (s : State) (t k : Nat) (x : Tally) (a : Nat) : (s.setTally t k x).blk a = s.blk a := rfl
@[simp] theorem State.setTally_dom_same (s : State) (t k : Nat) (x : Tally) (a : Nat) : (s.setTally t k x).dom a = s.dom a := rfl
@[simp] theorem State.setTally_domOn_same (s : State) (t k : Nat) (x : Tally) (a : Nat) : (s.setTally t k x).domOn a = s.domOn a := rfl
@[simp] theorem State.setTally_arr_same (s : State) (t k : Nat) (x : Tally) (a : Nat) : (s.setTally t k x).arr a = s.arr a := rfl
@[simp] theorem State.setTally_ctx_same (s : State) (t k : Nat) (x : Tally) (a : Nat) : (s.setTally t k x).ctx a = s.ctx a := rfl
@[simp] theorem State.setTally_port_same (s : State) (t k : Nat) (x : Tally) (a : Nat) : (s.setTally t k x).port a = s.port a := rfl
@[simp] theorem State.setTally_cry_same (s : State) (t k : Nat) (x : Tally) (a : Nat) : (s.setTally t k x).cry a = s.cry a := rfl
@[simp] theorem State.setTally_cxl_same (s : State) (t k : Nat) (x : Tally) (a : Nat) : (s.setTally t k x).cxl a = s.cxl a := rfl
@[simp] theorem State.setTally_grp_same (s : State) (t k : Nat) (x : Tally) (a : Nat) : (s.setTally t k x).grp a = s.grp a := rfl
@[simp] theorem State.setTally_alive_same (s : State) (t k : Nat) (x : Tally) : (s.setTally t k x).alive = s.alive := rfl
@[simp] theorem State.setTally_up_same (s : State) (t k : Nat) (x : Tally) (a : Nat) : (s.setTally t k x).up a = s.up a := rfl
@[simp] theorem State.setTally_ok_same (s : State) (t k : Nat) (x : Tally) (a : Nat) : (s.setTally t k x).ok a = s.ok a := rfl
@[simp] theorem State.setTally_inReset_same (s : State) (t k : Nat) (x : Tally) (a : Nat) : (s.setTally t k x).inReset a = s.inReset a := rfl
@[simp] theorem State.setTally_uninjected_same (s : State) (t k : Nat) (x : Tally) : (s.setTally t k x).uninjected = s.uninjected := rfl

/-! ## modArr -/

@[simp] theorem State.modArr_rg_same (s : State) (i : Nat) (f : Arr → Arr) (a : Nat) : (s.modArr i f).rg a = s.rg a := rfl
@[simp] theorem State.modArr_blk_same (s : State) (i : Nat) (f : Arr → Arr) (a : Nat) : (s.modArr i f).blk a = s.blk a := rfl
@[simp] theorem State.modArr_dom_same (s : State) (i : Nat) (f : Arr → Arr) (a : Nat) : (s.modArr i f).dom a = s.dom a := rfl
@[simp] theorem State.modArr_domOn_same (s : State) (i : Nat) (f : Arr → Arr) (a : Nat) : (s.modArr i f).domOn a = s.domOn a := rfl
@[simp] theorem State.modArr_tile_same (s : State) (i : Nat) (f : Arr → Arr) (a : Nat) : (s.modArr i f).tile a = s.tile a := rfl
@[simp] theorem State.modArr_tally_same (s : State) (i : Nat) (f : Arr → Arr) (a e : Nat) : (s.modArr i f).tally a e = s.tally a e := rfl
@[simp] theorem State.modArr_ctx_same (s : State) (i : Nat) (f : Arr → Arr) (a : Nat) : (s.modArr i f).ctx a = s.ctx a := rfl
@[simp] theorem State.modArr_port_same (s : State) (i : Nat) (f : Arr → Arr) (a : Nat) : (s.modArr i f).port a = s.port a := rfl
@[simp] theorem State.modArr_cry_same (s : State) (i : Nat) (f : Arr → Arr) (a : Nat) : (s.modArr i f).cry a = s.cry a := rfl
@[simp] theorem State.modArr_cxl_same (s : State) (i : Nat) (f : Arr → Arr) (a : Nat) : (s.modArr i f).cxl a = s.cxl a := rfl
@[simp] theorem State.modArr_grp_same (s : State) (i : Nat) (f : Arr → Arr) (a : Nat) : (s.modArr i f).grp a = s.grp a := rfl
@[simp] theorem State.modArr_alive_same (s : State) (i : Nat) (f : Arr → Arr) : (s.modArr i f).alive = s.alive := rfl
@[simp] theorem State.modArr_up_same (s : State) (i : Nat) (f : Arr → Arr) (a : Nat) : (s.modArr i f).up a = s.up a := rfl
@[simp] theorem State.modArr_ok_same (s : State) (i : Nat) (f : Arr → Arr) (a : Nat) : (s.modArr i f).ok a = s.ok a := rfl
@[simp] theorem State.modArr_inReset_same (s : State) (i : Nat) (f : Arr → Arr) (a : Nat) : (s.modArr i f).inReset a = s.inReset a := rfl
@[simp] theorem State.modArr_uninjected_same (s : State) (i : Nat) (f : Arr → Arr) : (s.modArr i f).uninjected = s.uninjected := rfl

/-! ## modPort -/

@[simp] theorem State.modPort_rg_same (s : State) (p : Nat) (f : Port → Port) (a : Nat) : (s.modPort p f).rg a = s.rg a := rfl
@[simp] theorem State.modPort_blk_same (s : State) (p : Nat) (f : Port → Port) (a : Nat) : (s.modPort p f).blk a = s.blk a := rfl
@[simp] theorem State.modPort_dom_same (s : State) (p : Nat) (f : Port → Port) (a : Nat) : (s.modPort p f).dom a = s.dom a := rfl
@[simp] theorem State.modPort_domOn_same (s : State) (p : Nat) (f : Port → Port) (a : Nat) : (s.modPort p f).domOn a = s.domOn a := rfl
@[simp] theorem State.modPort_tile_same (s : State) (p : Nat) (f : Port → Port) (a : Nat) : (s.modPort p f).tile a = s.tile a := rfl
@[simp] theorem State.modPort_tally_same (s : State) (p : Nat) (f : Port → Port) (a e : Nat) : (s.modPort p f).tally a e = s.tally a e := rfl
@[simp] theorem State.modPort_arr_same (s : State) (p : Nat) (f : Port → Port) (a : Nat) : (s.modPort p f).arr a = s.arr a := rfl
@[simp] theorem State.modPort_ctx_same (s : State) (p : Nat) (f : Port → Port) (a : Nat) : (s.modPort p f).ctx a = s.ctx a := rfl
@[simp] theorem State.modPort_cry_same (s : State) (p : Nat) (f : Port → Port) (a : Nat) : (s.modPort p f).cry a = s.cry a := rfl
@[simp] theorem State.modPort_cxl_same (s : State) (p : Nat) (f : Port → Port) (a : Nat) : (s.modPort p f).cxl a = s.cxl a := rfl
@[simp] theorem State.modPort_grp_same (s : State) (p : Nat) (f : Port → Port) (a : Nat) : (s.modPort p f).grp a = s.grp a := rfl
@[simp] theorem State.modPort_alive_same (s : State) (p : Nat) (f : Port → Port) : (s.modPort p f).alive = s.alive := rfl
@[simp] theorem State.modPort_up_same (s : State) (p : Nat) (f : Port → Port) (a : Nat) : (s.modPort p f).up a = s.up a := rfl
@[simp] theorem State.modPort_ok_same (s : State) (p : Nat) (f : Port → Port) (a : Nat) : (s.modPort p f).ok a = s.ok a := rfl
@[simp] theorem State.modPort_inReset_same (s : State) (p : Nat) (f : Port → Port) (a : Nat) : (s.modPort p f).inReset a = s.inReset a := rfl
@[simp] theorem State.modPort_uninjected_same (s : State) (p : Nat) (f : Port → Port) : (s.modPort p f).uninjected = s.uninjected := rfl

/-! ## modSwc -/

@[simp] theorem State.modSwc_rg_same (s : State) (f : Swc → Swc) (a : Nat) : (s.modSwc f).rg a = s.rg a := rfl
@[simp] theorem State.modSwc_blk_same (s : State) (f : Swc → Swc) (a : Nat) : (s.modSwc f).blk a = s.blk a := rfl
@[simp] theorem State.modSwc_dom_same (s : State) (f : Swc → Swc) (a : Nat) : (s.modSwc f).dom a = s.dom a := rfl
@[simp] theorem State.modSwc_domOn_same (s : State) (f : Swc → Swc) (a : Nat) : (s.modSwc f).domOn a = s.domOn a := rfl
@[simp] theorem State.modSwc_tile_same (s : State) (f : Swc → Swc) (a : Nat) : (s.modSwc f).tile a = s.tile a := rfl
@[simp] theorem State.modSwc_tally_same (s : State) (f : Swc → Swc) (a e : Nat) : (s.modSwc f).tally a e = s.tally a e := rfl
@[simp] theorem State.modSwc_arr_same (s : State) (f : Swc → Swc) (a : Nat) : (s.modSwc f).arr a = s.arr a := rfl
@[simp] theorem State.modSwc_ctx_same (s : State) (f : Swc → Swc) (a : Nat) : (s.modSwc f).ctx a = s.ctx a := rfl
@[simp] theorem State.modSwc_port_same (s : State) (f : Swc → Swc) (a : Nat) : (s.modSwc f).port a = s.port a := rfl
@[simp] theorem State.modSwc_cry_same (s : State) (f : Swc → Swc) (a : Nat) : (s.modSwc f).cry a = s.cry a := rfl
@[simp] theorem State.modSwc_cxl_same (s : State) (f : Swc → Swc) (a : Nat) : (s.modSwc f).cxl a = s.cxl a := rfl
@[simp] theorem State.modSwc_grp_same (s : State) (f : Swc → Swc) (a : Nat) : (s.modSwc f).grp a = s.grp a := rfl
@[simp] theorem State.modSwc_alive_same (s : State) (f : Swc → Swc) : (s.modSwc f).alive = s.alive := rfl
@[simp] theorem State.modSwc_up_same (s : State) (f : Swc → Swc) (a : Nat) : (s.modSwc f).up a = s.up a := rfl
@[simp] theorem State.modSwc_ok_same (s : State) (f : Swc → Swc) (a : Nat) : (s.modSwc f).ok a = s.ok a := rfl
@[simp] theorem State.modSwc_inReset_same (s : State) (f : Swc → Swc) (a : Nat) : (s.modSwc f).inReset a = s.inReset a := rfl
@[simp] theorem State.modSwc_uninjected_same (s : State) (f : Swc → Swc) : (s.modSwc f).uninjected = s.uninjected := rfl

/-! ## modGrp -/

@[simp] theorem State.modGrp_rg_same (s : State) (g : Nat) (f : Grp → Grp) (a : Nat) : (s.modGrp g f).rg a = s.rg a := rfl
@[simp] theorem State.modGrp_blk_same (s : State) (g : Nat) (f : Grp → Grp) (a : Nat) : (s.modGrp g f).blk a = s.blk a := rfl
@[simp] theorem State.modGrp_dom_same (s : State) (g : Nat) (f : Grp → Grp) (a : Nat) : (s.modGrp g f).dom a = s.dom a := rfl
@[simp] theorem State.modGrp_domOn_same (s : State) (g : Nat) (f : Grp → Grp) (a : Nat) : (s.modGrp g f).domOn a = s.domOn a := rfl
@[simp] theorem State.modGrp_tile_same (s : State) (g : Nat) (f : Grp → Grp) (a : Nat) : (s.modGrp g f).tile a = s.tile a := rfl
@[simp] theorem State.modGrp_tally_same (s : State) (g : Nat) (f : Grp → Grp) (a e : Nat) : (s.modGrp g f).tally a e = s.tally a e := rfl
@[simp] theorem State.modGrp_arr_same (s : State) (g : Nat) (f : Grp → Grp) (a : Nat) : (s.modGrp g f).arr a = s.arr a := rfl
@[simp] theorem State.modGrp_ctx_same (s : State) (g : Nat) (f : Grp → Grp) (a : Nat) : (s.modGrp g f).ctx a = s.ctx a := rfl
@[simp] theorem State.modGrp_port_same (s : State) (g : Nat) (f : Grp → Grp) (a : Nat) : (s.modGrp g f).port a = s.port a := rfl
@[simp] theorem State.modGrp_cry_same (s : State) (g : Nat) (f : Grp → Grp) (a : Nat) : (s.modGrp g f).cry a = s.cry a := rfl
@[simp] theorem State.modGrp_cxl_same (s : State) (g : Nat) (f : Grp → Grp) (a : Nat) : (s.modGrp g f).cxl a = s.cxl a := rfl
@[simp] theorem State.modGrp_alive_same (s : State) (g : Nat) (f : Grp → Grp) : (s.modGrp g f).alive = s.alive := rfl
@[simp] theorem State.modGrp_up_same (s : State) (g : Nat) (f : Grp → Grp) (a : Nat) : (s.modGrp g f).up a = s.up a := rfl
@[simp] theorem State.modGrp_ok_same (s : State) (g : Nat) (f : Grp → Grp) (a : Nat) : (s.modGrp g f).ok a = s.ok a := rfl
@[simp] theorem State.modGrp_inReset_same (s : State) (g : Nat) (f : Grp → Grp) (a : Nat) : (s.modGrp g f).inReset a = s.inReset a := rfl
@[simp] theorem State.modGrp_uninjected_same (s : State) (g : Nat) (f : Grp → Grp) : (s.modGrp g f).uninjected = s.uninjected := rfl

/-! ## setInst -/

@[simp] theorem State.setInst_rg_same (s : State) (g q : Nat) (i : Inst) (a : Nat) : (s.setInst g q i).rg a = s.rg a := rfl
@[simp] theorem State.setInst_blk_same (s : State) (g q : Nat) (i : Inst) (a : Nat) : (s.setInst g q i).blk a = s.blk a := rfl
@[simp] theorem State.setInst_dom_same (s : State) (g q : Nat) (i : Inst) (a : Nat) : (s.setInst g q i).dom a = s.dom a := rfl
@[simp] theorem State.setInst_domOn_same (s : State) (g q : Nat) (i : Inst) (a : Nat) : (s.setInst g q i).domOn a = s.domOn a := rfl
@[simp] theorem State.setInst_tile_same (s : State) (g q : Nat) (i : Inst) (a : Nat) : (s.setInst g q i).tile a = s.tile a := rfl
@[simp] theorem State.setInst_tally_same (s : State) (g q : Nat) (i : Inst) (a e : Nat) : (s.setInst g q i).tally a e = s.tally a e := rfl
@[simp] theorem State.setInst_arr_same (s : State) (g q : Nat) (i : Inst) (a : Nat) : (s.setInst g q i).arr a = s.arr a := rfl
@[simp] theorem State.setInst_ctx_same (s : State) (g q : Nat) (i : Inst) (a : Nat) : (s.setInst g q i).ctx a = s.ctx a := rfl
@[simp] theorem State.setInst_port_same (s : State) (g q : Nat) (i : Inst) (a : Nat) : (s.setInst g q i).port a = s.port a := rfl
@[simp] theorem State.setInst_cry_same (s : State) (g q : Nat) (i : Inst) (a : Nat) : (s.setInst g q i).cry a = s.cry a := rfl
@[simp] theorem State.setInst_cxl_same (s : State) (g q : Nat) (i : Inst) (a : Nat) : (s.setInst g q i).cxl a = s.cxl a := rfl
@[simp] theorem State.setInst_grp_same (s : State) (g q : Nat) (i : Inst) (a : Nat) : (s.setInst g q i).grp a = s.grp a := rfl
@[simp] theorem State.setInst_alive_same (s : State) (g q : Nat) (i : Inst) : (s.setInst g q i).alive = s.alive := rfl
@[simp] theorem State.setInst_up_same (s : State) (g q : Nat) (i : Inst) (a : Nat) : (s.setInst g q i).up a = s.up a := rfl
@[simp] theorem State.setInst_ok_same (s : State) (g q : Nat) (i : Inst) (a : Nat) : (s.setInst g q i).ok a = s.ok a := rfl
@[simp] theorem State.setInst_inReset_same (s : State) (g q : Nat) (i : Inst) (a : Nat) : (s.setInst g q i).inReset a = s.inReset a := rfl
@[simp] theorem State.setInst_uninjected_same (s : State) (g q : Nat) (i : Inst) : (s.setInst g q i).uninjected = s.uninjected := rfl

/-! ## modCry -/

@[simp] theorem State.modCry_rg_same (s : State) (t : Nat) (f : Cry → Cry) (a : Nat) : (s.modCry t f).rg a = s.rg a := rfl
@[simp] theorem State.modCry_blk_same (s : State) (t : Nat) (f : Cry → Cry) (a : Nat) : (s.modCry t f).blk a = s.blk a := rfl
@[simp] theorem State.modCry_dom_same (s : State) (t : Nat) (f : Cry → Cry) (a : Nat) : (s.modCry t f).dom a = s.dom a := rfl
@[simp] theorem State.modCry_domOn_same (s : State) (t : Nat) (f : Cry → Cry) (a : Nat) : (s.modCry t f).domOn a = s.domOn a := rfl
@[simp] theorem State.modCry_tile_same (s : State) (t : Nat) (f : Cry → Cry) (a : Nat) : (s.modCry t f).tile a = s.tile a := rfl
@[simp] theorem State.modCry_tally_same (s : State) (t : Nat) (f : Cry → Cry) (a e : Nat) : (s.modCry t f).tally a e = s.tally a e := rfl
@[simp] theorem State.modCry_arr_same (s : State) (t : Nat) (f : Cry → Cry) (a : Nat) : (s.modCry t f).arr a = s.arr a := rfl
@[simp] theorem State.modCry_ctx_same (s : State) (t : Nat) (f : Cry → Cry) (a : Nat) : (s.modCry t f).ctx a = s.ctx a := rfl
@[simp] theorem State.modCry_port_same (s : State) (t : Nat) (f : Cry → Cry) (a : Nat) : (s.modCry t f).port a = s.port a := rfl
@[simp] theorem State.modCry_cxl_same (s : State) (t : Nat) (f : Cry → Cry) (a : Nat) : (s.modCry t f).cxl a = s.cxl a := rfl
@[simp] theorem State.modCry_grp_same (s : State) (t : Nat) (f : Cry → Cry) (a : Nat) : (s.modCry t f).grp a = s.grp a := rfl
@[simp] theorem State.modCry_alive_same (s : State) (t : Nat) (f : Cry → Cry) : (s.modCry t f).alive = s.alive := rfl
@[simp] theorem State.modCry_up_same (s : State) (t : Nat) (f : Cry → Cry) (a : Nat) : (s.modCry t f).up a = s.up a := rfl
@[simp] theorem State.modCry_ok_same (s : State) (t : Nat) (f : Cry → Cry) (a : Nat) : (s.modCry t f).ok a = s.ok a := rfl
@[simp] theorem State.modCry_inReset_same (s : State) (t : Nat) (f : Cry → Cry) (a : Nat) : (s.modCry t f).inReset a = s.inReset a := rfl
@[simp] theorem State.modCry_uninjected_same (s : State) (t : Nat) (f : Cry → Cry) : (s.modCry t f).uninjected = s.uninjected := rfl

/-! ## modCxl -/

@[simp] theorem State.modCxl_rg_same (s : State) (c : Nat) (f : Cxl → Cxl) (a : Nat) : (s.modCxl c f).rg a = s.rg a := rfl
@[simp] theorem State.modCxl_blk_same (s : State) (c : Nat) (f : Cxl → Cxl) (a : Nat) : (s.modCxl c f).blk a = s.blk a := rfl
@[simp] theorem State.modCxl_dom_same (s : State) (c : Nat) (f : Cxl → Cxl) (a : Nat) : (s.modCxl c f).dom a = s.dom a := rfl
@[simp] theorem State.modCxl_domOn_same (s : State) (c : Nat) (f : Cxl → Cxl) (a : Nat) : (s.modCxl c f).domOn a = s.domOn a := rfl
@[simp] theorem State.modCxl_tile_same (s : State) (c : Nat) (f : Cxl → Cxl) (a : Nat) : (s.modCxl c f).tile a = s.tile a := rfl
@[simp] theorem State.modCxl_tally_same (s : State) (c : Nat) (f : Cxl → Cxl) (a e : Nat) : (s.modCxl c f).tally a e = s.tally a e := rfl
@[simp] theorem State.modCxl_arr_same (s : State) (c : Nat) (f : Cxl → Cxl) (a : Nat) : (s.modCxl c f).arr a = s.arr a := rfl
@[simp] theorem State.modCxl_ctx_same (s : State) (c : Nat) (f : Cxl → Cxl) (a : Nat) : (s.modCxl c f).ctx a = s.ctx a := rfl
@[simp] theorem State.modCxl_port_same (s : State) (c : Nat) (f : Cxl → Cxl) (a : Nat) : (s.modCxl c f).port a = s.port a := rfl
@[simp] theorem State.modCxl_cry_same (s : State) (c : Nat) (f : Cxl → Cxl) (a : Nat) : (s.modCxl c f).cry a = s.cry a := rfl
@[simp] theorem State.modCxl_grp_same (s : State) (c : Nat) (f : Cxl → Cxl) (a : Nat) : (s.modCxl c f).grp a = s.grp a := rfl
@[simp] theorem State.modCxl_alive_same (s : State) (c : Nat) (f : Cxl → Cxl) : (s.modCxl c f).alive = s.alive := rfl
@[simp] theorem State.modCxl_up_same (s : State) (c : Nat) (f : Cxl → Cxl) (a : Nat) : (s.modCxl c f).up a = s.up a := rfl
@[simp] theorem State.modCxl_ok_same (s : State) (c : Nat) (f : Cxl → Cxl) (a : Nat) : (s.modCxl c f).ok a = s.ok a := rfl
@[simp] theorem State.modCxl_inReset_same (s : State) (c : Nat) (f : Cxl → Cxl) (a : Nat) : (s.modCxl c f).inReset a = s.inReset a := rfl
@[simp] theorem State.modCxl_uninjected_same (s : State) (c : Nat) (f : Cxl → Cxl) : (s.modCxl c f).uninjected = s.uninjected := rfl

/-! ## modHbm -/

@[simp] theorem State.modHbm_rg_same (s : State) (n : Nat) (f : Hbm → Hbm) (a : Nat) : (s.modHbm n f).rg a = s.rg a := rfl
@[simp] theorem State.modHbm_blk_same (s : State) (n : Nat) (f : Hbm → Hbm) (a : Nat) : (s.modHbm n f).blk a = s.blk a := rfl
@[simp] theorem State.modHbm_dom_same (s : State) (n : Nat) (f : Hbm → Hbm) (a : Nat) : (s.modHbm n f).dom a = s.dom a := rfl
@[simp] theorem State.modHbm_domOn_same (s : State) (n : Nat) (f : Hbm → Hbm) (a : Nat) : (s.modHbm n f).domOn a = s.domOn a := rfl
@[simp] theorem State.modHbm_tile_same (s : State) (n : Nat) (f : Hbm → Hbm) (a : Nat) : (s.modHbm n f).tile a = s.tile a := rfl
@[simp] theorem State.modHbm_tally_same (s : State) (n : Nat) (f : Hbm → Hbm) (a e : Nat) : (s.modHbm n f).tally a e = s.tally a e := rfl
@[simp] theorem State.modHbm_arr_same (s : State) (n : Nat) (f : Hbm → Hbm) (a : Nat) : (s.modHbm n f).arr a = s.arr a := rfl
@[simp] theorem State.modHbm_ctx_same (s : State) (n : Nat) (f : Hbm → Hbm) (a : Nat) : (s.modHbm n f).ctx a = s.ctx a := rfl
@[simp] theorem State.modHbm_port_same (s : State) (n : Nat) (f : Hbm → Hbm) (a : Nat) : (s.modHbm n f).port a = s.port a := rfl
@[simp] theorem State.modHbm_cry_same (s : State) (n : Nat) (f : Hbm → Hbm) (a : Nat) : (s.modHbm n f).cry a = s.cry a := rfl
@[simp] theorem State.modHbm_cxl_same (s : State) (n : Nat) (f : Hbm → Hbm) (a : Nat) : (s.modHbm n f).cxl a = s.cxl a := rfl
@[simp] theorem State.modHbm_grp_same (s : State) (n : Nat) (f : Hbm → Hbm) (a : Nat) : (s.modHbm n f).grp a = s.grp a := rfl
@[simp] theorem State.modHbm_alive_same (s : State) (n : Nat) (f : Hbm → Hbm) : (s.modHbm n f).alive = s.alive := rfl
@[simp] theorem State.modHbm_up_same (s : State) (n : Nat) (f : Hbm → Hbm) (a : Nat) : (s.modHbm n f).up a = s.up a := rfl
@[simp] theorem State.modHbm_ok_same (s : State) (n : Nat) (f : Hbm → Hbm) (a : Nat) : (s.modHbm n f).ok a = s.ok a := rfl
@[simp] theorem State.modHbm_inReset_same (s : State) (n : Nat) (f : Hbm → Hbm) (a : Nat) : (s.modHbm n f).inReset a = s.inReset a := rfl
@[simp] theorem State.modHbm_uninjected_same (s : State) (n : Nat) (f : Hbm → Hbm) : (s.modHbm n f).uninjected = s.uninjected := rfl

/-! ## progress -/

@[simp] theorem State.progress_rg_same (s : State) (b : Nat) (a : Nat) : (s.progress b).rg a = s.rg a := rfl
@[simp] theorem State.progress_dom_same (s : State) (b : Nat) (a : Nat) : (s.progress b).dom a = s.dom a := rfl
@[simp] theorem State.progress_domOn_same (s : State) (b : Nat) (a : Nat) : (s.progress b).domOn a = s.domOn a := rfl
@[simp] theorem State.progress_tile_same (s : State) (b : Nat) (a : Nat) : (s.progress b).tile a = s.tile a := rfl
@[simp] theorem State.progress_tally_same (s : State) (b : Nat) (a e : Nat) : (s.progress b).tally a e = s.tally a e := rfl
@[simp] theorem State.progress_arr_same (s : State) (b : Nat) (a : Nat) : (s.progress b).arr a = s.arr a := rfl
@[simp] theorem State.progress_ctx_same (s : State) (b : Nat) (a : Nat) : (s.progress b).ctx a = s.ctx a := rfl
@[simp] theorem State.progress_port_same (s : State) (b : Nat) (a : Nat) : (s.progress b).port a = s.port a := rfl
@[simp] theorem State.progress_cry_same (s : State) (b : Nat) (a : Nat) : (s.progress b).cry a = s.cry a := rfl
@[simp] theorem State.progress_cxl_same (s : State) (b : Nat) (a : Nat) : (s.progress b).cxl a = s.cxl a := rfl
@[simp] theorem State.progress_grp_same (s : State) (b : Nat) (a : Nat) : (s.progress b).grp a = s.grp a := rfl
@[simp] theorem State.progress_alive_same (s : State) (b : Nat) : (s.progress b).alive = s.alive := rfl

/-! ## wrap -/

@[simp] theorem State.wrap_blk_same (s : State) (o w n : Nat) (a : Nat) : (s.wrap o w n).blk a = s.blk a := rfl
@[simp] theorem State.wrap_dom_same (s : State) (o w n : Nat) (a : Nat) : (s.wrap o w n).dom a = s.dom a := rfl
@[simp] theorem State.wrap_domOn_same (s : State) (o w n : Nat) (a : Nat) : (s.wrap o w n).domOn a = s.domOn a := rfl
@[simp] theorem State.wrap_tile_same (s : State) (o w n : Nat) (a : Nat) : (s.wrap o w n).tile a = s.tile a := rfl
@[simp] theorem State.wrap_tally_same (s : State) (o w n : Nat) (a e : Nat) : (s.wrap o w n).tally a e = s.tally a e := rfl
@[simp] theorem State.wrap_arr_same (s : State) (o w n : Nat) (a : Nat) : (s.wrap o w n).arr a = s.arr a := rfl
@[simp] theorem State.wrap_ctx_same (s : State) (o w n : Nat) (a : Nat) : (s.wrap o w n).ctx a = s.ctx a := rfl
@[simp] theorem State.wrap_port_same (s : State) (o w n : Nat) (a : Nat) : (s.wrap o w n).port a = s.port a := rfl
@[simp] theorem State.wrap_cry_same (s : State) (o w n : Nat) (a : Nat) : (s.wrap o w n).cry a = s.cry a := rfl
@[simp] theorem State.wrap_cxl_same (s : State) (o w n : Nat) (a : Nat) : (s.wrap o w n).cxl a = s.cxl a := rfl
@[simp] theorem State.wrap_grp_same (s : State) (o w n : Nat) (a : Nat) : (s.wrap o w n).grp a = s.grp a := rfl
@[simp] theorem State.wrap_alive_same (s : State) (o w n : Nat) : (s.wrap o w n).alive = s.alive := rfl
@[simp] theorem State.wrap_up_same (s : State) (o w n : Nat) (a : Nat) : (s.wrap o w n).up a = s.up a := rfl
@[simp] theorem State.wrap_ok_same (s : State) (o w n : Nat) (a : Nat) : (s.wrap o w n).ok a = s.ok a := rfl
@[simp] theorem State.wrap_inReset_same (s : State) (o w n : Nat) (a : Nat) : (s.wrap o w n).inReset a = s.inReset a := rfl
@[simp] theorem State.wrap_uninjected_same (s : State) (o w n : Nat) : (s.wrap o w n).uninjected = s.uninjected := rfl

/-! ## sat -/

@[simp] theorem State.sat_blk_same (s : State) (o l w n : Nat) (a : Nat) : (s.sat o l w n).blk a = s.blk a := rfl
@[simp] theorem State.sat_dom_same (s : State) (o l w n : Nat) (a : Nat) : (s.sat o l w n).dom a = s.dom a := rfl
@[simp] theorem State.sat_domOn_same (s : State) (o l w n : Nat) (a : Nat) : (s.sat o l w n).domOn a = s.domOn a := rfl
@[simp] theorem State.sat_tile_same (s : State) (o l w n : Nat) (a : Nat) : (s.sat o l w n).tile a = s.tile a := rfl
@[simp] theorem State.sat_tally_same (s : State) (o l w n : Nat) (a e : Nat) : (s.sat o l w n).tally a e = s.tally a e := rfl
@[simp] theorem State.sat_arr_same (s : State) (o l w n : Nat) (a : Nat) : (s.sat o l w n).arr a = s.arr a := rfl
@[simp] theorem State.sat_ctx_same (s : State) (o l w n : Nat) (a : Nat) : (s.sat o l w n).ctx a = s.ctx a := rfl
@[simp] theorem State.sat_port_same (s : State) (o l w n : Nat) (a : Nat) : (s.sat o l w n).port a = s.port a := rfl
@[simp] theorem State.sat_cry_same (s : State) (o l w n : Nat) (a : Nat) : (s.sat o l w n).cry a = s.cry a := rfl
@[simp] theorem State.sat_cxl_same (s : State) (o l w n : Nat) (a : Nat) : (s.sat o l w n).cxl a = s.cxl a := rfl
@[simp] theorem State.sat_grp_same (s : State) (o l w n : Nat) (a : Nat) : (s.sat o l w n).grp a = s.grp a := rfl
@[simp] theorem State.sat_alive_same (s : State) (o l w n : Nat) : (s.sat o l w n).alive = s.alive := rfl
@[simp] theorem State.sat_up_same (s : State) (o l w n : Nat) (a : Nat) : (s.sat o l w n).up a = s.up a := rfl
@[simp] theorem State.sat_ok_same (s : State) (o l w n : Nat) (a : Nat) : (s.sat o l w n).ok a = s.ok a := rfl
@[simp] theorem State.sat_inReset_same (s : State) (o l w n : Nat) (a : Nat) : (s.sat o l w n).inReset a = s.inReset a := rfl
@[simp] theorem State.sat_uninjected_same (s : State) (o l w n : Nat) : (s.sat o l w n).uninjected = s.uninjected := rfl

/-! ## The record changed, and its neighbours -/

theorem Table.get_set {α : Type} (d : α) (m : Table α) (k i : Nat) (v : α) : (m.set k v).get d i = if i = k then v else m.get d i := by
  split
  · subst_vars; simp
  · exact Table.get_set_ne d m v ‹_›

theorem State.setRg_rg (s : State) (o : Nat) (v : W64) (a : Nat) : (s.setRg o v).rg a = if a = o then v else s.rg a := by
  simp only [State.rg, State.setRg]
  split
  · subst_vars; simp
  · rw [Table.find_set_ne _ _ ‹_›]

theorem State.count_rg (s : State) (o : Nat) (f : W64 → W64) (a : Nat) : (s.count o f).rg a = if a = o then f (s.rg o) else s.rg a :=
  State.setRg_rg _ _ _ _

theorem State.modTile_tile (s : State) (t : Nat) (f : Tile → Tile) (u : Nat) : (s.modTile t f).tile u = if u = t then f (s.tile t) else s.tile u :=
  Table.get_set _ _ _ _ _

theorem State.setTile_tile (s : State) (t : Nat) (x : Tile) (u : Nat) : (s.setTile t x).tile u = if u = t then x else s.tile u :=
  Table.get_set _ _ _ _ _

theorem State.modArr_arr (s : State) (i : Nat) (f : Arr → Arr) (j : Nat) : (s.modArr i f).arr j = if j = i then f (s.arr i) else s.arr j :=
  Table.get_set _ _ _ _ _

theorem State.modPort_port (s : State) (p : Nat) (f : Port → Port) (q : Nat) : (s.modPort p f).port q = if q = p then f (s.port p) else s.port q :=
  Table.get_set _ _ _ _ _

theorem State.setCtx_ctx (s : State) (c : Nat) (x : Ctx) (d : Nat) : (s.setCtx c x).ctx d = if d = c then x else s.ctx d :=
  Table.get_set _ _ _ _ _

theorem State.setBlk_blk (s : State) (b : Nat) (x : Blk) (c : Nat) : (s.setBlk b x).blk c = if c = b then x else s.blk c :=
  Table.get_set _ _ _ _ _

theorem State.setDom_dom (s : State) (d : Nat) (x : Dom) (e : Nat) : (s.setDom d x).dom e = if e = d then x else s.dom e := by
  simp only [State.dom, State.setDom]
  split
  · subst_vars; simp
  · rw [Table.find_set_ne _ _ ‹_›]

theorem State.modCry_cry (s : State) (t : Nat) (f : Cry → Cry) (u : Nat) : (s.modCry t f).cry u = if u = t then f (s.cry t) else s.cry u :=
  Table.get_set _ _ _ _ _

theorem State.modCxl_cxl (s : State) (c : Nat) (f : Cxl → Cxl) (d : Nat) : (s.modCxl c f).cxl d = if d = c then f (s.cxl c) else s.cxl d :=
  Table.get_set _ _ _ _ _

theorem State.modGrp_grp (s : State) (g : Nat) (f : Grp → Grp) (h : Nat) : (s.modGrp g f).grp h = if h = g then f (s.grp g) else s.grp h :=
  Table.get_set _ _ _ _ _

theorem State.progress_blk (s : State) (b c : Nat) :
    (s.progress b).blk c = if c = b then { s.blk b with progress := wrapAdd 32 (s.blk b).progress 1 } else s.blk c := State.setBlk_blk _ _ _ _

/-- Progress changes no answer to whether a block works. -/
@[simp] theorem State.progress_ok_same (s : State) (b c : Nat) : (s.progress b).ok c = s.ok c := by
  simp only [State.ok, State.up, State.inReset, State.inS3, State.broken, Blk.severity, State.progress_domOn_same, State.progress_blk]
  split <;> simp_all <;> rfl

theorem State.wrap_rg (s : State) (o w n a : Nat) :
    (s.wrap o w n).rg a = if a = o then BitVec.ofNat 64 (wrapAdd w (s.rg o).toNat n) else s.rg a := State.setRg_rg _ _ _ _

@[simp] theorem State.setTally_tally_self (s : State) (t k : Nat) (x : Tally) : (s.setTally t k x).tally t k = x := by
  simp [State.tally, State.setTally, State.modTile_tile]

end Sys2Proof.Machine
end

