-- ==== Sys2Proof/Laws/Cycle.lean ====
section
/-!
SUPPORT. The end of a cycle adds nothing where nothing is due, and what a command answers on a device that is powered and out of reset.
-/
namespace Sys2Proof.Machine

theorem Table.get_zero (m : Table Nat) (h : m.all (fun y => y.2 == 0) = true) (k : Nat) : m.get 0 k = 0 := by
  induction m with
  | nil => rfl
  | cons y m ih =>
    obtain ⟨j, v⟩ := y
    simp only [List.all_cons, Bool.and_eq_true, beq_iff_eq] at h
    simp only [Table.get]
    split
    · exact h.1
    · exact ih h.2

theorem Table.get_all {α : Type} (p : α → Bool) (d : α) (m : Table α) (h : m.all (fun x => p x.2) = true) (hd : p d = true) (k : Nat) :
    p (m.get d k) = true := by
  induction m with
  | nil => exact hd
  | cons y m ih =>
    obtain ⟨j, v⟩ := y
    simp only [List.all_cons, Bool.and_eq_true] at h
    simp only [Table.get]
    split
    · exact h.1
    · exact ih h.2

/-- With no injected failure pending, a detector finds none. -/
theorem State.takeInject_uninjected (s : State) (h : s.uninjected = true) (b d : Nat) : s.takeInject b d = (false, s) := by
  have h1 := Table.get_all (fun x : Blk => x.inject.all fun y => y.2 == 0) {} s.blks h rfl b
  have h2 := Table.get_zero _ h1 d
  simp only [State.takeInject, State.blk, h2]

theorem State.parityOne_uninjected (s : State) (h : s.uninjected = true) (b d : Nat) (f : State → State) : s.parityOne b d f = s := by
  simp [State.parityOne, s.takeInject_uninjected h]

theorem foldl_same {α β : Type} (f : β → α → β) (b : β) (l : List α) (h : ∀ a ∈ l, f b a = b) : l.foldl f b = b := by
  induction l with
  | nil => rfl
  | cons a l ih =>
    rw [List.foldl_cons, h a (by simp)]
    exact ih fun x hx => h x (by simp [hx])

theorem State.parityTick_uninjected (s : State) (h : s.uninjected = true) : s.parityTick = s := by
  have e (a : State) (l : List Nat) (f : State → Nat → State) (hf : ∀ t ∈ l, f a t = a) : l.foldl f a = a := foldl_same f a l hf
  simp only [State.parityTick, s.parityOne_uninjected h]
  rw [e s (List.range 4) _ fun q _ => s.parityOne_uninjected h _ _ _]
  exact e s (List.range 8) _ fun t _ => by simp [s.parityOne_uninjected h]

theorem State.refusalTick_uninjected (s : State) (h : s.uninjected = true) : s.refusalTick = s := by
  refine foldl_same _ _ _ fun x _ => foldl_same _ _ _ fun y _ => ?_
  simp [s.takeInject_uninjected h]

theorem State.timerTick_uninjected (s : State) (h : s.uninjected = true) (b d : Nat) (runs : List Nat) (late : State → Nat → State) :
    s.timerTick b d runs late = s := by
  refine foldl_same _ _ _ fun x _ => ?_
  simp [s.takeInject_uninjected h]

theorem State.timersTick_uninjected (s : State) (h : s.uninjected = true) : s.timersTick = s := by
  simp only [State.timersTick, s.timerTick_uninjected h]
  exact foldl_same _ _ _ fun c _ => s.timerTick_uninjected h _ _ _ _

theorem State.stepsDue_none (s : State) (h : s.newSteps = []) : s.stepsDue = s := by
  cases s; simp_all [State.stepsDue]

theorem State.domEvents_none (s : State) (h : s.newDoms = []) : s.domEvents = s := by
  cases s; simp_all [State.domEvents]

theorem State.settleOnce_none (s : State) (h : s.newSteps = []) (h' : s.newDoms = []) : s.settleOnce = s := by
  simp [State.settleOnce, s.stepsDue_none h, s.domEvents_none h']

theorem State.teardownResume_none (s : State) (h : s.ctxs.all (fun x => x.2.st != 3) = true) : s.teardownResume = s := by
  refine foldl_same _ _ _ fun x hx => ?_
  have := List.all_eq_true.mp h x hx
  simp_all

theorem State.cryTick_none (s : State) (h : s.crys.all (fun x => !x.2.active || x.2.st == 3 || x.2.st == 4) = true) (t : Nat) :
    s.cryTick t = s := by
  have h1 := Table.get_all (fun x : Cry => !x.active || x.st == 3 || x.st == 4) {} s.crys h rfl t
  have h2 : (s.cry t) = s.crys.get {} t := rfl
  simp only [State.cryTick, State.cryKick, State.crySkipAll, h2]
  revert h1
  cases (s.crys.get {} t).active <;> simp
  intro h1
  rcases h1 with h1 | h1 <;> simp [h1]

theorem State.flush_none (s : State) (h : s.flushed = true) (h' : (s.hst.mbPlaced || s.hst.mbOut.isEmpty) = true) : s.flush = s := by
  simp only [State.flushed, Bool.and_eq_true, List.isEmpty_iff] at h
  have e : ({ s with newEvts := [], newVecs := [] } : State) = s := by cases s; simp_all
  simp only [State.flush, h.1, h.2, List.foldl_nil, e, State.placeOut]
  split
  · simp_all
  · rfl

theorem State.moversHear_none (s : State) (h : s.swc.ended = []) : s.moversHear = s := by
  have e : ({ s.swc with ended := [] } : Swc) = s.swc := by rw [← h]
  simp only [State.moversHear, h, List.foldl_nil, State.modSwc, e]

/-- The end of the cycle adds nothing where nothing is due. -/
theorem State.endCycle_settled (s : State) (h : s.settled = true) : s.endCycle = s := by
  simp only [State.settled, Bool.and_eq_true, bne_iff_ne, ne_eq, Bool.not_eq_true', List.isEmpty_iff] at h
  obtain ⟨⟨⟨⟨⟨⟨⟨⟨⟨⟨⟨⟨hf, hs⟩, hd⟩, he⟩, hc⟩, hl⟩, hw⟩, ht⟩, hk⟩, hr⟩, hy⟩, hu⟩, hm⟩ := h
  have e1 := s.settleOnce_none hs hd
  have e2 := s.teardownResume_none (by simpa using hc)
  have e3 : s.passedChecks = s := by simp [State.passedChecks, hl, hw]
  have e4 : s.testTick = s := by simp [State.testTick, ht]
  have e5 : s.levelWakes = s := by simp [State.levelWakes, hk, hr]
  have e6 : (List.range 8).foldl State.cryTick s = s := foldl_same _ _ _ fun t _ => s.cryTick_none hy t
  have e0 := s.moversHear_none he
  simp only [State.endCycle, e0, e1, e2, e3, e4, e5, e6, s.parityTick_uninjected hu, s.refusalTick_uninjected hu,
    s.timersTick_uninjected hu, s.flush_none hf hm]

theorem State.uninjected_setBlk (s : State) (b : Nat) (x : Blk) (h : s.uninjected = true) (hx : x.inject.all (fun y => y.2 == 0) = true) :
    (s.setBlk b x).uninjected = true := Table.all_set (fun x : Blk => x.inject.all fun y => y.2 == 0) s.blks b x h hx

/-- A block without pending injections. -/
theorem State.uninjected_blk (s : State) (h : s.uninjected = true) (b : Nat) : (s.blk b).inject.all (fun y => y.2 == 0) = true :=
  Table.get_all (fun x : Blk => x.inject.all fun y => y.2 == 0) {} s.blks h rfl b

theorem State.uninjected_progress (s : State) (b : Nat) (h : s.uninjected = true) : (s.progress b).uninjected = true :=
  s.uninjected_setBlk _ _ h (s.uninjected_blk h b)

/-- A command whose meaning acts with `f` answers with the effect `f s` on a device that is alive. -/
theorem answers_of {c : Instr} {s t : State} {f : State → State} (h : exec c s = act s f) (ha : s.alive = true) (ht : f s = t) :
    Answers c s t := by
  subst ht
  have e : exec c s = .next (f s).endCycle := by simp [h, act, ha]
  exact ⟨e, fun hs => by rw [e, State.endCycle_settled _ hs]⟩

/-- A pin event answers with the effect `f s` where the device is alive after it. -/
theorem answers_pin {c : Instr} {s t : State} {f : State → State} (h : exec c s = actPin s f) (ht : f s = t) (ha : t.alive = true) :
    Answers c s t := by
  subst ht
  have e : exec c s = .next (f s).endCycle := by simp [h, actPin, ha]
  exact ⟨e, fun hs => by rw [e, State.endCycle_settled _ hs]⟩

end Sys2Proof.Machine
end

