-- ==== Sys2Proof/Laws/Flag.lean ====
section
/-!
SUPPORT. Everything that the report of a detector can change: the block's record, the events, vectors and ladder steps of the cycle, and, where it
reaches S4, the device, DEV_S4_CAUSE and the messages; every other field stays.
-/
namespace Sys2Proof.Machine

/-- `t` differs from `s` at most in what a report changes. -/
def Reported (s t : State) : Prop :=
  ∃ blks bits evts vecs steps regs dev hst,
    t = { s with blks := blks, newBits := bits, newEvts := evts, newVecs := vecs, newSteps := steps, regs := regs, dev := dev, hst := hst }

theorem Reported.refl (s : State) : Reported s s := ⟨_, _, _, _, _, _, _, _, rfl⟩

theorem Reported.setBlk {s t : State} (h : Reported s t) (b : Nat) (x : Blk) : Reported s (t.setBlk b x) := by
  obtain ⟨_, _, _, _, _, _, _, _, rfl⟩ := h; exact ⟨_, _, _, _, _, _, _, _, rfl⟩

theorem Reported.setRg {s t : State} (h : Reported s t) (o : Nat) (v : W64) : Reported s (t.setRg o v) := by
  obtain ⟨_, _, _, _, _, _, _, _, rfl⟩ := h; exact ⟨_, _, _, _, _, _, _, _, rfl⟩

theorem Reported.setsBits {s t : State} (h : Reported s t) (o : Nat) (v : W64) : Reported s (t.setsBits o v) := by
  obtain ⟨_, _, _, _, _, _, _, _, rfl⟩ := h; exact ⟨_, _, _, _, _, _, _, _, rfl⟩

theorem Reported.capture {s t : State} (h : Reported s t) (e : Evt) : Reported s (t.capture e) := by
  obtain ⟨_, _, _, _, _, _, _, _, rfl⟩ := h; exact ⟨_, _, _, _, _, _, _, _, rfl⟩

theorem Reported.wantStep {s t : State} (h : Reported s t) (b n : Nat) : Reported s (t.wantStep b n) := by
  obtain ⟨_, _, _, _, _, _, _, _, rfl⟩ := h; exact ⟨_, _, _, _, _, _, _, _, rfl⟩

theorem Reported.wantVec {s t : State} (h : Reported s t) (v : Nat) : Reported s (t.wantVec v) := by
  unfold State.wantVec
  split
  · exact h
  · obtain ⟨_, _, _, _, _, _, _, _, rfl⟩ := h; exact ⟨_, _, _, _, _, _, _, _, rfl⟩

theorem Reported.s4 {s t : State} (h : Reported s t) (b d : Nat) (w : Bool) : Reported s (t.s4 b d w) := by
  unfold State.s4
  split
  · exact h
  · obtain ⟨_, _, _, _, _, _, _, _, rfl⟩ := h
    dsimp only
    split
    · exact ⟨_, _, _, _, _, _, _, _, rfl⟩
    · exact ⟨_, _, _, _, _, _, _, _, rfl⟩

/-- What a report can change. -/
theorem State.flag_reported (s : State) (b d : Nat) (r : Rpt) : Reported s (s.flag b d r) := by
  unfold State.flag
  extract_lets base evt k outstanding eff s1 s0 s2 s3
  split
  · exact (Reported.refl s).capture _
  split
  · exact (Reported.refl s).capture _
  split
  · exact Reported.refl s
  have h2 : Reported s s2 := (((Reported.refl s).setBlk _ _).setsBits _ _).capture _
  have h3 : Reported s s3 := by
    simp only [s3]
    split
    · exact h2
    · exact h2.wantVec _
  split
  · exact h3.s4 _ _ _
  split
  · split
    · exact h3.wantStep _ _
    · exact h3
  · exact h3

/-- What a report leaves of anything that does not read what it changes. -/
theorem Reported.field {α : Type} (f : State → α) {s t : State}
    (hf : ∀ blks bits evts vecs steps regs dev hst,
      f { s with blks := blks, newBits := bits, newEvts := evts, newVecs := vecs, newSteps := steps, regs := regs, dev := dev, hst := hst } = f s)
    (h : Reported s t) : f t = f s := by
  obtain ⟨_, _, _, _, _, _, _, _, h⟩ := h
  rw [h]
  exact hf _ _ _ _ _ _ _ _

@[simp] theorem State.flag_pending (s : State) (b d : Nat) (r : Rpt) : (s.flag b d r).pending = s.pending :=
  Reported.field (fun x : State => x.pending) (fun _ _ _ _ _ _ _ _ => rfl) (s.flag_reported b d r)

@[simp] theorem State.flag_out (s : State) (b d : Nat) (r : Rpt) : (s.flag b d r).out = s.out :=
  Reported.field (fun x : State => x.out) (fun _ _ _ _ _ _ _ _ => rfl) (s.flag_reported b d r)

@[simp] theorem State.flag_free (s : State) (b d : Nat) (r : Rpt) : (s.flag b d r).free = s.free :=
  Reported.field (fun x : State => x.free) (fun _ _ _ _ _ _ _ _ => rfl) (s.flag_reported b d r)

@[simp] theorem State.flag_cclk (s : State) (b d : Nat) (r : Rpt) : (s.flag b d r).cclk = s.cclk :=
  Reported.field (fun x : State => x.cclk) (fun _ _ _ _ _ _ _ _ => rfl) (s.flag_reported b d r)

@[simp] theorem State.flag_pins (s : State) (b d : Nat) (r : Rpt) : (s.flag b d r).pins = s.pins :=
  Reported.field (fun x : State => x.pins) (fun _ _ _ _ _ _ _ _ => rfl) (s.flag_reported b d r)

@[simp] theorem State.flag_doms (s : State) (b d : Nat) (r : Rpt) : (s.flag b d r).doms = s.doms :=
  Reported.field (fun x : State => x.doms) (fun _ _ _ _ _ _ _ _ => rfl) (s.flag_reported b d r)

@[simp] theorem State.flag_lastRamp (s : State) (b d : Nat) (r : Rpt) : (s.flag b d r).lastRamp = s.lastRamp :=
  Reported.field (fun x : State => x.lastRamp) (fun _ _ _ _ _ _ _ _ => rfl) (s.flag_reported b d r)

@[simp] theorem State.flag_rcd (s : State) (b d : Nat) (r : Rpt) : (s.flag b d r).rcd = s.rcd :=
  Reported.field (fun x : State => x.rcd) (fun _ _ _ _ _ _ _ _ => rfl) (s.flag_reported b d r)

@[simp] theorem State.flag_newDoms (s : State) (b d : Nat) (r : Rpt) : (s.flag b d r).newDoms = s.newDoms :=
  Reported.field (fun x : State => x.newDoms) (fun _ _ _ _ _ _ _ _ => rfl) (s.flag_reported b d r)

@[simp] theorem State.flag_faultOf (s : State) (b d : Nat) (r : Rpt) : (s.flag b d r).faultOf = s.faultOf :=
  Reported.field (fun x : State => x.faultOf) (fun _ _ _ _ _ _ _ _ => rfl) (s.flag_reported b d r)

@[simp] theorem State.flag_ld (s : State) (b d : Nat) (r : Rpt) : (s.flag b d r).ld = s.ld :=
  Reported.field (fun x : State => x.ld) (fun _ _ _ _ _ _ _ _ => rfl) (s.flag_reported b d r)

@[simp] theorem State.flag_img (s : State) (b d : Nat) (r : Rpt) : (s.flag b d r).img = s.img :=
  Reported.field (fun x : State => x.img) (fun _ _ _ _ _ _ _ _ => rfl) (s.flag_reported b d r)

@[simp] theorem State.flag_tiles (s : State) (b d : Nat) (r : Rpt) : (s.flag b d r).tiles = s.tiles :=
  Reported.field (fun x : State => x.tiles) (fun _ _ _ _ _ _ _ _ => rfl) (s.flag_reported b d r)

@[simp] theorem State.flag_arrs (s : State) (b d : Nat) (r : Rpt) : (s.flag b d r).arrs = s.arrs :=
  Reported.field (fun x : State => x.arrs) (fun _ _ _ _ _ _ _ _ => rfl) (s.flag_reported b d r)

@[simp] theorem State.flag_ctxs (s : State) (b d : Nat) (r : Rpt) : (s.flag b d r).ctxs = s.ctxs :=
  Reported.field (fun x : State => x.ctxs) (fun _ _ _ _ _ _ _ _ => rfl) (s.flag_reported b d r)

@[simp] theorem State.flag_ports (s : State) (b d : Nat) (r : Rpt) : (s.flag b d r).ports = s.ports :=
  Reported.field (fun x : State => x.ports) (fun _ _ _ _ _ _ _ _ => rfl) (s.flag_reported b d r)

@[simp] theorem State.flag_paths (s : State) (b d : Nat) (r : Rpt) : (s.flag b d r).paths = s.paths :=
  Reported.field (fun x : State => x.paths) (fun _ _ _ _ _ _ _ _ => rfl) (s.flag_reported b d r)

@[simp] theorem State.flag_swc (s : State) (b d : Nat) (r : Rpt) : (s.flag b d r).swc = s.swc :=
  Reported.field (fun x : State => x.swc) (fun _ _ _ _ _ _ _ _ => rfl) (s.flag_reported b d r)

@[simp] theorem State.flag_shapes (s : State) (b d : Nat) (r : Rpt) : (s.flag b d r).shapes = s.shapes :=
  Reported.field (fun x : State => x.shapes) (fun _ _ _ _ _ _ _ _ => rfl) (s.flag_reported b d r)

@[simp] theorem State.flag_newShapes (s : State) (b d : Nat) (r : Rpt) : (s.flag b d r).newShapes = s.newShapes :=
  Reported.field (fun x : State => x.newShapes) (fun _ _ _ _ _ _ _ _ => rfl) (s.flag_reported b d r)

@[simp] theorem State.flag_retired (s : State) (b d : Nat) (r : Rpt) : (s.flag b d r).retired = s.retired :=
  Reported.field (fun x : State => x.retired) (fun _ _ _ _ _ _ _ _ => rfl) (s.flag_reported b d r)

@[simp] theorem State.flag_vcBobs (s : State) (b d : Nat) (r : Rpt) : (s.flag b d r).vcBobs = s.vcBobs :=
  Reported.field (fun x : State => x.vcBobs) (fun _ _ _ _ _ _ _ _ => rfl) (s.flag_reported b d r)

@[simp] theorem State.flag_bitmapBad (s : State) (b d : Nat) (r : Rpt) : (s.flag b d r).bitmapBad = s.bitmapBad :=
  Reported.field (fun x : State => x.bitmapBad) (fun _ _ _ _ _ _ _ _ => rfl) (s.flag_reported b d r)

@[simp] theorem State.flag_insts (s : State) (b d : Nat) (r : Rpt) : (s.flag b d r).insts = s.insts :=
  Reported.field (fun x : State => x.insts) (fun _ _ _ _ _ _ _ _ => rfl) (s.flag_reported b d r)

@[simp] theorem State.flag_grps (s : State) (b d : Nat) (r : Rpt) : (s.flag b d r).grps = s.grps :=
  Reported.field (fun x : State => x.grps) (fun _ _ _ _ _ _ _ _ => rfl) (s.flag_reported b d r)

@[simp] theorem State.flag_crys (s : State) (b d : Nat) (r : Rpt) : (s.flag b d r).crys = s.crys :=
  Reported.field (fun x : State => x.crys) (fun _ _ _ _ _ _ _ _ => rfl) (s.flag_reported b d r)

@[simp] theorem State.flag_cxls (s : State) (b d : Nat) (r : Rpt) : (s.flag b d r).cxls = s.cxls :=
  Reported.field (fun x : State => x.cxls) (fun _ _ _ _ _ _ _ _ => rfl) (s.flag_reported b d r)

@[simp] theorem State.flag_hbms (s : State) (b d : Nat) (r : Rpt) : (s.flag b d r).hbms = s.hbms :=
  Reported.field (fun x : State => x.hbms) (fun _ _ _ _ _ _ _ _ => rfl) (s.flag_reported b d r)

@[simp] theorem State.flag_cyc (s : State) (b d : Nat) (r : Rpt) : (s.flag b d r).cyc = s.cyc :=
  Reported.field (fun x : State => x.cyc) (fun _ _ _ _ _ _ _ _ => rfl) (s.flag_reported b d r)

@[simp] theorem State.flag_bobUps (s : State) (b d : Nat) (r : Rpt) : (s.flag b d r).bobUps = s.bobUps :=
  Reported.field (fun x : State => x.bobUps) (fun _ _ _ _ _ _ _ _ => rfl) (s.flag_reported b d r)

@[simp] theorem State.flag_upsets (s : State) (b d : Nat) (r : Rpt) : (s.flag b d r).upsets = s.upsets :=
  Reported.field (fun x : State => x.upsets) (fun _ _ _ _ _ _ _ _ => rfl) (s.flag_reported b d r)

@[simp] theorem State.flag_mem (s : State) (b d : Nat) (r : Rpt) : (s.flag b d r).mem = s.mem :=
  Reported.field (fun x : State => x.mem) (fun _ _ _ _ _ _ _ _ => rfl) (s.flag_reported b d r)

@[simp] theorem State.flag_undef (s : State) (b d : Nat) (r : Rpt) : (s.flag b d r).undef = s.undef :=
  Reported.field (fun x : State => x.undef) (fun _ _ _ _ _ _ _ _ => rfl) (s.flag_reported b d r)

@[simp] theorem State.flag_striped (s : State) (b d : Nat) (r : Rpt) : (s.flag b d r).striped = s.striped :=
  Reported.field (fun x : State => x.striped) (fun _ _ _ _ _ _ _ _ => rfl) (s.flag_reported b d r)

@[simp] theorem State.flag_tile_same (s : State) (b d : Nat) (r : Rpt) (a : Nat) : (s.flag b d r).tile a = s.tile a :=
  Reported.field (fun x : State => x.tile a) (fun _ _ _ _ _ _ _ _ => rfl) (s.flag_reported b d r)

@[simp] theorem State.flag_tally_same (s : State) (b d : Nat) (r : Rpt) (a e : Nat) : (s.flag b d r).tally a e = s.tally a e :=
  Reported.field (fun x : State => x.tally a e) (fun _ _ _ _ _ _ _ _ => rfl) (s.flag_reported b d r)

@[simp] theorem State.flag_arr_same (s : State) (b d : Nat) (r : Rpt) (a : Nat) : (s.flag b d r).arr a = s.arr a :=
  Reported.field (fun x : State => x.arr a) (fun _ _ _ _ _ _ _ _ => rfl) (s.flag_reported b d r)

@[simp] theorem State.flag_ctx_same (s : State) (b d : Nat) (r : Rpt) (a : Nat) : (s.flag b d r).ctx a = s.ctx a :=
  Reported.field (fun x : State => x.ctx a) (fun _ _ _ _ _ _ _ _ => rfl) (s.flag_reported b d r)

@[simp] theorem State.flag_port_same (s : State) (b d : Nat) (r : Rpt) (a : Nat) : (s.flag b d r).port a = s.port a :=
  Reported.field (fun x : State => x.port a) (fun _ _ _ _ _ _ _ _ => rfl) (s.flag_reported b d r)

@[simp] theorem State.flag_cry_same (s : State) (b d : Nat) (r : Rpt) (a : Nat) : (s.flag b d r).cry a = s.cry a :=
  Reported.field (fun x : State => x.cry a) (fun _ _ _ _ _ _ _ _ => rfl) (s.flag_reported b d r)

@[simp] theorem State.flag_cxl_same (s : State) (b d : Nat) (r : Rpt) (a : Nat) : (s.flag b d r).cxl a = s.cxl a :=
  Reported.field (fun x : State => x.cxl a) (fun _ _ _ _ _ _ _ _ => rfl) (s.flag_reported b d r)

@[simp] theorem State.flag_grp_same (s : State) (b d : Nat) (r : Rpt) (a : Nat) : (s.flag b d r).grp a = s.grp a :=
  Reported.field (fun x : State => x.grp a) (fun _ _ _ _ _ _ _ _ => rfl) (s.flag_reported b d r)

@[simp] theorem State.flag_dom_same (s : State) (b d : Nat) (r : Rpt) (a : Nat) : (s.flag b d r).dom a = s.dom a :=
  Reported.field (fun x : State => x.dom a) (fun _ _ _ _ _ _ _ _ => rfl) (s.flag_reported b d r)

@[simp] theorem State.flag_domOn_same (s : State) (b d : Nat) (r : Rpt) (a : Nat) : (s.flag b d r).domOn a = s.domOn a :=
  Reported.field (fun x : State => x.domOn a) (fun _ _ _ _ _ _ _ _ => rfl) (s.flag_reported b d r)

@[simp] theorem State.flag_alive_same (s : State) (b d : Nat) (r : Rpt) : (s.flag b d r).alive = s.alive :=
  Reported.field (fun x : State => x.alive) (fun _ _ _ _ _ _ _ _ => rfl) (s.flag_reported b d r)

end Sys2Proof.Machine
end

