-- ==== Sys2Proof/Laws/Memory.lean ====
section
/-!
SUPPORT. Memory: every operation that changes it keeps its canonical form, a byte reads as it was last written, and a write leaves every byte
outside it as it was.
-/
namespace Sys2Proof.Machine

theorem Memory.wf_reset : Memory.wf State.reset.mem = true := rfl

theorem Memory.wf_memSet (m : List Host.Cell) (o : Nat) (b : Byte) (h : Memory.wf m = true) : Memory.wf (memSet m o b) = true :=
  Table.rising_set m o b h

theorem Memory.wf_memPut (bs : List Byte) : ∀ (m : List Host.Cell) (o : Nat), Memory.wf m = true → Memory.wf (memPut m o bs) = true := by
  induction bs with
  | nil => intro m o h; simpa [memPut] using h
  | cons b bs ih => intro m o h; simpa [memPut] using ih _ _ (Memory.wf_memSet m o b h)

theorem Memory.wf_filter (m : List Host.Cell) (p : Host.Cell → Bool) (h : Memory.wf m = true) : Memory.wf (m.filter p) = true :=
  Table.rising_filter m p h

theorem Memory.wf_forget (s : State) (p : Nat → Bool) (h : Memory.wf s.mem = true) : Memory.wf (s.forget p).mem = true :=
  Memory.wf_filter _ _ h

/-- A byte outside the bytes stored reads as before. -/
theorem memPut_find_out (bs : List Byte) : ∀ (m : List Host.Cell) (o a : Nat), (a < o ∨ o + bs.length ≤ a) →
    Table.find (memPut m o bs) a = Table.find m a := by
  induction bs with
  | nil => intro m o a _; rfl
  | cons b bs ih =>
    intro m o a h
    simp only [List.length_cons] at h
    rw [memPut, ih _ _ _ (by omega), memSet, Table.find_set_ne _ _ (by omega)]

/-- A byte stored reads as stored. -/
theorem memPut_find_in (bs : List Byte) : ∀ (m : List Host.Cell) (o i : Nat) (h : i < bs.length),
    Table.find (memPut m o bs) (o + i) = some bs[i] := by
  induction bs with
  | nil => intro m o i h; simp at h
  | cons b bs ih =>
    intro m o i h
    cases i with
    | zero => rw [memPut, memPut_find_out _ _ _ _ (by omega)]; simp [memSet]
    | succ i =>
      have := ih (memSet m o b) (o + 1) i (by simpa using h)
      rw [memPut]
      rw [show o + (i + 1) = o + 1 + i by omega, this]
      simp

/-! ## What a read finds -/

theorem State.rd_length (s : State) : ∀ (n o : Nat) (bs : List Byte), s.rd o n = some bs → bs.length = n := by
  intro n
  induction n with
  | zero => intro o bs h; simp [State.rd] at h; simp [← h]
  | succ n ih =>
    intro o bs h
    simp only [State.rd] at h
    split at h
    · rename_i b cs hb hc
      simp only [Option.some.injEq] at h
      simp [← h, ih _ _ hc]
    · simp at h

theorem State.rd_isSome (s : State) : ∀ n o, (s.rd o n).isSome = true ↔ ∀ i, i < n → (s.byteAt (o + i)).isSome = true := by
  intro n
  induction n with
  | zero => intro o; simp [State.rd]
  | succ n ih =>
    intro o
    have hs : (s.rd o (n + 1)).isSome = true ↔ (s.byteAt o).isSome = true ∧ (s.rd (o + 1) n).isSome = true := by
      simp only [State.rd]
      cases s.byteAt o <;> cases s.rd (o + 1) n <;> simp
    rw [hs, ih]
    constructor
    · rintro ⟨h0, h1⟩ i hi
      cases i with
      | zero => exact h0
      | succ i => have := h1 i (by omega); rwa [show o + 1 + i = o + (i + 1) by omega] at this
    · intro h
      refine ⟨h 0 (by omega), fun i hi => ?_⟩
      have := h (i + 1) (by omega)
      rwa [show o + (i + 1) = o + 1 + i by omega] at this

/-- `t` has the memory of `s`, byte for byte and word for word. -/
structure MemSame (s t : State) : Prop where
  mem : t.mem = s.mem
  upsets : t.upsets = s.upsets
  undef : t.undef = s.undef
  striped : t.striped = s.striped

theorem MemSame.refl (s : State) : MemSame s s := ⟨rfl, rfl, rfl, rfl⟩

theorem MemSame.trans {s t u : State} (h : MemSame s t) (g : MemSame t u) : MemSame s u :=
  ⟨g.mem.trans h.mem, g.upsets.trans h.upsets, g.undef.trans h.undef, g.striped.trans h.striped⟩

/-- `t` reads as `s` does, and keeps the canonical form of memory; a word that read with an error is at most put right. -/
structure ReadsSame (s t : State) : Prop where
  byte : ∀ a, t.byteAt a = s.byteAt a
  ups : ∀ w, t.upsets.find w = s.upsets.find w ∨ t.upsets.find w = none
  striped : t.striped = s.striped
  wf : Memory.wf s.mem = true → Memory.wf t.mem = true

theorem ReadsSame.refl (s : State) : ReadsSame s s := ⟨fun _ => rfl, fun _ => .inl rfl, rfl, id⟩

theorem ReadsSame.trans {s t u : State} (h : ReadsSame s t) (g : ReadsSame t u) : ReadsSame s u :=
  ⟨fun a => (g.byte a).trans (h.byte a),
   fun w => (g.ups w).elim (fun e => (h.ups w).imp (e.trans ·) (e.trans ·)) .inr,
   g.striped.trans h.striped, fun k => g.wf (h.wf k)⟩

theorem place_of_striped {s t : State} (h : t.striped = s.striped) (o : Nat) : t.place_ o = s.place_ o := by
  unfold State.place_; rw [h]

theorem MemSame.byteAt {s t : State} (h : MemSame s t) (a : Nat) : t.byteAt a = s.byteAt a := by
  have hp := place_of_striped h.striped a
  simp only [State.byteAt, State.rawByte, h.mem, h.upsets, h.undef, hp]

theorem MemSame.reads {s t : State} (h : MemSame s t) : ReadsSame s t :=
  ⟨h.byteAt, fun w => .inl (by rw [h.upsets]), h.striped, fun k => by rw [h.mem]; exact k⟩

theorem ReadsSame.rd {s t : State} (h : ReadsSame s t) : ∀ n o, t.rd o n = s.rd o n := by
  intro n
  induction n with
  | zero => intro o; rfl
  | succ n ih => intro o; simp only [State.rd, h.byte, ih]

theorem ReadsSame.wordOk {s t : State} (h : ReadsSame s t) (o : Nat) : t.wordOk o = s.wordOk o := by
  simp only [State.wordOk, h.rd]

theorem foldl_reads {α : Type} (f : State → α → State) (s : State) (l : List α) (h : ∀ a ∈ l, ∀ t, ReadsSame t (f t a)) :
    ReadsSame s (l.foldl f s) := by
  induction l generalizing s with
  | nil => exact .refl s
  | cons a l ih =>
    rw [List.foldl_cons]
    exact (h a (by simp) s).trans (ih _ fun b hb => h b (by simp [hb]))

theorem foldl_memSame {α : Type} (f : State → α → State) (s : State) (l : List α) (h : ∀ a, ∀ t, MemSame t (f t a)) :
    MemSame s (l.foldl f s) := by
  induction l generalizing s with
  | nil => exact .refl s
  | cons a l ih => rw [List.foldl_cons]; exact (h a s).trans (ih _)

theorem MemSame.sat (s : State) (o l w n : Nat) : MemSame s (s.sat o l w n) := ⟨rfl, rfl, rfl, rfl⟩

theorem MemSame.setRg (s : State) (o : Nat) (v : W64) : MemSame s (s.setRg o v) := ⟨rfl, rfl, rfl, rfl⟩

theorem MemSame.progress (s : State) (b : Nat) : MemSame s (s.progress b) := ⟨rfl, rfl, rfl, rfl⟩

theorem MemSame.flag (s : State) (b d : Nat) (r : Rpt) : MemSame s (s.flag b d r) := ⟨by simp, by simp, by simp, by simp⟩

theorem MemSame.takeInject (s : State) (b d : Nat) : MemSame s (s.takeInject b d).2 := by
  unfold State.takeInject
  split <;> exact ⟨rfl, rfl, rfl, rfl⟩

theorem MemSame.errAddr (s : State) (r : Nat) (c : Bool) (v : Nat) : MemSame s (s.errAddr r c v) := by
  unfold State.errAddr
  split <;> exact ⟨rfl, rfl, rfl, rfl⟩

/-- An access that counts changes nothing in memory. -/
theorem MemSame.volume (s : State) (o n : Nat) (w : Bool) : MemSame s (s.volume o n w) := by
  refine foldl_memSame _ _ _ fun g t => ?_
  unfold State.volume1
  dsimp only
  split <;> exact ⟨rfl, rfl, rfl, rfl⟩

/-- Words that change change nothing but themselves. -/
theorem State.upset_eq (s : State) (l : Upsets) : ∃ u, s.upset l = { s with upsets := u } := by
  unfold State.upset
  induction l generalizing s with
  | nil => exact ⟨s.upsets, rfl⟩
  | cons x l ih =>
    rw [List.foldl_cons]
    obtain ⟨u, h⟩ := ih { s with upsets := s.upsets.set (wordOf x.1) x.2 }
    exact ⟨u, h⟩

/-- No word changes. -/
@[simp] theorem State.upset_nil (s : State) : s.upset [] = s := rfl

/-! ## Words put right -/

theorem wordOf_wordOf (o : Nat) (h : o % 8 = 0) : wordOf o = o := by unfold wordOf; omega

theorem State.rd_get (s : State) : ∀ (n o : Nat) (bs : List Byte), s.rd o n = some bs → ∀ i (h : i < bs.length), s.byteAt (o + i) = some bs[i] := by
  intro n
  induction n with
  | zero => intro o bs h i hi; simp only [State.rd, Option.some.injEq] at h; subst h; simp at hi
  | succ n ih =>
    intro o bs h i hi
    simp only [State.rd] at h
    split at h
    · rename_i b cs hb hc
      simp only [Option.some.injEq] at h
      subst h
      cases i with
      | zero => simpa using hb
      | succ i =>
        have := ih _ _ hc i (by simpa using hi)
        rw [show o + (i + 1) = o + 1 + i by omega, this]
        simp
    · simp at h

/-- A word without an upset reads as it was written. -/
theorem State.byteAt_calm (s : State) (a : Nat) (h : s.upsets.find (wordOf a) = none) : s.byteAt a = s.rawByte a := by
  simp [State.byteAt, h]

theorem State.calm_find (s : State) (w k : Nat) : (s.calm w).upsets.find k = if k = w then none else s.upsets.find k := by
  simp [State.calm, Table.find_drop]

/-- A word that a read put right reads as it did. -/
theorem ReadsSame.heal (s : State) (w : Nat) (hw : w % 8 = 0) : ReadsSame s (s.heal w) := by
  have hcalm (a : Nat) (t : State) (hm : t.upsets = (s.calm w).upsets) : t.upsets.find a = s.upsets.find a ∨ t.upsets.find a = none := by
    rw [hm, State.calm_find]; split <;> simp
  unfold State.heal
  split
  · rename_i x bs hx hr
    have hl := State.rd_length _ _ _ _ hr
    refine ⟨fun a => ?_, fun a => hcalm a _ rfl, rfl, fun k => Memory.wf_memPut _ _ _ k⟩
    by_cases ha : wordOf a = w
    · have hi : a - w < bs.length := by unfold wordOf at ha; omega
      have e : a = w + (a - w) := by unfold wordOf at ha; omega
      rw [State.byteAt_calm _ _ (by simp [State.calm_find, ha])]
      have h1 := memPut_find_in bs s.mem w (a - w) hi
      have h2 := State.rd_get _ _ _ _ hr (a - w) hi
      rw [← e] at h1 h2
      simp only [State.rawByte, h1, h2]
    · have h1 : Table.find (memPut s.mem w bs) a = Table.find s.mem a := memPut_find_out _ _ _ _ (by unfold wordOf at ha; omega)
      have h2 : (s.calm w).upsets.find (wordOf a) = s.upsets.find (wordOf a) := by rw [State.calm_find, if_neg ha]
      have h3 : ({ s.calm w with mem := memPut s.mem w bs } : State).place_ a = s.place_ a := place_of_striped rfl a
      simp only [State.byteAt, State.rawByte, h2, h3]
      simp only [h1]
      rfl
  · rename_i bs hr hn
    refine ⟨fun a => ?_, fun a => hcalm a _ rfl, rfl, id⟩
    by_cases ha : wordOf a = w
    · have hi : a - w < 8 := by unfold wordOf at ha; omega
      have e : a = w + (a - w) := by unfold wordOf at ha; omega
      have h2 := State.rd_get _ _ _ _ hr (a - w) (by rw [State.rd_length _ _ _ _ hr]; exact hi)
      rw [← e] at h2
      rw [State.byteAt_calm _ _ (by simp [State.calm_find, ha])]
      have h3 : (s.calm w).rawByte a = s.rawByte a := rfl
      rw [h3]
      unfold State.byteAt at h2 ⊢
      rw [ha] at h2 ⊢
      cases hu : s.upsets.find w with
      | none => rfl
      | some y =>
        rw [hu] at h2
        cases y with
        | corrected => rfl
        | wrong x => exact (hn x hu).elim
        | uncorrectable => simp at h2
        | late => simp at h2
    · have h2 : (s.calm w).upsets.find (wordOf a) = s.upsets.find (wordOf a) := by rw [State.calm_find, if_neg ha]
      simp only [State.byteAt, h2]
      rfl
  · exact .refl s

theorem ReadsSame.wordCe (s : State) (w : Nat) (hw : w % 8 = 0) : ReadsSame s (s.wordCe w) := by
  unfold State.wordCe
  split
  · exact ((MemSame.sat _ _ _ _ _).trans (MemSame.errAddr _ _ _ _)).reads.trans (ReadsSame.heal _ w hw)
  · exact .refl s

theorem MemSame.wordUe (s : State) (w : Nat) : MemSame s (s.wordUe w) := by
  unfold State.wordUe
  split
  · exact (MemSame.sat _ _ _ _ _).trans (MemSame.errAddr _ _ _ _)
  · exact .refl s

/-- Corrected words are reported and put right: what reads find stays. -/
theorem ReadsSame.memCe (s : State) (ws : List Nat) (hw : ∀ w ∈ ws, w % 8 = 0) (i : Bool) : ReadsSame s (s.memCe ws i) := by
  unfold State.memCe
  split
  · exact .refl s
  · split
    · exact (foldl_reads _ s ws fun w h t => ReadsSame.wordCe t w (hw w h)).trans (MemSame.flag _ _ _ _).reads
    · exact .refl s

/-- Uncorrectable words are reported and stay. -/
theorem MemSame.memUe (s : State) (ws : List Nat) (d : Nat) (i : Bool) : MemSame s (s.memUe ws d i) := by
  unfold State.memUe
  split
  · exact .refl s
  · split
    · exact (foldl_memSame _ s ws fun w t => MemSame.wordUe t w).trans (MemSame.flag _ _ _ _)
    · exact .refl s

theorem MemSame.cxlPoison (s : State) (c o : Nat) (i : Bool) : MemSame s (s.cxlPoison c o i) :=
  ((MemSame.sat _ _ _ _ _).trans (MemSame.setRg _ _ _)).trans (MemSame.flag _ _ _ _)

theorem MemSame.cxlTimeout (s : State) (c o : Nat) (i : Bool) : MemSame s (s.cxlTimeout c o i) :=
  ((MemSame.sat _ _ _ _ _).trans (MemSame.setRg _ _ _)).trans (MemSame.flag _ _ _ _)

theorem wordsOf_aligned (o n w : Nat) (h : w ∈ wordsOf o n) : w % 8 = 0 := by
  unfold wordsOf at h
  split at h
  · simp at h
  · simp only [List.mem_map, List.mem_range] at h
    obtain ⟨i, -, rfl⟩ := h
    omega

theorem partWords_aligned (o : Nat) (bs : List Byte) (w : Nat) (h : w ∈ partWords o bs) : w % 8 = 0 := by
  simp only [partWords, List.mem_map] at h
  obtain ⟨p, -, rfl⟩ := h
  unfold wordOf
  omega

/-! ## Writes, byte by byte -/

/-- The pieces of a write lie in one word each. -/
theorem wordPieces_within (f o : Nat) (bs : List Byte) : ∀ p ∈ wordPieces o bs f, p.1 % 8 + p.2.length ≤ 8 := by
  induction f generalizing o bs with
  | zero => simp [wordPieces]
  | succ f ih =>
    intro p h
    unfold wordPieces at h
    split at h
    · simp at h
    · rcases List.mem_cons.1 h with rfl | h
      · simp only [List.length_take]; omega
      · exact ih _ _ p h

/-- A piece of a write leaves every byte outside it as it was. -/
theorem State.wrPiece_out (s : State) (p : Nat × List Byte) (hp : p.1 % 8 + p.2.length ≤ 8) (a : Nat) (h : a < p.1 ∨ p.1 + p.2.length ≤ a) :
    (s.wrPiece p).byteAt a = s.byteAt a := by
  have put (t : State) (hm : Table.find (memPut t.mem p.1 p.2) a = Table.find t.mem a) :
      ({ t with mem := memPut t.mem p.1 p.2 } : State).byteAt a = t.byteAt a := by
    have h3 : ({ t with mem := memPut t.mem p.1 p.2 } : State).place_ a = t.place_ a := place_of_striped rfl a
    simp only [State.byteAt, State.rawByte, h3]
    simp only [hm]
  unfold State.wrPiece
  split
  · rename_i hl
    have ha : wordOf a ≠ p.1 := by unfold wordOf; omega
    refine (put (s.calm p.1) (memPut_find_out _ _ _ _ h)).trans ?_
    have h2 : (s.calm p.1).upsets.find (wordOf a) = s.upsets.find (wordOf a) := by rw [State.calm_find, if_neg ha]
    simp only [State.byteAt, h2]
    rfl
  · split
    · exact (put _ (memPut_find_out _ _ _ _ h)).trans ((ReadsSame.heal s _ (by unfold wordOf; omega)).byte a)
    · rfl

/-- A piece of a write that is performed stores its bytes. -/
theorem State.wrPiece_in (s : State) (p : Nat × List Byte) (hp : p.1 % 8 + p.2.length ≤ 8) (hw : (p.2.length == 8 || s.wordOk p.1) = true)
    (i : Nat) (h : i < p.2.length) : (s.wrPiece p).byteAt (p.1 + i) = some p.2[i] := by
  have fin (t : State) (m : List Host.Cell) (hu : t.upsets.find (wordOf (p.1 + i)) = none) :
      ({ t with mem := memPut m p.1 p.2 } : State).byteAt (p.1 + i) = some p.2[i] := by
    have hx : ({ t with mem := memPut m p.1 p.2 } : State).upsets.find (wordOf (p.1 + i)) = none := hu
    rw [State.byteAt_calm _ _ hx]
    simp only [State.rawByte, memPut_find_in p.2 m p.1 i h]
  unfold State.wrPiece
  split
  · exact fin _ _ (by rw [State.calm_find, if_pos (by unfold wordOf; omega)])
  · rename_i hl
    have hok : s.wordOk p.1 = true := by simpa [hl] using hw
    rw [if_pos hok]
    refine fin _ _ ?_
    have e : wordOf (p.1 + i) = wordOf p.1 := by unfold wordOf; omega
    rw [e]
    obtain ⟨bs, hb⟩ : ∃ bs, s.rd (wordOf p.1) 8 = some bs := Option.isSome_iff_exists.1 hok
    unfold State.heal
    split
    · exact (State.calm_find s _ _).trans (if_pos rfl)
    · exact (State.calm_find s _ _).trans (if_pos rfl)
    · simp_all

/-- A word that can be read still can once a piece of a write was performed or not. -/
theorem State.wrPiece_wordOk (s : State) (p : Nat × List Byte) (hp : p.1 % 8 + p.2.length ≤ 8) (a : Nat) (h : s.wordOk a = true) :
    (s.wrPiece p).wordOk a = true := by
  unfold State.wordOk at h ⊢
  rw [State.rd_isSome] at h ⊢
  intro i hi
  have := h i hi
  by_cases ho : a / 8 * 8 + i < p.1 ∨ p.1 + p.2.length ≤ a / 8 * 8 + i
  · rw [State.wrPiece_out s p hp _ ho]; exact this
  · by_cases hw : (p.2.length == 8 || s.wordOk p.1) = true
    · have e : a / 8 * 8 + i = p.1 + (a / 8 * 8 + i - p.1) := by omega
      rw [e, State.wrPiece_in s p hp hw _ (by omega)]
      rfl
    · have e : s.wrPiece p = s := by
        unfold State.wrPiece
        simp only [Bool.or_eq_true, beq_iff_eq, not_or] at hw
        rw [if_neg hw.1, if_neg hw.2]
      rw [e]; exact this

theorem Memory.wf_wrPiece (s : State) (p : Nat × List Byte) (h : Memory.wf s.mem = true) : Memory.wf (s.wrPiece p).mem = true := by
  unfold State.wrPiece
  split
  · exact Memory.wf_memPut _ _ _ h
  · split
    · exact Memory.wf_memPut _ _ _ ((ReadsSame.heal s _ (by unfold wordOf; omega)).wf h)
    · exact h

theorem Memory.wf_wr (s : State) (o : Nat) (bs : List Byte) (h : Memory.wf s.mem = true) : Memory.wf (s.wr o bs).mem = true := by
  simp only [State.wr]
  generalize wordPieces o bs (bs.length + 1) = l
  induction l generalizing s with
  | nil => exact h
  | cons p l ih => exact ih _ (Memory.wf_wrPiece s p h)

theorem State.wrPieces_out (f o : Nat) (bs : List Byte) (s : State) (a : Nat) (h : a < o ∨ o + bs.length ≤ a) :
    ((wordPieces o bs f).foldl State.wrPiece s).byteAt a = s.byteAt a := by
  induction f generalizing o bs s with
  | zero => rfl
  | succ f ih =>
    unfold wordPieces
    by_cases hb : bs.isEmpty
    · simp [hb]
    · simp only [hb, Bool.false_eq_true, if_false]
      rw [List.foldl_cons, ih _ _ _ (by simp only [List.length_drop]; omega)]
      exact State.wrPiece_out _ _ (by simp only [List.length_take]; omega) _ (by simp only [List.length_take]; omega)

/-- A write leaves every byte outside it as it was. -/
theorem State.wr_out (s : State) (o : Nat) (bs : List Byte) (a : Nat) (h : a < o ∨ o + bs.length ≤ a) :
    (s.wr o bs).byteAt a = s.byteAt a := State.wrPieces_out _ _ _ _ _ h

theorem State.wrPieces_in : ∀ (f o : Nat) (bs : List Byte) (s : State), bs.length < f →
    (∀ p ∈ wordPieces o bs f, (p.2.length == 8 || s.wordOk p.1) = true) → ∀ i (h : i < bs.length),
    ((wordPieces o bs f).foldl State.wrPiece s).byteAt (o + i) = some bs[i] := by
  intro f
  induction f with
  | zero => intro o bs s h; omega
  | succ f ih =>
    intro o bs s hf hp i hi
    have hb : bs.isEmpty = false := by cases bs <;> simp_all
    have e : wordPieces o bs (f + 1) = (o, bs.take (8 - o % 8)) :: wordPieces (o + (8 - o % 8)) (bs.drop (8 - o % 8)) f := by
      simp [wordPieces, hb]
    have hin : (o, bs.take (8 - o % 8)).1 % 8 + (o, bs.take (8 - o % 8)).2.length ≤ 8 := by simp only [List.length_take]; omega
    rw [e] at hp ⊢
    rw [List.foldl_cons]
    have h1 := hp _ List.mem_cons_self
    have h2 : ∀ p ∈ wordPieces (o + (8 - o % 8)) (bs.drop (8 - o % 8)) f,
        (p.2.length == 8 || (s.wrPiece (o, bs.take (8 - o % 8))).wordOk p.1) = true := by
      intro p hq
      have := hp p (List.mem_cons_of_mem _ hq)
      rw [Bool.or_eq_true] at this ⊢
      exact this.imp id (State.wrPiece_wordOk s _ hin _)
    by_cases hn : i < 8 - o % 8
    · have hout := State.wrPieces_out f (o + (8 - o % 8)) (bs.drop (8 - o % 8)) (s.wrPiece (o, bs.take (8 - o % 8))) (o + i)
        (by simp only [List.length_drop]; omega)
      rw [hout]
      have := State.wrPiece_in s (o, bs.take (8 - o % 8)) hin h1 i (by simp only [List.length_take]; omega)
      simpa using this
    · have := ih (o + (8 - o % 8)) (bs.drop (8 - o % 8)) _ (by simp only [List.length_drop]; omega) h2 (i - (8 - o % 8))
        (by simp only [List.length_drop]; omega)
      rw [show o + (8 - o % 8) + (i - (8 - o % 8)) = o + i by omega] at this
      rw [this]
      simp only [List.getElem_drop]
      congr 2
      omega

theorem foldl_keep {σ α β : Type} (P : σ → β) (f : σ → α → σ) (h : ∀ s a, P (f s a) = P s) (l : List α) (s : σ) :
    P (l.foldl f s) = P s := by
  induction l generalizing s with
  | nil => rfl
  | cons a l ih => rw [List.foldl_cons, ih, h]

/-- What a write leaves alone. -/
theorem State.wr_keeps {β : Type} (P : State → β) (hm : ∀ (s : State) m v, P { s with mem := m, upsets := v } = P s) (s : State) (o : Nat)
    (bs : List Byte) : P (s.wr o bs) = P s := by
  have hc (s : State) (w : Nat) : P (s.calm w) = P s := hm s s.mem _
  have hp (s : State) (m : List Host.Cell) : P { s with mem := m } = P s := hm s m s.upsets
  refine foldl_keep P _ (fun s p => ?_) _ s
  unfold State.wrPiece
  split
  · exact (hp (s.calm p.1) _).trans (hc s _)
  · split
    · refine (hp (s.heal (wordOf p.1)) _).trans ?_
      unfold State.heal
      split
      · exact (hp (s.calm (wordOf p.1)) _).trans (hc s _)
      · exact hc s _
      · rfl
    · rfl

/-- What the counting of an access leaves alone. -/
theorem State.volume_keeps {β : Type} (P : State → β) (hr : ∀ s o f, P (s.count o f) = P s) (hb : ∀ s b x, P (s.setBlk b x) = P s) (s : State)
    (o n : Nat) (w : Bool) : P (s.volume o n w) = P s := by
  refine foldl_keep P _ (fun s g => ?_) _ s
  unfold State.volume1
  dsimp only
  split
  · exact hr _ _ _
  · exact (hb _ _ _).trans (hr _ _ _)
  · exact (hb _ _ _).trans (hr _ _ _)
  · rfl

/-- Where every word that the write touches in part can be read, a write stores each of its bytes. -/
theorem State.wr_in (s : State) (o : Nat) (bs : List Byte) (h : ∀ w ∈ partWords o bs, s.wordOk w = true) (i : Nat) (hi : i < bs.length) :
    (s.wr o bs).byteAt (o + i) = some bs[i] := by
  refine State.wrPieces_in _ _ _ _ (by omega) (fun p hp => ?_) i hi
  by_cases h8 : p.2.length = 8
  · simp [h8]
  · have := h (wordOf p.1) (by
      simp only [partWords, List.mem_map]
      exact ⟨p, List.mem_filter.2 ⟨hp, by simpa using h8⟩, rfl⟩)
    have e : s.wordOk (wordOf p.1) = s.wordOk p.1 := by
      unfold State.wordOk wordOf
      rw [show p.1 / 8 * 8 / 8 * 8 = p.1 / 8 * 8 by omega]
    simp [← e, this]

/-! ## Reads and writes with their reports -/

theorem ReadsSame.late {s t : State} (h : ReadsSame s t) (w : Nat) (hl : s.upsets.find w ≠ some .late) : t.upsets.find w ≠ some .late := by
  rcases h.ups w with e | e <;> rw [e] <;> simp [hl]

/-- What a memory says to a read or a write before it is performed: reads find what they found, unless a completion of the CXL tier was late. -/
theorem ReadsSame.partBlk (s : State) (all ws : List Nat) (b : Nat) (hw : ∀ w ∈ ws, w % 8 = 0) (hl : ∀ w ∈ all, s.upsets.find w ≠ some .late) :
    ReadsSame s (s.partBlk all ws b).2 := by
  unfold State.partBlk
  split
  · dsimp only
    have ht := MemSame.takeInject s b 2
    have hn : (all.find? fun w => (s.takeInject b 2).2.upsets.find w == some .late) = none := by
      rw [List.find?_eq_none]
      intro w hm
      rw [ht.upsets]
      simpa using hl w hm
    rw [hn]
    split
    · rename_i h; simp at h
    · exact (ht.trans (MemSame.cxlPoison _ _ _ _)).reads
    · split
      · exact (ht.trans (MemSame.cxlTimeout _ _ _ _)).reads
      · exact ht.reads
  · dsimp only
    have h1 := ReadsSame.memCe s (ws.filter fun w => s.wordOk w && (s.upsets.find w).isSome) (fun w h => hw w (List.mem_filter.1 h).1) false
    split
    · exact h1
    · exact h1.trans (MemSame.memUe _ _ _ _).reads

/-- A corrected word of the CXL tier reads on as it did. -/
theorem ReadsSame.calm (s : State) (w : Nat) (h : s.upsets.find w = some .corrected) : ReadsSame s (s.calm w) := by
  refine ⟨fun a => ?_, fun a => ?_, rfl, id⟩
  · by_cases ha : wordOf a = w
    · rw [State.byteAt_calm _ _ (by simp [State.calm_find, ha])]
      simp only [State.byteAt, ha, h]
      rfl
    · have h2 : (s.calm w).upsets.find (wordOf a) = s.upsets.find (wordOf a) := by rw [State.calm_find, if_neg ha]
      simp only [State.byteAt, h2]
      rfl
  · rw [State.calm_find]; split <;> simp

theorem MemSame.cxlRetry (s : State) (c : Nat) (i : Bool) : MemSame s (s.cxlRetry c i) :=
  (MemSame.sat _ _ _ _ _).trans (MemSame.flag _ _ _ _)

/-- A read leaves what reads find, unless a completion of the CXL tier was late. -/
theorem ReadsSame.readBlk (s : State) (ws : List Nat) (b : Nat) (hw : ∀ w ∈ ws, w % 8 = 0) (hl : ∀ w ∈ ws, s.upsets.find w ≠ some .late) :
    ReadsSame s (s.readBlk ws b).2 := by
  unfold State.readBlk
  dsimp only
  split
  · have ht : MemSame s (((s.takeInject b 0).2.takeInject b 1).2.takeInject b 2).2 :=
      ((MemSame.takeInject _ _ _).trans (MemSame.takeInject _ _ _)).trans (MemSame.takeInject _ _ _)
    generalize (((s.takeInject b 0).2.takeInject b 1).2.takeInject b 2) = x at ht ⊢
    have hn : (ws.find? fun w => s.upsets.find w == some .late) = none := by
      rw [List.find?_eq_none]
      intro w hm
      simpa using hl w hm
    rw [hn]
    have hm : ReadsSame s (match ws.find? fun w => s.upsets.find w == some .corrected with
        | some w => (x.2.calm w).cxlRetry (b - 14)
        | none => if (s.takeInject b 0).1 = true then x.2.cxlRetry (b - 14) true else x.2) := by
      split
      · rename_i w e
        have := List.find?_some e
        exact ht.reads.trans ((ReadsSame.calm x.2 w (by rw [ht.upsets]; simpa using this)).trans (MemSame.cxlRetry _ _ _).reads)
      · split
        · exact (ht.trans (MemSame.cxlRetry _ _ _)).reads
        · exact ht.reads
    split
    · rename_i h; simp at h
    · exact hm.trans (MemSame.cxlPoison _ _ _ _).reads
    · split
      · exact hm.trans (MemSame.cxlTimeout _ _ _ _).reads
      · split
        · exact hm.trans (MemSame.cxlPoison _ _ _ _).reads
        · exact hm
  · have ht : MemSame s ((s.takeInject b 1).2.takeInject b 0).2 := (MemSame.takeInject _ _ _).trans (MemSame.takeInject _ _ _)
    generalize ((s.takeInject b 1).2.takeInject b 0) = x at ht ⊢
    have e1 : ∀ w ∈ ws.take 1, w % 8 = 0 := fun w h => hw w (List.mem_of_mem_take h)
    have e2 : ∀ w ∈ ws.filter (fun w => x.2.wordOk w && (x.2.upsets.find w).isSome), w % 8 = 0 := fun w h => hw w (List.mem_filter.1 h).1
    repeat' split
    all_goals first
      | exact (ht.reads.trans (ReadsSame.memCe x.2 _ e1 _)).trans (MemSame.memUe _ _ _ _).reads
      | exact (ht.reads.trans (ReadsSame.memCe x.2 _ e2 _)).trans (MemSame.memUe _ _ _ _).reads
      | exact ht.reads.trans (ReadsSame.memCe x.2 _ e1 _)
      | exact ht.reads.trans (ReadsSame.memCe x.2 _ e2 _)

theorem State.wordsAt_mem (s : State) (o n b w : Nat) (h : w ∈ s.wordsAt o n b) : w ∈ wordsOf o n := (List.mem_filter.1 h).1

/-- A write before its bytes are stored. -/
theorem State.saveParts_reads (o n : Nat) (ps : List Nat) (hp : ∀ w ∈ ps, w % 8 = 0) (bl : List Nat) (x : Nat × State)
    (hl : ∀ w ∈ wordsOf o n, x.2.upsets.find w ≠ some .late) :
    ReadsSame x.2 (bl.foldl (fun (x : Nat × State) b =>
      let (st, s) := x.2.partBlk (x.2.wordsAt o n b) (ps.filter fun w => (x.2.place_ w).blk == some b) b
      (firstSt x.1 st, s)) x).2 := by
  induction bl generalizing x with
  | nil => exact .refl _
  | cons b bl ih =>
    rw [List.foldl_cons]
    have h1 := ReadsSame.partBlk x.2 (x.2.wordsAt o n b) (ps.filter fun w => (x.2.place_ w).blk == some b) b
      (fun w h => hp w (List.mem_filter.1 h).1) (fun w h => hl w (x.2.wordsAt_mem _ _ _ _ h))
    exact h1.trans (ih (firstSt x.1 _, _) fun w h => h1.late w (hl w h))

/-- What a write leaves of the rest of memory, and what it stores. -/
theorem State.save_reads (s : State) (o : Nat) (bs : List Byte) (hl : ∀ w ∈ wordsOf o bs.length, s.upsets.find w ≠ some .late) :
    (∀ a, (a < o ∨ o + bs.length ≤ a) → (s.save o bs).2.byteAt a = s.byteAt a) ∧
    (s.memOk o bs.length = true → (s.save o bs).1 ≠ 2 → (∀ w ∈ partWords o bs, s.wordOk w = true) →
      ∀ i (h : i < bs.length), (s.save o bs).2.byteAt (o + i) = some bs[i]) := by
  unfold State.save
  dsimp only
  split
  · rename_i h
    exact ⟨fun _ _ => rfl, fun h' => by simp [h'] at h⟩
  · have hv := MemSame.volume s o bs.length true
    have hr := State.saveParts_reads o bs.length (partWords o bs) (partWords_aligned o bs) ((s.volume o bs.length true).servers o bs.length)
      (0, s.volume o bs.length true) (fun w h => by rw [hv.upsets]; exact hl w h)
    have hr := hv.reads.trans hr
    refine ⟨fun a h => ?_, fun _ h2 hw i hi => ?_⟩
    · split
      · exact hr.byte a
      · rw [State.wr_out _ _ _ _ h]; exact hr.byte a
    · rw [if_neg h2]
      exact State.wr_in _ _ _ (fun w h => by rw [hr.wordOk]; exact hw w h) i hi

/-- A read leaves what reads find, and answers what stood there. -/
theorem State.load_reads (s : State) (o n : Nat) (hl : ∀ w ∈ wordsOf o n, s.upsets.find w ≠ some .late) : ReadsSame s (s.load o n).2 := by
  have hf : ∀ (bl : List Nat) (x : Nat × State), (∀ w ∈ wordsOf o n, x.2.upsets.find w ≠ some .late) →
      ReadsSame x.2 (bl.foldl (fun (x : Nat × State) b =>
        let (st, s) := x.2.readBlk (x.2.wordsAt o n b) b
        (firstSt x.1 st, s)) x).2 := by
    intro bl
    induction bl with
    | nil => exact fun x _ => .refl _
    | cons b bl ih =>
      intro x hx
      rw [List.foldl_cons]
      have h1 := ReadsSame.readBlk x.2 (x.2.wordsAt o n b) b (fun w h => wordsOf_aligned _ _ _ (x.2.wordsAt_mem _ _ _ _ h))
        (fun w h => hx w (x.2.wordsAt_mem _ _ _ _ h))
      exact h1.trans (ih (firstSt x.1 _, _) fun w h => h1.late w (hx w h))
  unfold State.load
  split
  · exact .refl _
  · dsimp only
    have hv := MemSame.volume s o n false
    exact hv.reads.trans (hf _ (0, s.volume o n false) (fun w h => by rw [hv.upsets]; exact hl w h))

/-! ## The canonical form -/

theorem Memory.wf_partBlk (s : State) (all ws : List Nat) (b : Nat) (hw : ∀ w ∈ ws, w % 8 = 0) (h : Memory.wf s.mem = true) :
    Memory.wf (s.partBlk all ws b).2.mem = true := by
  unfold State.partBlk
  split
  · dsimp only
    have ht := MemSame.takeInject s b 2
    split
    · rw [(MemSame.cxlTimeout _ _ _ _).mem]
      exact (congrArg Memory.wf ht.mem).trans h
    · rw [(MemSame.cxlPoison _ _ _ _).mem, ht.mem]; exact h
    · split
      · rw [(MemSame.cxlTimeout _ _ _ _).mem, ht.mem]; exact h
      · rw [ht.mem]; exact h
  · dsimp only
    have h1 := (ReadsSame.memCe s (ws.filter fun w => s.wordOk w && (s.upsets.find w).isSome) (fun w h => hw w (List.mem_filter.1 h).1) false).wf h
    split
    · exact h1
    · rw [(MemSame.memUe _ _ _ _).mem]; exact h1

theorem Memory.wf_readBlk (s : State) (ws : List Nat) (b : Nat) (hw : ∀ w ∈ ws, w % 8 = 0) (h : Memory.wf s.mem = true) :
    Memory.wf (s.readBlk ws b).2.mem = true := by
  have calm (t : State) (w : Nat) : (t.calm w).mem = t.mem := rfl
  have retry (t : State) (c : Nat) (i : Bool) : (t.cxlRetry c i).mem = t.mem := by
    unfold State.cxlRetry; exact (MemSame.flag _ _ _ _).mem
  have ht (t : State) (d : Nat) : (t.takeInject b d).2.mem = t.mem := (MemSame.takeInject t b d).mem
  unfold State.readBlk
  dsimp only
  split
  · have h1 : Memory.wf (((s.takeInject b 0).2.takeInject b 1).2.takeInject b 2).2.mem = true := by rw [ht, ht, ht]; exact h
    generalize (((s.takeInject b 0).2.takeInject b 1).2.takeInject b 2) = x at h1 ⊢
    have h2 (y : State) (hy : y.mem = x.2.mem) : Memory.wf y.mem = true := by rw [hy]; exact h1
    have h3 : ∀ y : State, y.mem = x.2.mem → ∀ c o i, Memory.wf (y.cxlTimeout c o i).mem = true :=
      fun y hy c o i => by rw [(MemSame.cxlTimeout _ _ _ _).mem]; exact h2 y hy
    have h4 : ∀ y : State, y.mem = x.2.mem → ∀ c o i, Memory.wf (y.cxlPoison c o i).mem = true :=
      fun y hy c o i => by rw [(MemSame.cxlPoison _ _ _ _).mem]; exact h2 y hy
    have hm : ∀ (o : Option Nat) (i : Bool), (match o with
        | some w => (x.2.calm w).cxlRetry (b - 14)
        | none => if i = true then x.2.cxlRetry (b - 14) true else x.2).mem = x.2.mem := by
      intro o i
      cases o with
      | some w => exact retry _ _ _
      | none => dsimp only; split <;> [exact retry _ _ _; rfl]
    split
    · exact h3 (State.calm _ _) (hm _ _) _ _ _
    · exact h4 _ (hm _ _) _ _ _
    · split
      · exact h3 _ (hm _ _) _ _ _
      · split
        · exact h4 _ (hm _ _) _ _ _
        · exact h2 _ (hm _ _)
  · have h1 : Memory.wf ((s.takeInject b 1).2.takeInject b 0).2.mem = true := by rw [ht, ht]; exact h
    generalize ((s.takeInject b 1).2.takeInject b 0) = x at h1 ⊢
    have h2 : ∀ l i, (∀ w ∈ l, w % 8 = 0) → Memory.wf (x.2.memCe l i).mem = true := fun l i hl => (ReadsSame.memCe x.2 l hl i).wf h1
    have h3 : ∀ y : State, Memory.wf y.mem = true → ∀ l d i, Memory.wf (y.memUe l d i).mem = true :=
      fun y hy l d i => by rw [(MemSame.memUe _ _ _ _).mem]; exact hy
    have e1 : ∀ w ∈ ws.take 1, w % 8 = 0 := fun w h => hw w (List.mem_of_mem_take h)
    have e2 : ∀ w ∈ ws.filter (fun w => x.2.wordOk w && (x.2.upsets.find w).isSome), w % 8 = 0 := fun w h => hw w (List.mem_filter.1 h).1
    repeat' split
    all_goals first
      | exact h3 _ (h2 _ _ e1) _ _ _
      | exact h3 _ (h2 _ _ e2) _ _ _
      | exact h2 _ _ e1
      | exact h2 _ _ e2

/-- A write keeps the canonical form. -/
theorem Memory.wf_save (s : State) (o : Nat) (bs : List Byte) (h : Memory.wf s.mem = true) : Memory.wf (s.save o bs).2.mem = true := by
  unfold State.save
  dsimp only
  split
  · exact h
  · have hf : ∀ (bl : List Nat) (x : Nat × State), Memory.wf x.2.mem = true →
        Memory.wf (bl.foldl (fun (x : Nat × State) b =>
          let (st, s) := x.2.partBlk (x.2.wordsAt o bs.length b) ((partWords o bs).filter fun w => (x.2.place_ w).blk == some b) b
          (firstSt x.1 st, s)) x).2.mem = true := by
      intro bl
      induction bl with
      | nil => exact fun x h => h
      | cons b bl ih =>
        intro x hx
        rw [List.foldl_cons]
        exact ih _ (Memory.wf_partBlk _ _ _ _ (fun w hw => partWords_aligned o bs w (List.mem_filter.1 hw).1) hx)
    have h1 := hf ((s.volume o bs.length true).servers o bs.length) (0, s.volume o bs.length true)
      (by rw [(MemSame.volume s o bs.length true).mem]; exact h)
    split
    · exact h1
    · exact Memory.wf_wr _ _ _ h1

/-- A read keeps the canonical form: it writes a corrected word back. -/
theorem Memory.wf_load (s : State) (o n : Nat) (h : Memory.wf s.mem = true) : Memory.wf (s.load o n).2.mem = true := by
  unfold State.load
  split
  · exact h
  · dsimp only
    have hf : ∀ (bl : List Nat) (x : Nat × State), Memory.wf x.2.mem = true →
        Memory.wf (bl.foldl (fun (x : Nat × State) b =>
          let (st, s) := x.2.readBlk (x.2.wordsAt o n b) b
          (firstSt x.1 st, s)) x).2.mem = true := by
      intro bl
      induction bl with
      | nil => exact fun x h => h
      | cons b bl ih =>
        intro x hx
        rw [List.foldl_cons]
        exact ih _ (Memory.wf_readBlk _ _ _ (fun w hw => wordsOf_aligned _ _ _ (x.2.wordsAt_mem _ _ _ _ hw)) hx)
    exact hf _ _ (by rw [(MemSame.volume s o n false).mem]; exact h)

/-- A read that succeeds answers what stood there, as many bytes as it was asked for or none where some of them cannot be read. -/
theorem State.load_data (s : State) (o n : Nat) (h : (s.load o n).1.1 = 0) : (s.load o n).1.2 = (s.rd o n).getD [] := by
  unfold State.load at h ⊢
  split at h
  · simp at h
  · rename_i h1
    rw [if_neg h1]
    dsimp only at h ⊢
    rw [if_pos h, (MemSame.volume s o n false).reads.rd]

end Sys2Proof.Machine
end

