-- ==== Sys2Proof/Laws/Step.lean ====
section
/-!
SUPPORT. Every command acts on a device that is powered and out of reset, or is an event of a pin that powers or resets it: so every command answers a next state, and
what ends each cycle holds after every step.
-/
namespace Sys2Proof.Machine

/-- Every command is an effect followed by the end of its cycle. -/
theorem exec_shape (c : Instr) (s : State) : ∃ f : State → State, exec c s = act s f ∨ exec c s = actPin s f := by
  cases c with
  | regWrite src off half v => exact ⟨_, .inl (by show execRegWrite src off half v s = _; unfold execRegWrite; rfl)⟩
  | rcRead src off half => exact ⟨_, .inl (by show execRcRead src off half s = _; unfold execRcRead; rfl)⟩
  | misalignedAccess src off size => exact ⟨_, .inl (by show execMisalignedAccess src off size s = _; unfold execMisalignedAccess; rfl)⟩
  | fabricRegAccess ctx off half w => exact ⟨_, .inl (by show execFabricRegAccess ctx off half w s = _; unfold execFabricRegAccess; rfl)⟩
  | blkFaultW1c b v => exact ⟨_, .inl (by show execBlkFaultW1c b v s = _; unfold execBlkFaultW1c; rfl)⟩
  | blkSevAckWrite b v => exact ⟨_, .inl (by show execBlkSevAckWrite b v s = _; unfold execBlkSevAckWrite; rfl)⟩
  | blkInject b v => exact ⟨_, .inl (by show execBlkInject b v s = _; unfold execBlkInject; rfl)⟩
  | blkProgressWinWrite b v => exact ⟨_, .inl (by show execBlkProgressWinWrite b v s = _; unfold execBlkProgressWinWrite; rfl)⟩
  | devModeWrite v => exact ⟨_, .inl (by show execDevModeWrite v s = _; unfold execDevModeWrite; rfl)⟩
  | loadStart v => exact ⟨_, .inl (by show execLoadStart v s = _; unfold execLoadStart; rfl)⟩
  | harvestLoadStart v => exact ⟨_, .inl (by show execHarvestLoadStart v s = _; unfold execHarvestLoadStart; rfl)⟩
  | loadCancel v => exact ⟨_, .inl (by show execLoadCancel v s = _; unfold execLoadCancel; rfl)⟩
  | loadUnload v => exact ⟨_, .inl (by show execLoadUnload v s = _; unfold execLoadUnload; rfl)⟩
  | loadStageEnd => exact ⟨_, .inl (by show execLoadStageEnd s = _; unfold execLoadStageEnd; rfl)⟩
  | loadHoldComplete => exact ⟨_, .inl (by show execLoadHoldComplete s = _; unfold execLoadHoldComplete; rfl)⟩
  | noHarvestCtxHold c => exact ⟨_, .inl (by show execNoHarvestCtxHold c s = _; unfold execNoHarvestCtxHold; rfl)⟩
  | loadHoldTimeout => exact ⟨_, .inl (by show execLoadHoldTimeout s = _; unfold execLoadHoldTimeout; rfl)⟩
  | commitDomainsOn => exact ⟨_, .inl (by show execCommitDomainsOn s = _; unfold execCommitDomainsOn; rfl)⟩
  | commitCopyDone bad => exact ⟨_, .inl (by show execCommitCopyDone bad s = _; unfold execCommitCopyDone; rfl)⟩
  | structureReset => exact ⟨_, .inl (by show execStructureReset s = _; unfold execStructureReset; rfl)⟩
  | bundleIssue t j e y0 y1 => exact ⟨_, .inl (by show execBundleIssue t j e y0 y1 s = _; unfold execBundleIssue; rfl)⟩
  | cacheFillDone t j ue y0 y1 => exact ⟨_, .inl (by show execCacheFillDone t j ue y0 y1 s = _; unfold execCacheFillDone; rfl)⟩
  | wload t a half desc tally => exact ⟨_, .inl (by show execWload t a half desc tally s = _; unfold execWload; rfl)⟩
  | stream t a half desc tally => exact ⟨_, .inl (by show execStream t a half desc tally s = _; unfold execStream; rfl)⟩
  | streamClr t a half desc tally => exact ⟨_, .inl (by show execStreamClr t a half desc tally s = _; unfold execStreamClr; rfl)⟩
  | drain t a half desc tally => exact ⟨_, .inl (by show execDrain t a half desc tally s = _; unfold execDrain; rfl)⟩
  | wloadStart t a half ups => exact ⟨_, .inl (by show execWloadStart t a half ups s = _; unfold execWloadStart; rfl)⟩
  | wloadDone t a half => exact ⟨_, .inl (by show execWloadDone t a half s = _; unfold execWloadDone; rfl)⟩
  | streamStart t a half ups => exact ⟨_, .inl (by show execStreamStart t a half ups s = _; unfold execStreamStart; rfl)⟩
  | streamDone t a half ce ue => exact ⟨_, .inl (by show execStreamDone t a half ce ue s = _; unfold execStreamDone; rfl)⟩
  | drainStart t a half => exact ⟨_, .inl (by show execDrainStart t a half s = _; unfold execDrainStart; rfl)⟩
  | drainDone t a half ce ue => exact ⟨_, .inl (by show execDrainDone t a half ce ue s = _; unfold execDrainDone; rfl)⟩
  | arrayScopeStop t a half eng det k upTo => exact ⟨_, .inl (by show execArrayScopeStop t a half eng det k upTo s = _; unfold execArrayScopeStop; rfl)⟩
  | shapeChange t a => exact ⟨_, .inl (by show execShapeChange t a s = _; unfold execShapeChange; rfl)⟩
  | shapeReconfigDone t a => exact ⟨_, .inl (by show execShapeReconfigDone t a s = _; unfold execShapeReconfigDone; rfl)⟩
  | arrayClockGate t a half => exact ⟨_, .inl (by show execArrayClockGate t a half s = _; unfold execArrayClockGate; rfl)⟩
  | arrayTeardownDone t a => exact ⟨_, .inl (by show execArrayTeardownDone t a s = _; unfold execArrayTeardownDone; rfl)⟩
  | arrayHarvestClear t a => exact ⟨_, .inl (by show execArrayHarvestClear t a s = _; unfold execArrayHarvestClear; rfl)⟩
  | arrayEmpty t a => exact ⟨_, .inl (by show execArrayEmpty t a s = _; unfold execArrayEmpty; rfl)⟩
  | vuMov t o e => exact ⟨_, .inl (by show execVuMov t o e s = _; unfold execVuMov; rfl)⟩
  | vuCvt t o e => exact ⟨_, .inl (by show execVuCvt t o e s = _; unfold execVuCvt; rfl)⟩
  | vuAdd t o e => exact ⟨_, .inl (by show execVuAdd t o e s = _; unfold execVuAdd; rfl)⟩
  | vuSub t o e => exact ⟨_, .inl (by show execVuSub t o e s = _; unfold execVuSub; rfl)⟩
  | vuMul t o e => exact ⟨_, .inl (by show execVuMul t o e s = _; unfold execVuMul; rfl)⟩
  | vuFma t o e => exact ⟨_, .inl (by show execVuFma t o e s = _; unfold execVuFma; rfl)⟩
  | vuMax t o e => exact ⟨_, .inl (by show execVuMax t o e s = _; unfold execVuMax; rfl)⟩
  | vuMin t o e => exact ⟨_, .inl (by show execVuMin t o e s = _; unfold execVuMin; rfl)⟩
  | vuAbs t o e => exact ⟨_, .inl (by show execVuAbs t o e s = _; unfold execVuAbs; rfl)⟩
  | vuNeg t o e => exact ⟨_, .inl (by show execVuNeg t o e s = _; unfold execVuNeg; rfl)⟩
  | vuSel t o e => exact ⟨_, .inl (by show execVuSel t o e s = _; unfold execVuSel; rfl)⟩
  | vuCmpgt t o e => exact ⟨_, .inl (by show execVuCmpgt t o e s = _; unfold execVuCmpgt; rfl)⟩
  | vuExp t o e => exact ⟨_, .inl (by show execVuExp t o e s = _; unfold execVuExp; rfl)⟩
  | vuLog t o e => exact ⟨_, .inl (by show execVuLog t o e s = _; unfold execVuLog; rfl)⟩
  | vuRsqrt t o e => exact ⟨_, .inl (by show execVuRsqrt t o e s = _; unfold execVuRsqrt; rfl)⟩
  | vuRecip t o e => exact ⟨_, .inl (by show execVuRecip t o e s = _; unfold execVuRecip; rfl)⟩
  | vuRowsum t o e => exact ⟨_, .inl (by show execVuRowsum t o e s = _; unfold execVuRowsum; rfl)⟩
  | vuRowmax t o e => exact ⟨_, .inl (by show execVuRowmax t o e s = _; unfold execVuRowmax; rfl)⟩
  | vuRowmin t o e => exact ⟨_, .inl (by show execVuRowmin t o e s = _; unfold execVuRowmin; rfl)⟩
  | vuSmaxExp t o e => exact ⟨_, .inl (by show execVuSmaxExp t o e s = _; unfold execVuSmaxExp; rfl)⟩
  | vuLnStats t o e => exact ⟨_, .inl (by show execVuLnStats t o e s = _; unfold execVuLnStats; rfl)⟩
  | vuLnApply t o e => exact ⟨_, .inl (by show execVuLnApply t o e s = _; unfold execVuLnApply; rfl)⟩
  | vuTopk t o e => exact ⟨_, .inl (by show execVuTopk t o e s = _; unfold execVuTopk; rfl)⟩
  | vuEncode t o e => exact ⟨_, .inl (by show execVuEncode t o e s = _; unfold execVuEncode; rfl)⟩
  | vuResultWrite t k => exact ⟨_, .inl (by show execVuResultWrite t k s = _; unfold execVuResultWrite; rfl)⟩
  | encodeDone t dataBad profileBad => exact ⟨_, .inl (by show execEncodeDone t dataBad profileBad s = _; unfold execEncodeDone; rfl)⟩
  | run t m desc tally => exact ⟨_, .inl (by show execRun t m desc tally s = _; unfold execRun; rfl)⟩
  | moverRowWritten t m row ups y => exact ⟨_, .inl (by show execMoverRowWritten t m row ups y s = _; unfold execMoverRowWritten; rfl)⟩
  | moverDescDone t m => exact ⟨_, .inl (by show execMoverDescDone t m s = _; unfold execMoverDescDone; rfl)⟩
  | moverOpFail t m status => exact ⟨_, .inl (by show execMoverOpFail t m status s = _; unfold execMoverOpFail; rfl)⟩
  | moverParity t => exact ⟨_, .inl (by show execMoverParity t s = _; unfold execMoverParity; rfl)⟩
  | send t desc tally => exact ⟨_, .inl (by show execSend t desc tally s = _; unfold execSend; rfl)⟩
  | expect t desc tally => exact ⟨_, .inl (by show execExpect t desc tally s = _; unfold execExpect; rfl)⟩
  | join t desc tally => exact ⟨_, .inl (by show execJoin t desc tally s = _; unfold execJoin; rfl)⟩
  | expectChunkWritten t g seq => exact ⟨_, .inl (by show execExpectChunkWritten t g seq s = _; unfold execExpectChunkWritten; rfl)⟩
  | wait t k n => exact ⟨_, .inl (by show execWait t k n s = _; unfold execWait; rfl)⟩
  | take t k n => exact ⟨_, .inl (by show execTake t k n s = _; unfold execTake; rfl)⟩
  | syncAdd t k n => exact ⟨_, .inl (by show execSyncAdd t k n s = _; unfold execSyncAdd; rfl)⟩
  | loop t n => exact ⟨_, .inl (by show execLoop t n s = _; unfold execLoop; rfl)⟩
  | endloop t => exact ⟨_, .inl (by show execEndloop t s = _; unfold execEndloop; rfl)⟩
  | stepEnd t => exact ⟨_, .inl (by show execStepEnd t s = _; unfold execStepEnd; rfl)⟩
  | halt t => exact ⟨_, .inl (by show execHalt t s = _; unfold execHalt; rfl)⟩
  | waitSatisfied t j y0 y1 => exact ⟨_, .inl (by show execWaitSatisfied t j y0 y1 s = _; unfold execWaitSatisfied; rfl)⟩
  | seqParity t => exact ⟨_, .inl (by show execSeqParity t s = _; unfold execSeqParity; rfl)⟩
  | spindleErrorTeardown t => exact ⟨_, .inl (by show execSpindleErrorTeardown t s = _; unfold execSpindleErrorTeardown; rfl)⟩
  | remoteRequestArrival k ups => exact ⟨_, .inl (by show execRemoteRequestArrival k ups s = _; unfold execRemoteRequestArrival; rfl)⟩
  | scrubRead b ups => exact ⟨_, .inl (by show execScrubRead b ups s = _; unfold execScrubRead; rfl)⟩
  | caParity n => exact ⟨_, .inl (by show execCaParity n s = _; unfold execCaParity; rfl)⟩
  | tempHigh n temp => exact ⟨_, .inl (by show execTempHigh n temp s = _; unfold execTempHigh; rfl)⟩
  | cxlHdmWrite c h v => exact ⟨_, .inl (by show execCxlHdmWrite c h v s = _; unfold execCxlHdmWrite; rfl)⟩
  | cxlEnumerate c sizes unsupported => exact ⟨_, .inl (by show execCxlEnumerate c sizes unsupported s = _; unfold execCxlEnumerate; rfl)⟩
  | cxlCompletion c k r retried => exact ⟨_, .inl (by show execCxlCompletion c k r retried s = _; unfold execCxlCompletion; rfl)⟩
  | cplTimeout c k => exact ⟨_, .inl (by show execCplTimeout c k s = _; unfold execCplTimeout; rfl)⟩
  | cxlLinkDown c => exact ⟨_, .inl (by show execCxlLinkDown c s = _; unfold execCxlLinkDown; rfl)⟩
  | viral c => exact ⟨_, .inl (by show execViral c s = _; unfold execViral; rfl)⟩
  | frameReceived p f looks pl ev => exact ⟨_, .inl (by show execFrameReceived p f looks pl ev s = _; unfold execFrameReceived; rfl)⟩
  | frameSend p bups => exact ⟨_, .inl (by show execFrameSend p bups s = _; unfold execFrameSend; rfl)⟩
  | portTrainingDone p f0 f1 f2 f3 => exact ⟨_, .inl (by show execPortTrainingDone p f0 f1 f2 f3 s = _; unfold execPortTrainingDone; rfl)⟩
  | trainTimeout p signal => exact ⟨_, .inl (by show execTrainTimeout p signal s = _; unfold execTrainTimeout; rfl)⟩
  | helloTimeout p => exact ⟨_, .inl (by show execHelloTimeout p s = _; unfold execHelloTimeout; rfl)⟩
  | laneAdapt p lane param up fom => exact ⟨_, .inl (by show execLaneAdapt p lane param up fom s = _; unfold execLaneAdapt; rfl)⟩
  | fomLow p lane fom => exact ⟨_, .inl (by show execFomLow p lane fom s = _; unfold execFomLow; rfl)⟩
  | eiIdleTimeout p => exact ⟨_, .inl (by show execEiIdleTimeout p s = _; unfold execEiIdleTimeout; rfl)⟩
  | eiExitDone p f0 f1 f2 f3 => exact ⟨_, .inl (by show execEiExitDone p f0 f1 f2 f3 s = _; unfold execEiExitDone; rfl)⟩
  | trainingBurstDetect p => exact ⟨_, .inl (by show execTrainingBurstDetect p s = _; unfold execTrainingBurstDetect; rfl)⟩
  | laneSignalLoss p lane => exact ⟨_, .inl (by show execLaneSignalLoss p lane s = _; unfold execLaneSignalLoss; rfl)⟩
  | absentBurst p => exact ⟨_, .inl (by show execAbsentBurst p s = _; unfold execAbsentBurst; rfl)⟩
  | portRetrain p => exact ⟨_, .inl (by show execPortRetrain p s = _; unfold execPortRetrain; rfl)⟩
  | portHoldDown p => exact ⟨_, .inl (by show execPortHoldDown p s = _; unfold execPortHoldDown; rfl)⟩
  | portRelease p => exact ⟨_, .inl (by show execPortRelease p s = _; unfold execPortRelease; rfl)⟩
  | serdesPll g => exact ⟨_, .inl (by show execSerdesPll g s = _; unfold execSerdesPll; rfl)⟩
  | looseHeadArrival p busy k look ups => exact ⟨_, .inl (by show execLooseHeadArrival p busy k look ups s = _; unfold execLooseHeadArrival; rfl)⟩
  | headReevaluate k busy => exact ⟨_, .inl (by show execHeadReevaluate k busy s = _; unfold execHeadReevaluate; rfl)⟩
  | treeHeadArrival p k look => exact ⟨_, .inl (by show execTreeHeadArrival p k look s = _; unfold execTreeHeadArrival; rfl)⟩
  | pinnedChunkArrival p c look ev => exact ⟨_, .inl (by show execPinnedChunkArrival p c look ev s = _; unfold execPinnedChunkArrival; rfl)⟩
  | egressSelect p bups => exact ⟨_, .inl (by show execEgressSelect p bups s = _; unfold execEgressSelect; rfl)⟩
  | looseRequestInject u r => exact ⟨_, .inl (by show execLooseRequestInject u r s = _; unfold execLooseRequestInject; rfl)⟩
  | rtoExpiry u tag => exact ⟨_, .inl (by show execRtoExpiry u tag s = _; unfold execRtoExpiry; rfl)⟩
  | completionArrival k => exact ⟨_, .inl (by show execCompletionArrival k s = _; unfold execCompletionArrival; rfl)⟩
  | rateInterval => exact ⟨_, .inl (by show execRateInterval s = _; unfold execRateInterval; rfl)⟩
  | swapNow => exact ⟨_, .inl (by show execSwapNow s = _; unfold execSwapNow; rfl)⟩
  | swapAtHarvest => exact ⟨_, .inl (by show execSwapAtHarvest s = _; unfold execSwapAtHarvest; rfl)⟩
  | swapCancel => exact ⟨_, .inl (by show execSwapCancel s = _; unfold execSwapCancel; rfl)⟩
  | routeSwap => exact ⟨_, .inl (by show execRouteSwap s = _; unfold execRouteSwap; rfl)⟩
  | swapHoldTimeout => exact ⟨_, .inl (by show execSwapHoldTimeout s = _; unfold execSwapHoldTimeout; rfl)⟩
  | swcCfgWrite v => exact ⟨_, .inl (by show execSwcCfgWrite v s = _; unfold execSwcCfgWrite; rfl)⟩
  | rteDestWrite bank d v => exact ⟨_, .inl (by show execRteDestWrite bank d v s = _; unfold execRteDestWrite; rfl)⟩
  | coreParity => exact ⟨_, .inl (by show execCoreParity s = _; unfold execCoreParity; rfl)⟩
  | schShapeCtrl v => exact ⟨_, .inl (by show execSchShapeCtrl v s = _; unfold execSchShapeCtrl; rfl)⟩
  | shaperRefill => exact ⟨_, .inl (by show execShaperRefill s = _; unfold execShaperRefill; rfl)⟩
  | ctxOpen c setGen => exact ⟨_, .inl (by show execCtxOpen c setGen s = _; unfold execCtxOpen; rfl)⟩
  | ctxClose c => exact ⟨_, .inl (by show execCtxClose c s = _; unfold execCtxClose; rfl)⟩
  | teardownStageAdvance c => exact ⟨_, .inl (by show execTeardownStageAdvance c s = _; unfold execTeardownStageAdvance; rfl)⟩
  | teardownTimeout c => exact ⟨_, .inl (by show execTeardownTimeout c s = _; unfold execTeardownTimeout; rfl)⟩
  | bitmapParity => exact ⟨_, .inl (by show execBitmapParity s = _; unfold execBitmapParity; rfl)⟩
  | schStateParity => exact ⟨_, .inl (by show execSchStateParity s = _; unfold execSchStateParity; rfl)⟩
  | chunkPull g seq order ev ups => exact ⟨_, .inl (by show execChunkPull g seq order ev ups s = _; unfold execChunkPull; rfl)⟩
  | creditArrival k => exact ⟨_, .inl (by show execCreditArrival k s = _; unfold execCreditArrival; rfl)⟩
  | creditRepeat g seq => exact ⟨_, .inl (by show execCreditRepeat g seq s = _; unfold execCreditRepeat; rfl)⟩
  | collTimeout g => exact ⟨_, .inl (by show execCollTimeout g s = _; unfold execCollTimeout; rfl)⟩
  | abortArrival k => exact ⟨_, .inl (by show execAbortArrival k s = _; unfold execAbortArrival; rfl)⟩
  | treeDoneArrival k => exact ⟨_, .inl (by show execTreeDoneArrival k s = _; unfold execTreeDoneArrival; rfl)⟩
  | broadcastRto g seq => exact ⟨_, .inl (by show execBroadcastRto g seq s = _; unfold execBroadcastRto; rfl)⟩
  | a2aDataArrival k => exact ⟨_, .inl (by show execA2aDataArrival k s = _; unfold execA2aDataArrival; rfl)⟩
  | a2aDoneArrival k => exact ⟨_, .inl (by show execA2aDoneArrival k s = _; unfold execA2aDoneArrival; rfl)⟩
  | countsArrival k => exact ⟨_, .inl (by show execCountsArrival k s = _; unfold execCountsArrival; rfl)⟩
  | a2aRto g seq member => exact ⟨_, .inl (by show execA2aRto g seq member s = _; unfold execA2aRto; rfl)⟩
  | instanceComplete g seq => exact ⟨_, .inl (by show execInstanceComplete g seq s = _; unfold execInstanceComplete; rfl)⟩
  | engineParity => exact ⟨_, .inl (by show execEngineParity s = _; unfold execEngineParity; rfl)⟩
  | confirmArrival k => exact ⟨_, .inl (by show execConfirmArrival k s = _; unfold execConfirmArrival; rfl)⟩
  | retractArrival k => exact ⟨_, .inl (by show execRetractArrival k s = _; unfold execRetractArrival; rfl)⟩
  | resendArrival k => exact ⟨_, .inl (by show execResendArrival k s = _; unfold execResendArrival; rfl)⟩
  | acceptArrival k => exact ⟨_, .inl (by show execAcceptArrival k s = _; unfold execAcceptArrival; rfl)⟩
  | retractRestoreDone g seq chunk half => exact ⟨_, .inl (by show execRetractRestoreDone g seq chunk half s = _; unfold execRetractRestoreDone; rfl)⟩
  | confirmRepeat g seq chunk half => exact ⟨_, .inl (by show execConfirmRepeat g seq chunk half s = _; unfold execConfirmRepeat; rfl)⟩
  | acceptTimeout g seq chunk half gather => exact ⟨_, .inl (by show execAcceptTimeout g seq chunk half gather s = _; unfold execAcceptTimeout; rfl)⟩
  | slotParity q => exact ⟨_, .inl (by show execSlotParity q s = _; unfold execSlotParity; rfl)⟩
  | cryVector t upd mism ups => exact ⟨_, .inl (by show execCryVector t upd mism ups s = _; unfold execCryVector; rfl)⟩
  | cryNormPassDone t => exact ⟨_, .inl (by show execCryNormPassDone t s = _; unfold execCryNormPassDone; rfl)⟩
  | cryNormDecide t g => exact ⟨_, .inl (by show execCryNormDecide t g s = _; unfold execCryNormDecide; rfl)⟩
  | cryUpdatePassDone t => exact ⟨_, .inl (by show execCryUpdatePassDone t s = _; unfold execCryUpdatePassDone; rfl)⟩
  | cryStepWrite t g v => exact ⟨_, .inl (by show execCryStepWrite t g v s = _; unfold execCryStepWrite; rfl)⟩
  | cryTableParity t => exact ⟨_, .inl (by show execCryTableParity t s = _; unfold execCryTableParity; rfl)⟩
  | harvestDrainEnd c => exact ⟨_, .inl (by show execHarvestDrainEnd c s = _; unfold execHarvestDrainEnd; rfl)⟩
  | harvestCrystallizeEnd c => exact ⟨_, .inl (by show execHarvestCrystallizeEnd c s = _; unfold execHarvestCrystallizeEnd; rfl)⟩
  | harvestSettleEnd c => exact ⟨_, .inl (by show execHarvestSettleEnd c s = _; unfold execHarvestSettleEnd; rfl)⟩
  | harvestHoldEnd c => exact ⟨_, .inl (by show execHarvestHoldEnd c s = _; unfold execHarvestHoldEnd; rfl)⟩
  | harvestTimeout c => exact ⟨_, .inl (by show execHarvestTimeout c s = _; unfold execHarvestTimeout; rfl)⟩
  | pwrVoteCtrl src v => exact ⟨_, .inl (by show execPwrVoteCtrl src v s = _; unfold execPwrVoteCtrl; rfl)⟩
  | domainAbortReturn d => exact ⟨_, .inl (by show execDomainAbortReturn d s = _; unfold execDomainAbortReturn; rfl)⟩
  | domainEntryComplete d => exact ⟨_, .inl (by show execDomainEntryComplete d s = _; unfold execDomainEntryComplete; rfl)⟩
  | domainRampStart d => exact ⟨_, .inl (by show execDomainRampStart d s = _; unfold execDomainRampStart; rfl)⟩
  | domainOn d ok => exact ⟨_, .inl (by show execDomainOn d ok s = _; unfold execDomainOn; rfl)⟩
  | rampFail d => exact ⟨_, .inl (by show execRampFail d s = _; unfold execRampFail; rfl)⟩
  | converterFault d => exact ⟨_, .inl (by show execConverterFault d s = _; unfold execConverterFault; rfl)⟩
  | wakePin low => exact ⟨_, .inl (by show execWakePin low s = _; unfold execWakePin; rfl)⟩
  | pwrWakeSwWrite v => exact ⟨_, .inl (by show execPwrWakeSwWrite v s = _; unfold execPwrWakeSwWrite; rfl)⟩
  | i3cIbi regs => exact ⟨_, .inl (by show execI3cIbi regs s = _; unfold execI3cIbi; rfl)⟩
  | powerCapInterval watts volts amps => exact ⟨_, .inl (by show execPowerCapInterval watts volts amps s = _; unfold execPowerCapInterval; rfl)⟩
  | tempWarn sensor temp => exact ⟨_, .inl (by show execTempWarn sensor temp s = _; unfold execTempWarn; rfl)⟩
  | tempClear sensor temp => exact ⟨_, .inl (by show execTempClear sensor temp s = _; unfold execTempClear; rfl)⟩
  | tempCrit sensor temp => exact ⟨_, .inl (by show execTempCrit sensor temp s = _; unfold execTempCrit; rfl)⟩
  | inUndervolt => exact ⟨_, .inl (by show execInUndervolt s = _; unfold execInUndervolt; rfl)⟩
  | inOvervolt => exact ⟨_, .inl (by show execInOvervolt s = _; unfold execInOvervolt; rfl)⟩
  | refclkLoss => exact ⟨_, .inl (by show execRefclkLoss s = _; unfold execRefclkLoss; rfl)⟩
  | rootUnlock => exact ⟨_, .inl (by show execRootUnlock s = _; unfold execRootUnlock; rfl)⟩
  | hclkUnlock => exact ⟨_, .inl (by show execHclkUnlock s = _; unfold execHclkUnlock; rfl)⟩
  | cxlPllUnlock c => exact ⟨_, .inl (by show execCxlPllUnlock c s = _; unfold execCxlPllUnlock; rfl)⟩
  | pciePllUnlock => exact ⟨_, .inl (by show execPciePllUnlock s = _; unfold execPciePllUnlock; rfl)⟩
  | pwrEnRise => exact ⟨_, .inr (by show execPwrEnRise s = _; unfold execPwrEnRise; rfl)⟩
  | pwrEnFall => exact ⟨_, .inr (by show execPwrEnFall s = _; unfold execPwrEnFall; rfl)⟩
  | mgmtRailFail => exact ⟨_, .inr (by show execMgmtRailFail s = _; unfold execMgmtRailFail; rfl)⟩
  | sysResetAssert => exact ⟨_, .inr (by show execSysResetAssert s = _; unfold execSysResetAssert; rfl)⟩
  | sysResetDeassert rack fuseOk => exact ⟨_, .inr (by show execSysResetDeassert rack fuseOk s = _; unfold execSysResetDeassert; rfl)⟩
  | perstAssert => exact ⟨_, .inr (by show execPerstAssert s = _; unfold execPerstAssert; rfl)⟩
  | hang b => exact ⟨_, .inl (by show execHang b s = _; unfold execHang; rfl)⟩
  | devHeartbeat => exact ⟨_, .inl (by show execDevHeartbeat s = _; unfold execDevHeartbeat; rfl)⟩
  | engineResetDone b ok => exact ⟨_, .inl (by show execEngineResetDone b ok s = _; unfold execEngineResetDone; rfl)⟩
  | resetWindowExpiry b => exact ⟨_, .inl (by show execResetWindowExpiry b s = _; unfold execResetWindowExpiry; rfl)⟩
  | engineResetReq b => exact ⟨_, .inl (by show execEngineResetReq b s = _; unfold execEngineResetReq; rfl)⟩
  | domainCycleReq b => exact ⟨_, .inl (by show execDomainCycleReq b s = _; unfold execDomainCycleReq; rfl)⟩
  | deviceResetReq => exact ⟨_, .inl (by show execDeviceResetReq s = _; unfold execDeviceResetReq; rfl)⟩
  | deviceResetHoldEnd => exact ⟨_, .inl (by show execDeviceResetHoldEnd s = _; unfold execDeviceResetHoldEnd; rfl)⟩
  | deviceResetPowerCycle causeClear => exact ⟨_, .inl (by show execDeviceResetPowerCycle causeClear s = _; unfold execDeviceResetPowerCycle; rfl)⟩
  | deviceResetRetrainDone => exact ⟨_, .inl (by show execDeviceResetRetrainDone s = _; unfold execDeviceResetRetrainDone; rfl)⟩
  | deviceReady => exact ⟨_, .inl (by show execDeviceReady s = _; unfold execDeviceReady; rfl)⟩
  | devInjectArmWrite v => exact ⟨_, .inl (by show execDevInjectArmWrite v s = _; unfold execDevInjectArmWrite; rfl)⟩
  | arrBist inst atHarvest ctx => exact ⟨_, .inl (by show execArrBist inst atHarvest ctx s = _; unfold execArrBist; rfl)⟩
  | cryKat inst atHarvest ctx => exact ⟨_, .inl (by show execCryKat inst atHarvest ctx s = _; unfold execCryKat; rfl)⟩
  | panBist inst atHarvest ctx => exact ⟨_, .inl (by show execPanBist inst atHarvest ctx s = _; unfold execPanBist; rfl)⟩
  | hbmRecal inst atHarvest ctx => exact ⟨_, .inl (by show execHbmRecal inst atHarvest ctx s = _; unfold execHbmRecal; rfl)⟩
  | vuBist inst atHarvest ctx => exact ⟨_, .inl (by show execVuBist inst atHarvest ctx s = _; unfold execVuBist; rfl)⟩
  | tileMbist inst atHarvest ctx => exact ⟨_, .inl (by show execTileMbist inst atHarvest ctx s = _; unfold execTileMbist; rfl)⟩
  | creelBist inst atHarvest ctx => exact ⟨_, .inl (by show execCreelBist inst atHarvest ctx s = _; unfold execCreelBist; rfl)⟩
  | serdesRecal inst atHarvest ctx => exact ⟨_, .inl (by show execSerdesRecal inst atHarvest ctx s = _; unfold execSerdesRecal; rfl)⟩
  | selftestDone pass elem => exact ⟨_, .inl (by show execSelftestDone pass elem s = _; unfold execSelftestDone; rfl)⟩
  | recLogWrite => exact ⟨_, .inl (by show execRecLogWrite s = _; unfold execRecLogWrite; rfl)⟩
  | recCursorWrite v ce ue => exact ⟨_, .inl (by show execRecCursorWrite v ce ue s = _; unfold execRecCursorWrite; rfl)⟩
  | bar2Access off op ups => exact ⟨_, .inl (by show execBar2Access off op ups s = _; unfold execBar2Access; rfl)⟩
  | pcieLinkDown => exact ⟨_, .inl (by show execPcieLinkDown s = _; unfold execPcieLinkDown; rfl)⟩
  | pkgLinkDown t => exact ⟨_, .inl (by show execPkgLinkDown t s = _; unfold execPkgLinkDown; rfl)⟩
  | keyParity => exact ⟨_, .inl (by show execKeyParity s = _; unfold execKeyParity; rfl)⟩
  | planInstall => exact ⟨_, .inl (by show execPlanInstall s = _; unfold execPlanInstall; rfl)⟩
  | ownerEnrol => exact ⟨_, .inl (by show execOwnerEnrol s = _; unfold execOwnerEnrol; rfl)⟩
  | ownerRemove => exact ⟨_, .inl (by show execOwnerRemove s = _; unfold execOwnerRemove; rfl)⟩
  | attest => exact ⟨_, .inl (by show execAttest s = _; unfold execAttest; rfl)⟩
  | getCert => exact ⟨_, .inl (by show execGetCert s = _; unfold execGetCert; rfl)⟩
  | fwFlash => exact ⟨_, .inl (by show execFwFlash s = _; unfold execFwFlash; rfl)⟩
  | svnAdvance => exact ⟨_, .inl (by show execSvnAdvance s = _; unfold execSvnAdvance; rfl)⟩
  | laneTable => exact ⟨_, .inl (by show execLaneTable s = _; unfold execLaneTable; rfl)⟩
  | quilanMsg m => exact ⟨_, .inl (by show execQuilanMsg m s = _; unfold execQuilanMsg; rfl)⟩
  | debugEnable nonce => exact ⟨_, .inl (by show execDebugEnable nonce s = _; unfold execDebugEnable; rfl)⟩
  | debugDisable => exact ⟨_, .inl (by show execDebugDisable s = _; unfold execDebugDisable; rfl)⟩
  | unknownCommand => exact ⟨_, .inl (by show execUnknownCommand s = _; unfold execUnknownCommand; rfl)⟩
  | mbOutAck => exact ⟨_, .inl (by show execMbOutAck s = _; unfold execMbOutAck; rfl)⟩
  | bootGo => exact ⟨_, .inl (by show execBootGo s = _; unfold execBootGo; rfl)⟩
  | bootReboot => exact ⟨_, .inl (by show execBootReboot s = _; unfold execBootReboot; rfl)⟩
  | romFlashReadDone => exact ⟨_, .inl (by show execRomFlashReadDone s = _; unfold execRomFlashReadDone; rfl)⟩
  | debugExpiry => exact ⟨_, .inl (by show execDebugExpiry s = _; unfold execDebugExpiry; rfl)⟩
  | i3cTelemetry acked => exact ⟨_, .inl (by show execI3cTelemetry acked s = _; unfold execI3cTelemetry; rfl)⟩
  | pcieLinkUp width rate => exact ⟨_, .inl (by show execPcieLinkUp width rate s = _; unfold execPcieLinkUp; rfl)⟩
  | cxlLinkUp c width rate => exact ⟨_, .inl (by show execCxlLinkUp c width rate s = _; unfold execCxlLinkUp; rfl)⟩
  | hbmTrainingDone n => exact ⟨_, .inl (by show execHbmTrainingDone n s = _; unfold execHbmTrainingDone; rfl)⟩
  | hbmTempNormal n temp => exact ⟨_, .inl (by show execHbmTempNormal n temp s = _; unfold execHbmTempNormal; rfl)⟩
/-- A property that no round of a loop changes is not changed by the loop. -/
theorem foldl_keeps {α β : Type} (P : State → β) (f : State → α → State) (h : ∀ s a, P (f s a) = P s) (l : List α) (s : State) :
    P (l.foldl f s) = P s := by
  induction l generalizing s with
  | nil => rfl
  | cons a l ih => rw [List.foldl_cons, ih, h]

theorem State.msix_hst (s : State) (v : Nat) : (s.msix v).hst = s.hst := by unfold State.msix; split <;> rfl
theorem State.msix_newEvts (s : State) (v : Nat) : (s.msix v).newEvts = s.newEvts := by unfold State.msix; split <;> rfl
theorem State.msix_newVecs (s : State) (v : Nat) : (s.msix v).newVecs = s.newVecs := by unfold State.msix; split <;> rfl

theorem State.tell_new (s : State) (m : QMsg) : ((s.tell m).newEvts, (s.tell m).newVecs) = (s.newEvts, s.newVecs) := by
  unfold State.tell
  split
  · rfl
  · split <;> rfl

theorem State.notify_new (s : State) (e : Evt) (n : Nat) : ((s.notify e n).newEvts, (s.notify e n).newVecs) = (s.newEvts, s.newVecs) := by
  unfold State.notify
  extract_lets cfg k fresh
  split
  · rfl
  · split
    · exact State.tell_new _ _
    · rfl

theorem State.autoAck_new (s : State) (e : Evt) : ((s.autoAck e).newEvts, (s.autoAck e).newVecs) = (s.newEvts, s.newVecs) := by
  unfold State.autoAck; split <;> rfl

theorem State.enqueue_new (s : State) (e : Evt) : ((s.enqueue e).newEvts, (s.enqueue e).newVecs) = (s.newEvts, s.newVecs) := by
  unfold State.enqueue
  split
  · rfl
  · exact (State.autoAck_new _ _).trans (State.notify_new _ _ _)

theorem State.placeOut_new (s : State) : (s.placeOut.newEvts, s.placeOut.newVecs) = (s.newEvts, s.newVecs) := by
  unfold State.placeOut
  split
  · dsimp only; rw [State.msix_newEvts, State.msix_newVecs]; rfl
  · rfl

/-- After the placing of a message, one stands in HST_MB_OUT or none waits (R370). -/
theorem State.placeOut_placed (s : State) : s.placeOut.hst.mbPlaced = true ∨ s.placeOut.hst.mbOut = [] := by
  unfold State.placeOut
  split
  · left; dsimp only; rw [State.msix_hst]
  · rename_i h
    cases h1 : s.hst.mbPlaced
    · cases h2 : s.hst.mbOut with
      | nil => exact .inr rfl
      | cons m r => exact (h m r h1 h2).elim
    · exact .inl rfl

/-- After the flush nothing of the cycle is left in its block. -/
theorem State.flush_new (s : State) : (s.flush.newEvts, s.flush.newVecs) = ([], []) := by
  unfold State.flush
  extract_lets es vs s1 s2
  refine (State.placeOut_new _).trans ?_
  refine (foldl_keeps (fun s => (s.newEvts, s.newVecs)) State.msix (fun s v => by rw [State.msix_newEvts, State.msix_newVecs]) vs s2).trans ?_
  exact foldl_keeps (fun s => (s.newEvts, s.newVecs)) State.enqueue State.enqueue_new es s1

theorem State.flush_placed (s : State) : s.flush.hst.mbPlaced = true ∨ s.flush.hst.mbOut = [] := State.placeOut_placed _

theorem State.endCycle_new (s : State) : (s.endCycle.newEvts, s.endCycle.newVecs) = ([], []) := by
  unfold State.endCycle
  extract_lets
  apply State.flush_new

theorem State.endCycle_placed (s : State) : s.endCycle.hst.mbPlaced = true ∨ s.endCycle.hst.mbOut = [] := by
  unfold State.endCycle
  extract_lets
  apply State.flush_placed

end Sys2Proof.Machine
end

