-- ==== Sys2Proof/Laws/Effects.lean ====
section
/-!
SUPPORT. What the shared operations do, said once: votes and levels, tables, the recorder's slots, the staging SRAM, creel and port choices, and what reports and
settling leave alone.
-/
namespace Sys2Proof.Machine

/-- A spindle that issues is in RUN. -/
theorem State.spnRuns_spn {s : State} {t : Nat} (h : s.spnRuns t = true) : (s.tile t).spn = 1 := by
  simp [State.spnRuns] at h; exact h.1.1

/-- An array changed twice. -/
theorem State.modArr_modArr (s : State) (i : Nat) (f g : Arr → Arr) : (s.modArr i f).modArr i g = s.modArr i fun x => g (f x) := by
  simp only [State.modArr, State.setArr, Table.set_set]
  simp [State.arr]

/-- What the writes of a DRAIN leave alone. -/
theorem State.drainPut_keeps {β : Type} (P : State → β) (hm : ∀ (s : State) m v, P { s with mem := m, upsets := v } = P s)
    (hr : ∀ s o f, P (s.count o f) = P s) (hb : ∀ s b x, P (s.setBlk b x) = P s) (s : State) (l : List (Nat × List Byte)) :
    P (s.drainPut l) = P s :=
  foldl_keep P _ (fun s _ => (State.wr_keeps P hm _ _ _).trans (State.volume_keeps P hr hb s _ _ _)) l s

/-- Lane i of a register built lane by lane. -/
theorem lane_map (f : Nat → W32) (i : Nat) (h : i < 2048) : lane ((List.range lanes).map f) i = f i := by
  simp [lane, lanes, h]

/-- An access that is granted changes nothing. -/
theorem State.access_granted {s t : State} {w : Who} {o n : Nat} {wr : Bool} (h : s.access w o n wr = (0, t)) : t = s := by
  unfold State.access at h
  dsimp only at h
  split at h
  · simp [stDenied] at h
  · split at h
    · simp only [Prod.mk.injEq, true_and] at h; exact h.symm
    · split at h
      · simp [stDenied] at h
      · simp only [Prod.mk.injEq] at h; exact h.2.symm

/-- With no injected failure pending, an access from a source that reaches the registers is admitted. -/
theorem State.admit_uninjected (s : State) (src : Src) (hr : s.srcReaches src = true) (hu : s.uninjected = true) : s.letIn src = (true, s) := by
  unfold State.letIn
  simp only [hr]
  cases src <;> simp [State.hostTlp, State.detect, State.takeInject_uninjected, hu]

/-- The bits of a word built bit by bit. -/
theorem bit_fold (f : Nat → Bool) (n : Nat) (hn : n ≤ 64) (d : Nat) :
    (((List.range n).foldl (fun (m : W64) d => if f d then m ||| bitMask d else m) 0).bit d) = (decide (d < n) && f d) := by
  induction n with
  | zero => simp [BitVec.bit]
  | succ n ih =>
    rw [List.range_succ, List.foldl_append]
    have ih := ih (by omega)
    simp only [List.foldl_cons, List.foldl_nil]
    have hb : (bitMask n).bit d = decide (d = n) := by
      simp only [bitMask, BitVec.bit, BitVec.getLsbD_ofNat, Nat.testBit_two_pow]
      by_cases h : n = d
      · subst h; simp; omega
      · simp [h, Ne.symm h]
    split
    · rename_i h
      simp only [BitVec.bit] at ih hb ⊢
      rw [BitVec.getLsbD_or, ih, hb]
      by_cases h2 : d = n
      · subst h2; simp [h]
      · have : (d < n + 1) ↔ d < n := by omega
        simp [h2, this]
    · rename_i h
      rw [ih]
      by_cases h2 : d = n
      · subst h2; simp [h]
      · have : (d < n + 1) ↔ d < n := by omega
        simp [this]

/-- A block kind has at most 64 detectors. -/
theorem sevs_le (k : Kind) : k.sevs.length ≤ 64 := by cases k <;> decide

/-- A block has at most 64 detectors. -/
theorem detCount_le (b : Nat) : detCount b ≤ 64 := sevs_le _

/-- The loader leaves the switch core alone. -/
theorem State.loadTo_swc (s : State) (a b : Nat) (f : LdFail) : (s.loadTo a b f).swc = s.swc := by
  unfold State.loadTo State.note State.capture State.wantVec
  dsimp only
  split <;> rfl

/-- A message to Quilan changes no port. -/
theorem State.tell_port (s : State) (m : QMsg) (p : Nat) : (s.tell m).port p = s.port p := by
  unfold State.tell; split <;> [rfl; split <;> rfl]

theorem State.note_port (s : State) (b c : Nat) (v : W64) (p : Nat) : (s.note b c v).port p = s.port p := rfl

theorem State.wantVec_port (s : State) (b p : Nat) : (s.wantVec b).port p = s.port p := by
  unfold State.wantVec; split <;> rfl

theorem State.wantVec_chip (s : State) (b : Nat) : (s.wantVec b).chip = s.chip := by
  unfold State.wantVec; split <;> rfl

theorem State.wantVec_portState (s : State) (b p : Nat) : (s.wantVec b).portState p = s.portState p := by
  unfold State.wantVec; split <;> rfl

theorem State.note_portState (s : State) (b c : Nat) (v : W64) (p : Nat) : (s.note b c v).portState p = s.portState p := rfl

theorem State.note_chip (s : State) (b c : Nat) (v : W64) : (s.note b c v).chip = s.chip := rfl

theorem State.setPort_chip (s : State) (p : Nat) (x : Port) : (s.setPort p x).chip = s.chip := rfl

/-- A port replaced reads as the new record. -/
theorem State.setPort_port (s : State) (p : Nat) (x : Port) : (s.setPort p x).port p = x := by
  simp [State.port, State.setPort, Table.get_set]

/-- A report arms no injection. -/
theorem State.flag_uninjected (s : State) (h : s.uninjected = true) (b d : Nat) (r : Rpt) : (s.flag b d r).uninjected = true := by
  have hk (x : Blk) (hx : x.inject = (s.blk b).inject) : (s.setBlk b x).uninjected = true :=
    s.uninjected_setBlk b x h (by rw [hx]; exact s.uninjected_blk h b)
  unfold State.flag
  extract_lets base evt k outstanding eff s1 s0 s2 s3
  split
  · exact h
  split
  · exact h
  split
  · exact h
  have h2 : s2.uninjected = true := hk _ rfl
  have hv (t : State) (ht : t.uninjected = true) (v : Nat) : (t.wantVec v).uninjected = true := by
    unfold State.wantVec; split <;> exact ht
  have h3 : s3.uninjected = true := by
    simp only [s3]
    split
    · exact h2
    · exact hv _ h2 _
  split
  · unfold State.s4
    split
    · exact h3
    · dsimp only
      split <;> exact h3
  split
  · split
    · exact h3
    · exact h3
  · exact h3

/-- A clean word passes where no injected failure waits. -/
theorem State.look_clean (s : State) (h : s.uninjected = true) (b : Bool) : s.look .clean b = (true, s) := by
  cases b <;> simp [State.look, State.detect, State.takeInject_uninjected, h]

/-- The least occupied of a list stands in the list. -/
theorem leastFull_mem (occ : Nat → Nat) : ∀ (l : List Nat) (p : Nat), leastFull occ l = some p → p ∈ l := by
  intro l
  induction l with
  | nil => simp [leastFull]
  | cons a l ih =>
    intro p h
    simp only [leastFull] at h
    split at h
    · simp_all
    · split at h <;> simp_all

/-- The value of a number listed in a table built from a list. -/
theorem Table.get_listed (f : Nat → Nat) (d c : Nat) : ∀ l : List Nat, c ∈ l → Table.get d ((l.map fun c => (c, f c)).filter fun x => x.2 != d) c = f c := by
  have h0 : ∀ l : List Nat, f c = d → Table.get d ((l.map fun c => (c, f c)).filter fun x => x.2 != d) c = d := by
    intro l h
    induction l with
    | nil => rfl
    | cons a l ih =>
      simp only [List.map_cons, List.filter_cons]
      split
      · rename_i h1
        simp only [Table.get]
        split
        · rename_i h2; subst h2; simp [h] at h1
        · exact ih
      · exact ih
  intro l hl
  induction l with
  | nil => simp at hl
  | cons a l ih =>
    simp only [List.map_cons, List.filter_cons]
    by_cases hc : c = a
    · subst hc
      split
      · simp [Table.get]
      · rename_i h1
        simp at h1
        rw [h1]; exact h0 l h1
    · have hl : c ∈ l := by simpa [hc] using hl
      split
      · simp only [Table.get]
        split
        · rename_i h2; exact absurd h2 hc
        · exact ih hl
      · exact ih hl

/-- A table whose records are all changed. -/
theorem Table.get_mapVals {α : Type} (g : Nat → α → α) (d : α) (k : Nat) : ∀ m : Table α,
    Table.get d (m.map fun (x : Nat × α) => (x.1, g x.1 x.2)) k = g k (Table.get d m k) ∨ Table.get d (m.map fun (x : Nat × α) => (x.1, g x.1 x.2)) k = d ∧ Table.get d m k = d := by
  intro m
  induction m with
  | nil => exact .inr ⟨rfl, rfl⟩
  | cons y m ih =>
    obtain ⟨j, v⟩ := y
    simp only [List.map_cons, Table.get]
    split
    · rename_i h; subst h; exact .inl rfl
    · exact ih

def stepFn (s : State) (n : Nat) (nd : Node) : Node :=
  match s.nodeCfgs[n]? with
    | none => nd
    | some c =>
      { nd with used := (s.shape n c).2 - min (s.shape n c).2 (((s.shapes.find n).getD (c.rate, c.burst)).2 - nd.used + 5 * (s.shape n c).1 * max 1 ((s.rg (blkR 4 0x040)).fld 0 5)) }

/-- The lowest free number is not busy, or every number of the range is. -/
theorem lowestFree_free (busy : List Nat) : ∀ f k, lowestFree busy f k ∉ busy ∨ lowestFree busy f k = k + f ∧ ∀ i, k ≤ i → i < k + f → i ∈ busy := by
  intro f
  induction f with
  | zero => intro k; exact .inr ⟨rfl, fun i h h' => absurd h' (by omega)⟩
  | succ f ih =>
    intro k
    simp only [lowestFree]
    split
    · rename_i h
      rcases ih (k + 1) with h' | ⟨h', h2⟩
      · exact .inl h'
      · refine .inr ⟨by omega, fun i h3 h4 => ?_⟩
        rcases Nat.eq_or_lt_of_le h3 with h5 | h5
        · subst h5; simpa using h
        · exact h2 i (by omega) (by omega)
    · rename_i h
      exact .inl (by simpa using h)

/-- A base-4 digit replaced. -/
theorem vote_digits (x : Nat) (k v : Nat) (hv : v < 4) (a : Nat) (ha : a = x / 4 ^ k % 4) :
    x - a * 4 ^ k + v * 4 ^ k = x / 4 ^ (k + 1) * 4 ^ (k + 1) + (v * 4 ^ k + x % 4 ^ k) := by
  have hp : 0 < 4 ^ k := Nat.pow_pos (by decide)
  have e1 : x = 4 ^ k * (x / 4 ^ k) + x % 4 ^ k := (Nat.div_add_mod x (4 ^ k)).symm
  have e2 : x / 4 ^ k = 4 * (x / 4 ^ k / 4) + a := by omega
  have e3 : x / 4 ^ (k + 1) = x / 4 ^ k / 4 := by rw [Nat.pow_succ, Nat.div_div_eq_div_mul]
  rw [e3, Nat.pow_succ]
  generalize x / 4 ^ k / 4 = q at *
  rw [e2] at e1
  generalize x % 4 ^ k = r at *
  generalize 4 ^ k = m at *
  have e4 : x = q * (m * 4) + a * m + r := by rw [e1]; ring
  rw [e4]
  have : q * (m * 4) + a * m + r - a * m = q * (m * 4) + r := by omega
  rw [this]; omega

/-- A vote slot reads as it was last written, and the others as before. -/
theorem Dom.setVote_vote (x : Dom) (k v : Nat) (hv : v < 4) : (x.setVote k v).vote k = v ∧ ∀ j, j ≠ k → (x.setVote k v).vote j = x.vote j := by
  have hp : 0 < 4 ^ k := Nat.pow_pos (by decide)
  have h4 (j : Nat) : 2 ^ (2 * j) = 4 ^ j := by rw [Nat.pow_mul]
  have ha : x.vote k = x.votes / 4 ^ k % 4 := by simp [Dom.vote, fld, h4]
  have e : (x.setVote k v).votes = _ := vote_digits x.votes k v hv (x.vote k) ha
  have hr : x.votes % 4 ^ k < 4 ^ k := Nat.mod_lt _ hp
  refine ⟨?_, fun j hj => ?_⟩
  · show fld (x.setVote k v).votes (2 * k) 2 = v
    simp only [fld, h4, e]
    rw [Nat.pow_succ]
    have : x.votes / (4 ^ k * 4) * (4 ^ k * 4) + (v * 4 ^ k + x.votes % 4 ^ k) = x.votes % 4 ^ k + 4 ^ k * (4 * (x.votes / (4 ^ k * 4)) + v) := by ring
    rw [this, Nat.add_mul_div_left _ _ hp, Nat.div_eq_of_lt hr]
    omega
  · show fld (x.setVote k v).votes (2 * j) 2 = fld x.votes (2 * j) 2
    simp only [fld, h4, e]
    rcases Nat.lt_or_gt_of_ne hj with h | h
    · obtain ⟨i, rfl⟩ : ∃ i, k = j + 1 + i := ⟨k - (j + 1), by omega⟩
      have hj : 0 < 4 ^ j := Nat.pow_pos (by decide)
      have e1 : x.votes / 4 ^ (j + 1 + i + 1) * 4 ^ (j + 1 + i + 1) + (v * 4 ^ (j + 1 + i) + x.votes % 4 ^ (j + 1 + i)) =
          x.votes % 4 ^ (j + 1 + i) + 4 ^ j * (4 * (4 ^ i * (4 * (x.votes / 4 ^ (j + 1 + i + 1)) + v))) := by ring
      have e2 : x.votes = x.votes % 4 ^ (j + 1 + i) + 4 ^ j * (4 * (4 ^ i * (x.votes / 4 ^ (j + 1 + i)))) := by
        conv => lhs; rw [← Nat.mod_add_div x.votes (4 ^ (j + 1 + i))]
        ring
      rw [e1, Nat.add_mul_div_left _ _ hj]
      conv => rhs; rw [e2, Nat.add_mul_div_left _ _ hj]
      omega
    · obtain ⟨i, rfl⟩ : ∃ i, j = k + 1 + i := ⟨j - (k + 1), by omega⟩
      have hb : v * 4 ^ k + x.votes % 4 ^ k < 4 ^ (k + 1) := by rw [Nat.pow_succ]; nlinarith
      have hq : 0 < 4 ^ (k + 1) := Nat.pow_pos (by decide)
      rw [Nat.pow_add 4 (k + 1) i, ← Nat.div_div_eq_div_mul, ← Nat.div_div_eq_div_mul]
      congr 2
      rw [Nat.mul_comm, Nat.mul_add_div hq, Nat.div_eq_of_lt hb]; rfl

theorem foldl_max (l : List Nat) (b : Nat) : b ≤ l.foldl max b ∧ (∀ a ∈ l, a ≤ l.foldl max b) ∧ (l.foldl max b = b ∨ l.foldl max b ∈ l) := by
  induction l generalizing b with
  | nil => simp
  | cons x l ih =>
    obtain ⟨h1, h2, h3⟩ := ih (max b x)
    rw [List.foldl_cons]
    refine ⟨by omega, fun a ha => ?_, ?_⟩
    · rcases List.mem_cons.1 ha with rfl | ha
      · omega
      · exact h2 a ha
    · rcases h3 with h3 | h3
      · rcases Nat.le_total b x with h | h
        · right; rw [h3, Nat.max_eq_right h]; simp
        · left; rw [h3, Nat.max_eq_left h]
      · right; exact List.mem_cons_of_mem _ h3

/-- No element of a list lies above its largest. -/
theorem maxOf_ge (l : List Nat) (a : Nat) (h : a ∈ l) : a ≤ maxOf l := (foldl_max l 0).2.1 a h

/-- The largest of a list stands in it. -/
theorem maxOf_mem (l : List Nat) (h : maxOf l ≠ 0) : maxOf l ∈ l := (foldl_max l 0).2.2.resolve_left h

/-- The lower of two states. -/
theorem Lvl.min_rank (a b : Lvl) : (Lvl.min a b).rank ≤ a.rank ∧ (Lvl.min a b).rank ≤ b.rank := by
  cases a <;> cases b <;> decide

/-- A saturating counter in the upper half of a register. -/
theorem State.satHigh_rg (s : State) (o n p : Nat) : (s.sat o 32 32 n).rg p = if p = o then BitVec.ofNat 64 ((s.rg o).toNat % 2 ^ 32 + min ((s.rg o).fld 32 32 + n) (2 ^ 32 - 1) * 2 ^ 32) else s.rg p := by
  have hl : (s.rg o).toNat < 2 ^ 64 := (s.rg o).isLt
  have e : (s.rg o).toNat - fld (s.rg o).toNat 32 32 * 2 ^ 32 + satAdd 32 (fld (s.rg o).toNat 32 32) n * 2 ^ 32 =
      (s.rg o).toNat % 2 ^ 32 + min ((s.rg o).fld 32 32 + n) (2 ^ 32 - 1) * 2 ^ 32 := by
    simp only [fld, BitVec.fld, satAdd]; omega
  rw [State.sat, State.count_rg]
  dsimp only
  rw [e]

/-- What the settling of domains leaves alone. -/
theorem State.settlePower_keeps {β : Type} (P : State → β) (hd : ∀ s d x, P (s.setDom d x) = P s) (hr : ∀ s o f, P (s.count o f) = P s)
    (hn : ∀ (s : State) n, P { s with newDoms := n } = P s) (s : State) (k : Nat) : P (s.settlePower k) = P s := by
  refine foldl_keeps P _ (fun s d => ?_) _ _
  have he (frm dest : Lvl) : P (s.enter d frm dest) = P s := by
    unfold State.enter; dsimp only; split
    · rw [hn, hd]
    · rw [hd]
  unfold State.settleDom
  dsimp only
  split
  · split <;> [exact he _ _; rfl]
  · split <;> [exact he _ _; rfl]
  · split
    · unfold State.sat; dsimp only; rw [hr, hd]
    · rfl
  · rfl

/-- What a vote leaves alone. -/
theorem State.vote_keeps {β : Type} (P : State → β) (hd : ∀ s d x, P (s.setDom d x) = P s) (hr : ∀ s o f, P (s.count o f) = P s)
    (hn : ∀ (s : State) n, P { s with newDoms := n } = P s) (s : State) (k v : Nat) (ds : List Nat) : P (s.vote k v ds) = P s := by
  unfold State.vote
  rw [State.settlePower_keeps P hd hr hn]
  refine foldl_keeps P _ (fun s d => ?_) _ _
  unfold State.voteOne
  dsimp only
  split
  · unfold State.sat; dsimp only; rw [hr, hd, hd]
  · rw [hd]

/-- What the clearing of a slot leaves alone. -/
theorem State.clearSlot_keeps {β : Type} (P : State → β) (hd : ∀ s d x, P (s.setDom d x) = P s) (hr : ∀ s o f, P (s.count o f) = P s)
    (hn : ∀ (s : State) n, P { s with newDoms := n } = P s) (s : State) (k : Nat) : P (s.clearSlot k) = P s := by
  unfold State.clearSlot
  rw [State.settlePower_keeps P hd hr hn]
  exact foldl_keeps P _ (fun s d => hd _ _ _) _ _

/-- The free slot of the log is the lowest. -/
theorem freeSlot_first (m : Table Slot) (a k : Nat) (h : freeSlot m a = some k) (hr : Table.rising m = true) (hb : ∀ x ∈ m, a ≤ x.1) (hm : ∀ x ∈ m, x.1 < 65536) :
    k < 65536 ∧ a ≤ k ∧ (∀ n x, m.find k ≠ some (.entry n x)) ∧ ∀ j, a ≤ j → j < k → ∃ n x, m.find j = some (.entry n x) := by
  induction m generalizing a with
  | nil =>
    simp only [freeSlot] at h
    by_cases h1 : a < logSlots
    · rw [if_pos h1] at h; simp only [Option.some.injEq] at h; subst h
      exact ⟨h1, Nat.le_refl _, by simp [Table.find], fun j h1 h2 => by omega⟩
    · rw [if_neg h1] at h; simp at h
  | cons y m ih =>
    obtain ⟨j, x⟩ := y
    have h1 := hb (j, x) (by simp)
    have h2 := hm (j, x) (by simp)
    rw [Table.rising_cons] at hr
    have hab : ∀ z ∈ m, j < z.1 := fun z hz => hr.1 z hz
    have hn (i : Nat) (hi : i ≤ j) : Table.find m i = none := by
      clear ih h hr hb hm
      induction m with
      | nil => rfl
      | cons z m ih => obtain ⟨b, v⟩ := z; have := hab (b, v) (by simp); simp only [Table.find]; rw [if_neg (by simp at this; omega)]; exact ih fun z hz => hab z (by simp [hz])
    simp only [freeSlot] at h
    simp only at h1 h2
    split at h
    · simp only [Option.some.injEq] at h; subst h
      refine ⟨by omega, Nat.le_refl _, ?_, fun i h3 h4 => by omega⟩
      simp only [Table.find]; rw [if_neg (by omega), hn _ (by omega)]; simp
    · have hj : j = a := by omega
      subst hj
      cases x with
      | lost =>
        simp only [Option.some.injEq] at h; subst h
        refine ⟨h2, Nat.le_refl _, ?_, fun i h3 h4 => by omega⟩
        simp [Table.find]
      | entry n e =>
        obtain ⟨g1, g2, g3, g4⟩ := ih (j + 1) h hr.2 (fun z hz => hab z hz) (fun z hz => hm z (by simp [hz]))
        refine ⟨g1, by omega, ?_, fun i h3 h4 => ?_⟩
        · simp only [Table.find]; rw [if_neg (by omega)]; exact g3
        · by_cases h5 : i = j
          · subst h5; exact ⟨n, e, by simp [Table.find]⟩
          · simp only [Table.find]; rw [if_neg h5]; exact g4 i (by omega) h4

/-- The staging SRAM after a write. -/
theorem State.stagingWrite_get (off : Nat) (bs : List Byte) (k : Nat) (s : State) (a : Nat) :
    (((bs.zip (List.range' k bs.length)).foldl (fun s (x : Byte × Nat) =>
      if off + x.2 < stagingSize then { s with hst := { s.hst with staging := s.hst.staging.set (off + x.2) x.1 } } else s) s).hst.staging.get 0 a) =
    if off + k ≤ a ∧ a < off + k + bs.length ∧ a < stagingSize then bs.getD (a - off - k) 0 else s.hst.staging.get 0 a := by
  induction bs generalizing k s with
  | nil => simp; intro h1 h2; omega
  | cons b bs ih =>
    rw [List.length_cons, List.range'_succ, List.zip_cons_cons, List.foldl_cons, ih]
    by_cases h1 : off + k < stagingSize
    · simp only [h1, if_true, Table.get_set]
      by_cases h2 : a = off + k
      · subst h2; rw [if_neg (by omega), if_pos rfl, if_pos (by omega)]; simp
      · rw [if_neg h2]
        by_cases h3 : off + (k + 1) ≤ a ∧ a < off + (k + 1) + bs.length ∧ a < stagingSize
        · rw [if_pos h3, if_pos (by omega)]
          rw [show a - off - k = (a - off - (k + 1)) + 1 by omega]; simp
        · rw [if_neg h3, if_neg (by omega)]
    · simp only [h1, if_false]
      by_cases h3 : off + (k + 1) ≤ a ∧ a < off + (k + 1) + bs.length ∧ a < stagingSize
      · omega
      · rw [if_neg h3, if_neg (by omega)]

end Sys2Proof.Machine
end

