-- ==== Sys2Proof/Certificates/Slice0/Obligations.lean ====
section
/-!
DEFINITION. The statements about the model. `Answers c s t` (Safety.lean) says that command c on state s has the effect t, after which the CCLK cycle closes, and that nothing
else changes where t leaves nothing due; each statement that has a premise s.alive speaks of a device that is powered and out of reset.
-/
open Sys2Proof Sys2Proof.Machine

/-! ## The sync slot of a spindle (R64 to R69, R72) -/

/-- WAIT and TAKE on a tally without error (R64, R65): where the count has reached n the bundle issues, and TAKE subtracts n; where it has
not, the spindle waits and the held cycle counts.

WAIT_SATISFIED (R64, R71, R72): once the tally has reached n, the cycle that sees it is the last held one and counts in SPN_WAIT_CNT; in the next cycle
what the spindle holds issues, the whole bundle at the PC or the command of the sync slot alone, unless that cycle is throttled, which counts.

A WAIT or TAKE whose tally has its error flag set does not issue, whatever the count: the spindle enters ERROR and reports TALLY_ERROR
(detector 5, S2) with cause 4 and the tally (R66, Table 3-15). -/
def Obligations.WaitAndTakeFollowTheTally : Prop :=
  (∀ (s : State) (t : Fin 8) (k : Fin 248) (n : Fin 67108864), s.alive = true → s.spnRuns t = true → s.uninjected = true →
     (s.tally t k).err = false →
     let c := (s.tally t k).count
     let pc := (s.tile t).pc
     let r := s.aclk t 1
     (n ≤ c → Answers (.wait t k n) s (r.spnNext t (pc + 1)) ∧
       Answers (.take t k n) s ((r.setTally t k { s.tally t k with count := c - n }).spnNext t (pc + 1))) ∧
     (c < n → ∀ take : Bool, Answers (if take then .take t k n else .wait t k n) s
       ((r.wrap (blkR (spnBlk t) 0x068) 48 1).modTile t fun x =>
         { x with spn := 2, waitT := k, hold := some { tally := k, n := n, take := take, prog := false } }))) ∧
  (∀ (s : State) (t : Fin 8) (j : Fin 64) (y0 y1 : Ecc) (h : Hold), s.alive = true → s.ok (spnBlk t) = true → s.uninjected = true →
     (s.tile t).spn = 2 → (s.tile t).hold = some h →
     (s.tally t h.tally).err = false → h.n ≤ (s.tally t h.tally).count →
     let r := ((((s.aclk t 1).wrap (blkR (spnBlk t) 0x068) 48 1).modTile t fun x =>
       { x with spn := 1, hold := if h.prog then none else some h }).aclk t 1)
     let late := throttled (s.dutyAt (3 * s.cclk + ((s.tile t).ac + 1))) j
     (late = false → h.prog = false → Answers (.waitSatisfied t j y0 y1) s
       ((if h.take then r.setTally t h.tally { s.tally t h.tally with count := (s.tally t h.tally).count - h.n } else r).spnNext t
         ((s.tile t).pc + 1))) ∧
     (late = false → h.prog = true → Answers (.waitSatisfied t j y0 y1) s (r.tryIssue t y0 y1)) ∧
     (late = true → Answers (.waitSatisfied t j y0 y1) s (r.wrap (blkR (spnBlk t) 0x070) 48 1))) ∧
  (∀ (s : State) (t : Fin 8) (k : Fin 248) (n : Fin 67108864) (take : Bool), s.alive = true → s.spnRuns t = true → s.uninjected = true →
     (s.tally t k).err = true →
     let r := (s.aclk t 1).spnReport t 5 4 k
     Answers (if take then .take t k n else .wait t k n) s ((r.modTile t fun x => { x with spn := 6 }).msix (259 + (r.tile t).ctx)) ∧
     detBase (spnBlk t) 5 = 2)

/-- ADD, LOOP, ENDLOOP, STEP_END and HALT (R64, R68, R69, R72): what each changes beside the issue of its bundle.

The issue of a bundle (R48, Table 3-15): SPN_ISSUE_CNT and BLK_PROGRESS of the spindle's block advance by one and wrap, the spindle is in RUN at
the PC given, and its tallies, its loop stack and every other tile are as before. -/
def Obligations.SyncCommandsIssue : Prop :=
  (∀ (s : State) (t : Fin 8), s.alive = true → s.spnRuns t = true → s.uninjected = true →
     let x := s.tile t
     (∀ (k : Fin 248) (n : Fin 67108864), (s.tally t k).count + n < 2 ^ 32 →
       Answers (.syncAdd t k n) s ((s.spnNext t (x.pc + 1)).setTally t k { s.tally t k with count := (s.tally t k).count + n })) ∧
     (∀ n : Fin 16777216, Answers (.loop t n) s ((s.modTile t fun x => { x with loops := (x.pc + 1, n.val) :: x.loops }).spnNext t (x.pc + 1))) ∧
     (∀ b n rest, x.loops = (b, n) :: rest → 2 ≤ n →
       Answers (.endloop t) s ((s.modTile t fun x => { x with loops := (b, n - 1) :: rest }).spnNext t b)) ∧
     (∀ b n rest, x.loops = (b, n) :: rest → n < 2 →
       Answers (.endloop t) s ((s.modTile t fun x => { x with loops := rest }).spnNext t (x.pc + 1))) ∧
     Answers (.stepEnd t) s (((s.spnNext t (x.pc + 1)).modTile t fun x => { x with spn := 4 }).stepReport t) ∧
     Answers (.halt t) s (((s.spnNext t (x.pc + 1)).modTile t fun x => { x with spn := 5 }).msix (259 + x.ctx))) ∧
  (∀ (s : State) (t : Fin 8) (pc : Nat),
     let r := s.spnNext t pc
     (r.rg (blkR (spnBlk t) 0x060)).toNat = ((s.rg (blkR (spnBlk t) 0x060)).toNat + 1) % 2 ^ 48 ∧
     (r.blk (spnBlk t)).progress = ((s.blk (spnBlk t)).progress + 1) % 2 ^ 32 ∧
     (r.tile t).spn = 1 ∧ (r.tile t).pc = pc ∧ (r.tile t).tallies = (s.tile t).tallies ∧ (r.tile t).loops = (s.tile t).loops ∧
     (∀ u, u ≠ t.val → r.tile u = s.tile u) ∧ (∀ o, o ≠ blkR (spnBlk t) 0x060 → r.rg o = s.rg o) ∧
     r.mem = s.mem ∧ r.ports = s.ports ∧ r.ctxs = s.ctxs ∧ r.doms = s.doms)

/-! ## The issue of bundles, and the matrix arrays (R48, R51, R70, R71, R81 to R97) -/

/-- BUNDLE_ISSUE of a spindle that works (R48), one ACLK cycle: in a throttled cycle nothing issues and SPN_THROTTLE_CNT counts (R71); in RUN a bundle
whose line is not cached starts a line fill (R70); a cached bundle without WAIT or TAKE issues every slot it holds (R51); in WAIT the held command is
tested again, and the cycle counts in SPN_WAIT_CNT; one that finds it met returns the spindle to RUN.

CACHE_FILL_DONE (R70, R71): the 4 KiB of the line are read from the tile store, the line of the bundle at the PC is in the cache under its bundle
index bits [11:6], the spindle is in RUN, and the missed bundle issues, unless the cycle is throttled; a word found uncorrectable causes one refill,
and a second one PROG_UE with cause 5 in state ERROR. -/
def Obligations.BundlesIssueOrWait : Prop :=
  (∀ (s : State) (t : Fin 8) (j : Fin 64) (y0 y1 : Ecc), s.alive = true → s.ok (spnBlk t) = true → s.uninjected = true →
     let x := s.tile t
     let r := s.aclk t 1
     let late := throttled (s.dutyAt (3 * s.cclk + x.ac)) j
     ((x.spn = 1 ∨ x.spn = 2) → late = true →
       Answers (.bundleIssue t j .clean y0 y1) s (r.wrap (blkR (spnBlk t) 0x070) 48 1)) ∧
     (x.spn = 1 → x.hold = none → late = false → x.cached = false →
       Answers (.bundleIssue t j .clean y0 y1) s ((r.wrap (blkR (spnBlk t) 0x078) 32 1).modTile t fun x => { x with spn := 3, refill := false })) ∧
     (∀ p, x.spn = 1 → x.hold = none → late = false → x.cached = true → s.prog t = some p →
       fld (bunSync (progBundle p x.pc)) 34 6 ≠ 1 → fld (bunSync (progBundle p x.pc)) 34 6 ≠ 2 →
       Answers (.bundleIssue t j .clean y0 y1) s (r.issueSlots t (progBundle p x.pc) y0 y1)) ∧
     (∀ h, x.spn = 2 → late = false → x.hold = some h → (s.tally t h.tally).err = false → (s.tally t h.tally).count < h.n →
       Answers (.bundleIssue t j .clean y0 y1) s (r.wrap (blkR (spnBlk t) 0x068) 48 1)) ∧
     (∀ h, x.spn = 2 → late = false → x.hold = some h → (s.tally t h.tally).err = false → h.n ≤ (s.tally t h.tally).count →
       Answers (.bundleIssue t j .clean y0 y1) s ((r.wrap (blkR (spnBlk t) 0x068) 48 1).modTile t fun x =>
         { x with spn := 1, hold := if h.prog then none else some h }))) ∧
  (∀ (s w : State) (t : Fin 8) (j : Fin 64) (y0 y1 : Ecc) (bad : Bool), s.alive = true → s.ok (spnBlk t) = true → (s.tile t).spn = 3 →
     s.fillLine t = (bad, w) → w.uninjected = true → (w.tile t).hold = none →
     let v := w.modTile t fun x => { x with spn := 1, cache := x.cache.set (x.pc / 64 % 64) (x.pc / 64 * 64) }
     let r := v.aclk t 1
     let late := throttled (w.dutyAt (3 * w.cclk + (w.tile t).ac)) j
     (v.tile t).cached = true ∧
     (late = true → ∀ ue, Answers (.cacheFillDone t j ue y0 y1) s (r.wrap (blkR (spnBlk t) 0x070) 48 1)) ∧
     (late = false → bad = false → Answers (.cacheFillDone t j false y0 y1) s (r.tryIssue t y0 y1)) ∧
     (late = false → (w.tile t).refill = false → Answers (.cacheFillDone t j true y0 y1) s
       ((r.wrap (blkR (spnBlk t) 0x078) 32 1).modTile t fun x => { x with spn := 3, refill := true })) ∧
     (late = false → (w.tile t).refill = true → Answers (.cacheFillDone t j true y0 y1) s
       (((r.spnReport t 1 5 255).modTile t fun x => { x with spn := 6 }).msix (259 + ((r.spnReport t 1 5 255).tile t).ctx))))

/-- WLOAD, STREAM, STREAM_CLR and DRAIN (R52, R85): in a bundle that issues, an operation of a half that the shape has enters its half's queue behind
those that wait there, up to four, and is not reported empty until the next harvest; a half that the shape does not have issues nothing; in a
stopped half the operation fails at once (R94). -/
def Obligations.ArraySlotsQueue : Prop :=
  ∀ (s : State) (t : Fin 8) (a : Fin 4) (half : Fin 3) (desc : Fin 65536) (tally : Fin 256), s.alive = true → s.spnRuns t = true →
    s.uninjected = true →
    let i := 4 * t.val + a.val
    let x := s.arr i
    ∀ kc ∈ [(1, Instr.wload t a half desc tally), (2, .stream t a half desc tally), (3, .streamClr t a half desc tally), (4, .drain t a half desc tally)],
      let op : ArrOp := { kind := kc.1, desc := desc, tally := tally, bytes := (match s.prog t with | some p => progArr p desc | none => []),
                          seq := x.seq, epoch := x.epoch + x.next.length }
      (half.val ∉ shapeHalves x.newest → Answers kc.2 s s) ∧
      (half.val ∈ shapeHalves x.newest → s.ok (arrBlk i) = true → (x.half half).stopped = false → (x.half half).q.length < 4 →
        Answers kc.2 s (s.modArr i fun x =>
          { x with seq := x.seq + 1, empty := false, halves := x.halves.set half { x.half half with q := (x.half half).q ++ [op] } })) ∧
      (half.val ∈ shapeHalves x.newest → s.ok (arrBlk i) = true → (x.half half).stopped = true →
        Answers kc.2 s ((s.modArr i fun x => { x with seq := x.seq + 1, empty := false }).arrFail i op))

/-- WLOAD_START, STREAM_START and DRAIN_START (R85 to R89): the operation at the head of its half's queue leaves the queue and runs. A WLOAD puts the
weights it reads into the next weight set of its half, and the sets alternate (R86); a STREAM opens its engine's gate nine cycles ahead of its row
window, which lasts as its formats say (R83), takes the class of its weight set and holds what its rows add (R88); a DRAIN runs once no DRAIN runs in
the array and no STREAM into its bank in the half. `ups` are the words of memory that changed before the reads (R135).

WLOAD_DONE, STREAM_DONE and DRAIN_DONE (R87 to R89): the operation leaves its half, ARR_OP_CNT and the array's progress count it, and its tally
takes its increment; a STREAM, whose row window is over, has first left its sums in the accumulator entries (R78, R112), a DRAIN has written the granules
of its rows that were still to be written (R89, R118). -/
def Obligations.ArrayOperationsRun : Prop :=
  (∀ (s : State) (t : Fin 8) (a : Fin 4) (half : Fin 3) (op : ArrOp) (ups : Upsets), s.alive = true → (s.upset ups).uninjected = true →
     let i := 4 * t.val + a.val
     let x := s.arr i
     let y := x.half half
     let go := fun r : State => r.modHalf i half fun y => { y with q := y.q.drop 1, run := y.run ++ [op] }
     s.arrHead i half = some op →
     (op.kind = 1 → x.engineTurn op = true → ∀ w ovf r, readW op.bytes (shapeKs x.shape) (shapeNs x.shape) (go (s.upset ups)) = (some (w, ovf), r) →
       Answers (.wloadStart t a half ups) s
         (((r.sat (blkR (encBlk t) 0x060) 0 32 ovf).modArr i fun x => { x with sets := x.sets.set (setKey half y.nextSet) w }).modHalf i half
           fun z => { z with nextSet := 1 - y.nextSet, lastSet := y.nextSet })) ∧
     (op.isStream = true → (y.run.any fun o => o.kind == 4 && descBank o.bytes == descBank op.bytes) = false →
       let w := x.sets.get {} (setKey half y.lastSet)
       let cls := fmtClass (u op.bytes 0x40 1)
       (w.cls = none ∨ w.cls = some cls) → ∀ rows r, readX op.bytes (shapeKs x.shape) (go (s.upset ups)) = (some rows, r) →
       Answers (.streamStart t a half ups) s
         (((r.modArr i fun x => { x with sets := x.sets.set (setKey half y.lastSet) { w with cls := some cls } }).windowOver i half).modHalf i half fun z =>
           { z with gate := 1, lead := 9, left := streamCycles (u op.bytes 0x3C 2) (u op.bytes 0x40 1) w.fmt,
                    run := z.run.map fun o => if o.seq = op.seq then
                      { o with sums := rows.flatMap fun q => (w.columns (shapeKs x.shape) (shapeNs x.shape)).map (entrySum cls q) } else o })) ∧
     (op.kind = 4 → x.engineTurn op = true →
       (x.halves.all fun p => p.2.run.all fun o => !(o.kind == 4 || (p.1 == half.val && o.isStream && descBank o.bytes == descBank op.bytes))) = true →
       Answers (.drainStart t a half) s (go s))) ∧
  (∀ (s : State) (t : Fin 8) (a : Fin 4) (half : Fin 3) (op : ArrOp), s.alive = true → s.uninjected = true →
     let i := 4 * t.val + a.val
     let x := s.arr i
     let ends := fun r : State => ((r.modHalf i half fun y => { y with run := y.run.filter fun o => o.seq != op.seq }).arrCount i).opDone (i / 4) op.tally
     (s.arrRunning i half (·.kind == 1) = some op → Answers (.wloadDone t a half) s (ends s)) ∧
     (s.arrRunning i half ArrOp.isStream = some op → op.sums.all (fun z => !z.isSat && !z.isFlush) = true →
       let v := s.windowOver i half
       let acc := accStream (op.kind == 3) half (descBank op.bytes) (shapeNs (v.arr i).shape) (u op.bytes 0x3E 2) (v.arr i).acc op.sums
       Answers (.streamDone t a half 0 false) s
         (ends (((v.modArr i fun x => { x with acc := acc }).sat (blkR (arrBlk i) 0x0A8) 0 32 0).sat (blkR (arrBlk i) 0x0B0) 0 32 0))) ∧
     (s.arrRunning i half (·.kind == 4) = some op →
       Answers (.drainDone t a half 0 false) s (ends (s.drainPut ((drainGrains x half op.bytes).drop op.wrote)))))

/-- SHAPE_CHANGE, SHAPE_RECONFIG_DONE, ARRAY_CLOCK_GATE, ARRAY_HARVEST_CLEAR, ARRAY_EMPTY and ARRAY_TEARDOWN_DONE (R81, R92, R96, R97): what each
leaves of the array; a reconfiguration, a harvest clear and a teardown leave every weight set and every accumulator entry at its reset value.

ARRAY_SCOPE_STOP (R94, R96, Table 4-9): a DRAIN that runs in the half has written its first 64 B granules, as many as the stop let it; the detector
reports on the running operation of its engine that the command names, the oldest first; the half stops with its gate closed, and every operation it
ran or queued fails, oldest first. While the array is torn down the report is all.

The stores of a running DRAIN (R89, R94): up to `upTo` granules, those not yet written, each 64 B at the offset its row and column give. -/
def Obligations.ArrayStateEvents : Prop :=
  (∀ (s : State) (t : Fin 8) (a : Fin 4) (half : Fin 3), s.alive = true →
     let i := 4 * t.val + a.val
     let x := s.arr i
     (x.next ≠ [] → x.reconf = false → x.tearing = false → x.ops.any (fun o => o.epoch == x.epoch) = false → s.up (arrBlk i) = true →
       Answers (.shapeChange t a) s (s.modArr i fun x => { x with reconf := true, halves := x.halves.map fun h => (h.1, { h.2 with gate := 0 }) })) ∧
     (∀ c rest, x.reconf = true → x.next = c :: rest → x.halves.any (fun h => h.2.stopped) = false →
       ∃ r, Answers (.shapeReconfigDone t a) s r ∧ (r.arr i).shape = c ∧ (r.arr i).next = rest ∧ (r.arr i).reconf = false ∧
         (r.arr i).epoch = x.epoch + 1 ∧ (r.arr i).sets = [] ∧ (r.arr i).acc = [] ∧
         (∀ h ∈ shapeHalves c, ((r.arr i).half h).q = (x.half h).q ∧ ((r.arr i).half h).stopped = false) ∧ (∀ k, k ≠ i → r.arr k = s.arr k)) ∧
     (let v := s.windowOver i half
      ((v.arr i).half half).gate = 2 →
       Answers (.arrayClockGate t a half) s (v.modArr i fun x => { x with halves := x.halves.set half { x.half half with gate := 0 } })) ∧
     ((s.tile t).spn = 4 → x.ops = [] → x.tearing = false → x.clearing = false → x.empty = false → x.next = [] →
       Answers (.arrayHarvestClear t a) s (s.modArr i fun x =>
         { x with sets := [], acc := [], clearing := true,
                  halves := x.halves.map fun h => (h.1, { h.2 with nextSet := 0, lastSet := 0, gate := 0 }) })) ∧
     (x.clearing = true → Answers (.arrayEmpty t a) s (s.modArr i fun x => { x with clearing := false, empty := true })) ∧
     (x.tearing = true → s.ok (arrBlk i) = true →
       Answers (.arrayTeardownDone t a) s
         ((s.modArr i fun x => { shape := x.shape, epoch := x.epoch, seq := x.seq }).setRg (blkR (arrBlk i) 0x0B8) 0))) ∧
  (∀ (s : State) (t : Fin 8) (a : Fin 4) (half : Fin 3) (eng : Fin 3) (det : Fin 5) (k upTo : Nat) (op : ArrOp), s.alive = true →
     let i := 4 * t.val + a.val
     (((s.arr i).half half).run.filter (ofEngine eng))[k]? = some op → canStop eng det = true →
     let r := (s.drainTo i half upTo).arrReport i det half op
     ((r.arr i).tearing = true → Answers (.arrayScopeStop t a half eng det k upTo) s r) ∧
     ((r.arr i).tearing = false →
       Answers (.arrayScopeStop t a half eng det k upTo) s
         ((((r.arr i).half half).run ++ ((r.arr i).half half).q).foldl (fun s op => s.arrFail i op)
           (r.modHalf i half fun y => { y with q := [], run := [], stopped := true, gate := 0, lead := 0, left := 0 })))) ∧
  (∀ (s : State) (i half upTo : Nat) (op : ArrOp), s.arrRunning i half (·.kind == 4) = some op →
     let gs := ((drainGrains (s.arr i) half op.bytes).take upTo).drop op.wrote
     let r := s.drainTo i half upTo
     r.mem = (s.drainPut gs).mem ∧ (r.arr i).acc = (s.arr i).acc ∧ (∀ k, k ≠ i → r.arr k = s.arr k) ∧ r.ctxs = s.ctxs ∧ r.ports = s.ports)

/-! ## The vector unit and the encoder (R54 to R58, R66, R120 to R122) -/

/-- Every vector opcode (Table 3-4): in a bundle that issues, the operation takes the values of its source registers as they stand, and its result
is in flight; an uncorrectable source word fails it (R58, R66); a vector unit, or for ENCODE an encoder, that does not work fails it (R336). A failed
ENCODE counts in the encoder's progress (R123). No register is written yet.

VU_RESULT_WRITE and ENCODE_DONE (R55, R121): the result leaves the pipe and is written to vd and TOPK's indices to vc, where one of the arithmetic pipe
yields to one of the function pipe written to the same register in the same cycle; the operation counts, its flushed lanes count, and its tally takes
its increment; an ENCODE adds to the encoder's four counters. -/
def Obligations.VectorOperationsIssueAndWrite : Prop :=
  (∀ (s : State) (t : Fin 8) (o : VOp) (e : Ecc), s.alive = true → s.spnRuns t = true → s.uninjected = true →
     ∀ ci ∈ [(VCode.mov, Instr.vuMov t o e), (.cvt, .vuCvt t o e), (.add, .vuAdd t o e), (.sub, .vuSub t o e), (.mul, .vuMul t o e),
         (.fma, .vuFma t o e), (.max, .vuMax t o e), (.min, .vuMin t o e), (.abs, .vuAbs t o e), (.neg, .vuNeg t o e), (.sel, .vuSel t o e),
         (.cmpgt, .vuCmpgt t o e), (.exp, .vuExp t o e), (.log, .vuLog t o e), (.rsqrt, .vuRsqrt t o e), (.recip, .vuRecip t o e),
         (.rowsum, .vuRowsum t o e), (.rowmax, .vuRowmax t o e), (.rowmin, .vuRowmin t o e), (.smaxExp, .vuSmaxExp t o e),
         (.lnStats, .vuLnStats t o e), (.lnApply, .vuLnApply t o e), (.topk, .vuTopk t o e), (.encode, .vuEncode t o e)],
       (s.ok (vuBlk t) = true → (ci.1 = .encode → s.ok (encBlk t) = true) → e = .clean → Answers ci.2 s (s.modTile t fun x => { x with vu := x.vu ++ [s.vecResult t ci.1 o] })) ∧
       (s.ok (vuBlk t) = true → (ci.1 = .encode → s.ok (encBlk t) = true) → e = .uncorrectable →
         let r := (s.flag (vuBlk t) 1 { ctx := some (s.tile t).ctx }).sat (blkR (vuBlk t) 0x058) 0 32 1
         Answers ci.2 s ((if ci.1 = .encode then r.progress (encBlk t) else r).opFail t o.tally)) ∧
       ((s.ok (vuBlk t) = false ∨ ci.1 = .encode ∧ s.ok (encBlk t) = false) →
         Answers ci.2 s ((if ci.1 = .encode then s.progress (encBlk t) else s).opFail t o.tally))) ∧
  (∀ (s : State) (t : Fin 8), s.alive = true → s.uninjected = true →
     (∀ (k : Nat) (r : VRes), (s.tile t).vu[k]? = some r → r.enc = none →
       Answers (.vuResultWrite t k) s (((((((s.modTile t fun x => { x with vu := x.vu.eraseIdx k }).vecPut t r).wrap
         (blkR (vuBlk t) 0x040) 48 1).sat (blkR (vuBlk t) 0x048) 0 32 r.flushed).progress (vuBlk t))).opDone t r.tally)) ∧
     (∀ (r : VRes) (w : State), r.arith = true → r.vd ∈ (w.tile t).vs1 → w.vecPut t r = w) ∧
     (∀ (r : VRes) (w : State), (r.arith = false ∨ r.vd ∉ (w.tile t).vs1) → ((w.vecPut t r).tile t).y =
       match r.second with
       | some (v, l) => ((w.tile t).y.set r.vd r.val).set v l
       | none => (w.tile t).y.set r.vd r.val) ∧
     (∀ (k : Nat) (r : VRes) (fl ov z n : Nat), findIdxOpt (fun (r : VRes) => r.enc.isSome) (s.tile t).vu 0 = some k → (s.tile t).vu[k]? = some r →
       r.enc = some (fl, ov, z, n) → s.ok (encBlk t) = true →
       let b := encBlk t
       Answers (.encodeDone t false false) s ((((((((((((s.modTile t fun x => { x with vu := x.vu.eraseIdx k }).progress b).vecPut t r).sat
         (blkR b 0x040) 0 32 fl).sat (blkR b 0x048) 0 32 ov).sat (blkR b 0x050) 0 32 z).sat (blkR b 0x058) 0 32 n).wrap (blkR b 0x068) 48 1).wrap
         (blkR (vuBlk t) 0x040) 48 1).progress (vuBlk t))).opDone t r.tally)))

/-- The lanes of a lane-wise operation (R56, Table 3-4): lane i of the result is the operation on lane i of the sources, rounded once to FP32 and then to the
format; MOV copies its source.

ROWSUM, ROWMAX, ROWMIN and LN_STATS (R57): for s from 1 to 11, the first lane of row r holds the row's result, for LN_STATS the second lane the
variance too, and every other lane of the row is zero.

MAX and MIN (R56): exactly one NaN gives the other operand, and −0 stands below +0. -/
def Obligations.VectorResultsByLane : Prop :=
  (∀ (s : State) (t : Nat) (o : VOp) (i : Nat), i < 2048 →
     let a := elem o.fmt (lane (s.y t o.va) i)
     let b := elem o.fmt (lane (s.y t o.vb) i)
     let d := elem o.fmt (lane (s.y t o.vc) i)
     (∀ cv ∈ [(VCode.add, a.add b), (.sub, a.add b.neg), (.mul, a.mul b), (.fma, (a.mul b).add d), (.max, vMax a b), (.min, vMin a b),
         (.abs, a.abs), (.neg, a.neg), (.sel, if d.isZero then b else a),
         (.cmpgt, if !a.isNan && !b.isNan && Fp.lt false b a then Fp.one else .zero), (.exp, vExp a), (.log, vLog a), (.rsqrt, vRsqrt a),
         (.recip, vRecip a)],
       lane (s.vecResult t cv.1 o).val i = (laneOut o.fmt cv.2).1) ∧
     lane (s.vecResult t .cvt o).val i = (laneOut o.fmt (elem (o.imm.val % 4) (lane (s.y t o.va) i))).1 ∧
     (s.vecResult t .mov o).val = s.y t o.va) ∧
  (∀ (s : State) (t : Nat) (o : VOp) (r i : Nat), let n := o.imm.val % 16
     1 ≤ n → n ≤ 11 → r < 2048 / 2 ^ n → i < 2 ^ n →
     let xs := (List.range (2 ^ n)).map fun j => elem o.fmt (lane (s.y t o.va) (r * 2 ^ n + j))
     let at_ := fun c => lane (s.vecResult t c o).val (r * 2 ^ n + i)
     let put := fun x : Fp => (laneOut o.fmt (if i = 0 then x else .zero)).1
     at_ .rowsum = put (treeSum n xs) ∧ at_ .rowmax = put (rowFold vMax xs) ∧ at_ .rowmin = put (rowFold vMin xs) ∧
     at_ .lnStats = (laneOut o.fmt ((lnStats n xs).getD i .zero)).1) ∧
  ((∀ b : Fp, vMax .nan b = b ∧ vMin .nan b = b) ∧ (∀ a : Fp, vMax a .nan = a ∧ vMin a .nan = a) ∧
   (∀ e f : Int, vMax (.fin true 0 e) (.fin false 0 f) = .fin false 0 f ∧ vMax (.fin false 0 f) (.fin true 0 e) = .fin false 0 f ∧
     vMin (.fin true 0 e) (.fin false 0 f) = .fin true 0 e ∧ vMin (.fin false 0 f) (.fin true 0 e) = .fin true 0 e))

/-! ## Operations and their tallies (R64 to R66) -/

/-- The end of an operation at its tally (R65, R66): one that completes adds 1 to its tally; at the largest count the count stays, the error flag is set
and the spindle reports TALLY_SATURATED without leaving its state; one that fails sets the flag and still adds 1, and without a tally it sends a spindle
in RUN, WAIT, MISS or HARVEST to ERROR. -/
def Obligations.TalliesCountOperations : Prop :=
  ∀ (s : State) (t k : Nat), s.uninjected = true → (s.tile t).spn ≠ 7 →
    let x := s.tally t k
    (k ≠ 255 → x.count < 2 ^ 32 - 1 → s.opDone t k = s.setTally t k { x with count := x.count + 1 }) ∧
    (k ≠ 255 → x.count = 2 ^ 32 - 1 → s.opDone t k = (s.setTally t k { count := 2 ^ 32 - 1, err := true }).spnReport t 4 3 k ∧
      ((s.opDone t k).tile t).spn = (s.tile t).spn) ∧
    (k ≠ 255 → x.count < 2 ^ 32 - 1 → ((s.opFail t k).tally t k) = { count := x.count + 1, err := true }) ∧
    ((s.tile t).canFail = true → ((s.opFail t 255).tile t).spn = 6) ∧ s.opDone t 255 = s

/-! ## Movers and the fabric slot (R59 to R63, R66, R140) -/

/-- RUN (R59): the descriptor enters the named mover's queue behind those queued or running there; at a mover that holds 8 it is not performed, and the
spindle reports MOV_OVERRUN (cause 1) and enters ERROR.

SEND, EXPECT and JOIN (R62, R63): in a bundle that issues, each hands the collective engine a start with its descriptor and its tally; an EXPECT that
finds 64 entries outstanding is not performed, and the spindle reports EXPECT_OVERRUN (cause 2) and enters ERROR. -/
def Obligations.RunAndFabricSlotsQueue : Prop :=
  (∀ (s : State) (t m : Fin 8) (desc : Fin 32768) (tally : Fin 256), s.alive = true → s.spnRuns t = true → s.uninjected = true →
     s.ok (movBlk t) = true →
     let x := s.mover t m
     ∀ bytes, ((∃ p, s.prog t = some p ∧ bytes = progMov p desc) ∨ (s.prog t = none ∧ bytes = [])) →
     (x.q.length < 8 → Answers (.run t m desc tally) s
       (s.setMover t m { x with serial := x.serial + 1, q := x.q ++ [{ desc := desc, tally := tally, bytes := bytes, ser := x.serial }] })) ∧
     (8 ≤ x.q.length →
       let r := s.spnReport t 2 1 tally
       Answers (.run t m desc tally) s ((r.modTile t fun x => { x with spn := 6 }).msix (259 + (r.tile t).ctx)))) ∧
  (∀ (s : State) (t : Fin 8) (desc : Fin 65536) (tally : Fin 256), s.alive = true → s.spnRuns t = true → s.uninjected = true →
     ∀ bytes, ((∃ p, s.prog t = some p ∧ bytes = progFab p desc) ∨ (s.prog t = none ∧ bytes = [])) →
     let st : Nat → Start := fun k => { tile := t, kind := k, bytes := bytes, tally := tally }
     Answers (.send t desc tally) s (s.startColl (st 1)) ∧ Answers (.join t desc tally) s (s.startColl (st 3)) ∧
     ((s.tile t).expects.length < 64 → Answers (.expect t desc tally) s (s.startColl (st 2))) ∧
     (64 ≤ (s.tile t).expects.length →
       let r := s.spnReport t 3 2 tally
       Answers (.expect t desc tally) s ((r.modTile t fun x => { x with spn := 6 }).msix (259 + (r.tile t).ctx))))

/-- MOVER_ROW_WRITTEN and MOVER_DESC_DONE (R60, R61, R140): the next row in order, when it moves without failure, is read where its descriptor says
(memory, or a Y register) and written where it says; its bytes count, and with per_row_tally the tally takes the rows written in order. The last row's end
frees the entry, and without per_row_tally the tally takes one increment. Row data of a row that is commanded ahead of its turn waits for the rows before
it (log entry 46, the model's choice of when a row is commanded).

A row between two places of this chip's memory (R60, R61): the row's bytes are read at the source row's address and leave what memory reads as it was, and
exactly those bytes are stored at the destination row's address; every other byte reads as before.

A row that is not on this chip (R60, R61, R126): the mover asks the other chip for it with loose requests and waits; a row that goes there is sent with
loose requests once its data are read, and counts when every completion has returned. The size of the pieces is the model's choice (log entry 46).

MOVER_OP_FAIL and MOVER_PARITY (R61, R66): the running operation leaves its queue so that the next one runs, MOV_FAIL_CNT and MOV_LAST_ERR record it,
and it fails at its tally; parity fails every operation of the tile's movers and reports detector 2. An operation of a closing context does not fail:
teardown aborts it (R217). -/
def Obligations.MoverOperations : Prop :=
  (∀ (s : State) (t m : Fin 8) (op : MovOp) (q : List MovOp), s.alive = true → s.uninjected = true → s.ok (movBlk t) = true →
     (s.mover t m).q = op :: q →
     let d := op.bytes
     let n := movRowBytes d
     (∀ (row : Nat) (ups : Upsets), row < movRowCount d → op.asked.contains row = false → (s.mover t m).aborting = false → op.issued = row →
       op.got = [] → s.rowBehind op row = false →
       let ws := op.written ++ [row]
       let k := written ws ws.length op.counted
       let from_ := addrOff (movAddr d 0 row)
       let to_ := addrOff (movAddr d 8 row)
       let next := { op with asked := op.asked ++ [row], issued := row + 1 }
       let issued := fun (r : State) => r.setMover t m { s.mover t m with q := next :: q }
       let begun := (s.upset ups).setMover t m { s.mover t m with q := { op with asked := op.asked ++ [row] } :: q }
       let done := fun (r : State) =>
         let r := (r.setMover t m { s.mover t m with q := { next with written := ws, counted := k } :: q }).wrap (blkR (movBlk t) 0x080) 64 n
         if movPerRow d && op.tally != 255 && op.counted < k then r.tallyAdd t op.tally (k - op.counted) else r
       (∀ bs r, movKind d ≠ 2 → s.isLocal (movAddr d 0 row) = true → begun.fetch (some t) (s.tileWho t) from_ n = ((0, bs), r) →
         (movKind d = 1 → ∀ y, Answers (.moverRowWritten t m row ups y) s (done ((issued r).setY t (u d 0x29 1 + row) (rowLanes (movLanes16 d) bs)))) ∧
         (movKind d ≠ 1 → s.isLocal (movAddr d 8 row) = true → ∀ r' y, (issued r).put_ (some t) (s.tileWho t) to_ bs = (0, r') →
           Answers (.moverRowWritten t m row ups y) s (done r'))) ∧
       (∀ r', movKind d = 2 → s.isLocal (movAddr d 8 row) = true →
         (issued (s.upset ups)).put_ (some t) (s.tileWho t) to_ (laneRow (movLanes16 d) (s.y t (u d 0x29 1 + row))) = (0, r') →
         Answers (.moverRowWritten t m row ups .clean) s (done r'))) ∧
     (movRowCount op.bytes ≤ op.written.length →
       let r := (s.setMover t m { s.mover t m with q := q }).progress (movBlk t)
       Answers (.moverDescDone t m) s (if movPerRow op.bytes then r else r.opDone t op.tally))) ∧
  (∀ (s r : State) (t : Nat) (w : Who) (o n : Nat) (bs : List Byte), (∀ x, s.upsets.find x ≠ some .late) →
     s.fetch (some t) w o n = ((0, bs), r) →
     bs = (s.rd o n).getD [] ∧ (∀ a, r.byteAt a = s.byteAt a) ∧
     ∀ (r' : State) (w' : Who) (o' : Nat), r.put_ (some t) w' o' bs = (0, r') →
       (∀ a, (a < o' ∨ o' + bs.length ≤ a) → r'.byteAt a = s.byteAt a) ∧
       ((∀ x ∈ partWords o' bs, s.wordOk x = true) → ∀ i (h : i < bs.length), r'.byteAt (o' + i) = some bs[i])) ∧
  (∀ (s : State) (t m : Fin 8) (op : MovOp) (q : List MovOp) (row : Nat) (ups : Upsets), s.alive = true → s.uninjected = true →
     s.ok (movBlk t) = true → (s.mover t m).q = op :: q → row < movRowCount op.bytes → op.asked.contains row = false →
     (s.mover t m).aborting = false → op.issued = row → op.got = [] →
     let d := op.bytes
     let n := movRowBytes d
     let next := { op with asked := op.asked ++ [row], issued := row + 1 }
     let asks := fun w a bs =>
       (((s.upset ups).setMover t m { s.mover t m with q := { next with need := op.need.set (2 * row + w) (movPieces n) } :: q }).askRow t m op.ser row w a n bs)
     (movKind d ≠ 2 → s.isLocal (movAddr d 0 row) = false → ∀ y,
       Answers (.moverRowWritten t m row ups y) s ((asks 0 (movAddr d 0 row) []).rowsFlush t m op.ser)) ∧
     (movKind d = 2 → s.isLocal (movAddr d 8 row) = false → s.rowBehind op row = false →
       Answers (.moverRowWritten t m row ups .clean) s (asks 1 (movAddr d 8 row) (laneRow (movLanes16 d) (s.y t (u d 0x29 1 + row)))))) ∧
  (∀ (s : State) (t m : Fin 8) (op : MovOp) (q : List MovOp), s.alive = true → (s.mover t m).q = op :: q →
     let failed := fun (r : State) (st : Nat) => if (s.tile t).spn = 7 then r else
       (((r.setMover t m { r.mover t m with q := q }).sat (blkR (movBlk t) 0x088) 0 32 1).setRg
         (blkR (movBlk t) 0x098) (put 16 m ||| put 8 st ||| put 0 op.tally)).opFail t op.tally
     let told := fun det st => s.flag (movBlk t) det { ctx := some (s.tile t).ctx, detail := put 16 m ||| put 8 st ||| put 0 op.tally }
     Answers (.moverOpFail t m 0) s (failed (told 0 1) 1) ∧
     (movKind op.bytes = 2 → Answers (.moverOpFail t m 1) s (failed (s.yRead t .uncorrectable).2 1)) ∧
     Answers (.moverOpFail t m 2) s (failed s 2) ∧ Answers (.moverOpFail t m 3) s (failed (told 1 3) 3) ∧
     (s.up (movBlk t) = true → Answers (.moverParity t) s ((s.flag (movBlk t) 2 { ctx := some (s.tile t).ctx }).moversFail t)))

/-! ## Memory, the HBM stacks and the CXL ports (R125 to R146, R186, R187) -/

/-- A write (R5, R130, R137): where the memory's controllers work, no access of the CXL tier goes without a completion and no short piece meets an
uncorrectable word, byte i of the data is the byte that a read finds at offset o + i, and every byte outside the o to o + n − 1 written reads as before; where a
controller does not work nothing is stored. -/
def Obligations.WritesStoreTheirBytes : Prop :=
  ∀ (s : State) (o : Nat) (bs : List Byte),
    ((∀ w ∈ wordsOf o bs.length, s.upsets.find w ≠ some .late) → ∀ a, (a < o ∨ o + bs.length ≤ a) → (s.save o bs).2.byteAt a = s.byteAt a) ∧
    ((∀ w ∈ wordsOf o bs.length, s.upsets.find w ≠ some .late) → s.memOk o bs.length = true → (s.save o bs).1 ≠ 2 →
      (∀ w ∈ partWords o bs, s.wordOk w = true) → ∀ i (h : i < bs.length), (s.save o bs).2.byteAt (o + i) = some bs[i]) ∧
    (s.memOk o bs.length = false → s.save o bs = (3, s))

/-- Memory stays in its canonical form under every store, every read (which writes a corrected word back) and every loss of contents, and the memory of reset has
it. -/
def Obligations.MemoryOperationsKeepForm : Prop :=
  Memory.wf State.reset.mem = true ∧
  ∀ (s : State), Memory.wf s.mem = true →
    (∀ o bs, Memory.wf (s.save o bs).2.mem = true) ∧ (∀ o n, Memory.wf (s.load o n).2.mem = true) ∧
    (∀ l, Memory.wf (s.upset l).mem = true) ∧ (∀ p, Memory.wf (s.forget p).mem = true) ∧
    (∀ t, Memory.wf (s.forgetStore t).mem = true) ∧ (∀ n, Memory.wf (s.forgetStack n).mem = true)

/-- REMOTE_REQUEST_ARRIVAL of a request with no sequence number at its target (R127, R180, R186): a bobbin of class TARGET is found, a write is made where its
address says and a read returns what stands there, under the rights of the sender's context; each is answered with its status, a refused or failed one too.

REMOTE_REQUEST_ARRIVAL with a sequence number (R141, R187): the expected one advances the expected number and is performed; a write seen before is answered
again and not performed again; one ahead of its turn is held in a bobbin, and one beyond the window is discarded and counted. -/
def Obligations.RemoteRequestsAreServed : Prop :=
  (∀ (s r : State) (k : Pkt) (ups : Upsets) (b : Nat), s.alive = true → s.coreOk = true → (k.kind = 0 ∨ k.kind = 1) → k.dst = s.chip → pktOk k = true →
     k.seqValid = false → (s.upset ups).fwd.stale k.ctx k.gen = false → (s.upset ups).fwd.bobTake 4 = (0, b, r) →
     let o := addrOff k.address
     (∀ i l, (r.place_ o = .store i l ∨ r.place_ o = .hbm i l) →
       (k.kind = 1 → ∀ st q, r.put_ none (.ctx k.ctx k.priv) o k.data = (st, q) → Answers (.remoteRequestArrival k ups) s (q.respond k st [])) ∧
       (k.kind = 0 → ∀ st bs q, r.fetch none (.ctx k.ctx k.priv) o k.length = ((st, bs), q) →
         Answers (.remoteRequestArrival k ups) s (q.respond k st bs)))) ∧
  (∀ (s : State) (k : Pkt) (ups : Upsets), s.alive = true → s.coreOk = true → (k.kind = 0 ∨ k.kind = 1) → k.dst = s.chip → pktOk k = true →
     k.seqValid = true → k.unit < 8 → (s.upset ups).fwd.stale k.ctx k.gen = false →
     let f := (s.upset ups).fwd
     let d := (k.seq + 65536 - f.swc.exps.get 0 (expKey k)) % 65536
     let there := f.swc.early.any fun e => expKey e.pkt == expKey k && e.pkt.seq == k.seq
     (d = 0 → Answers (.remoteRequestArrival k ups) s
       (((f.modSwc fun x => { x with exps := x.exps.set (expKey k) ((k.seq + 1) % 65536) }).perform k).performHeld (expKey k) 32)) ∧
     (1 ≤ d → d ≤ 32 → there = true → Answers (.remoteRequestArrival k ups) s (f.sat (blkR 3 0x0D8) 0 32 1)) ∧
     (1 ≤ d → d ≤ 32 → there = false → ∀ b r, f.bobTake 7 = (0, b, r) →
       Answers (.remoteRequestArrival k ups) s (r.modSwc fun x => { x with early := x.early ++ [⟨k, b⟩] })) ∧
     (33 ≤ d → d ≤ 32767 → Answers (.remoteRequestArrival k ups) s (f.sat (blkR 6 0x1F8) 0 32 1)) ∧
     (32768 ≤ d → k.kind = 1 → Answers (.remoteRequestArrival k ups) s ((f.sat (blkR 3 0x0D8) 0 32 1).respond k stOk [])))

/-- SCRUB_READ (R138) of a memory whose scrub is enabled: the position moves on by 64 B and wraps at the end of the memory with the pass count; the words of the
granule at the old position that were corrected are reported and written back, and those that are uncorrectable are reported as detector 2.

CA_PARITY, TEMP_HIGH, HBM_TEMP_NORMAL and HBM_TRAINING_DONE (R146, Table 6-11): a stack that needs retraining is untrained and reports detector 3; a stack that
passes 95 °C reports detector 4 once, until it has cooled; a trained stack is trained. -/
def Obligations.ScrubAndStackEvents : Prop :=
  (∀ (s : State) (b : Fin 16) (ups : Upsets), s.alive = true → s.uninjected = true →
     let tile := decide (b.val < 8)
     let blk := if tile then tileBlk b else 16 + (b.val - 8)
     let posR := blkR blk (if tile then 0x098 else 0x068)
     let size := if tile then 0x80000000 else stackSize
     let pos := (s.rg posR).fld 0 (if tile then 31 else 36)
     let passes := (s.rg posR).fld 40 8
     let o := if tile then storeBase b + pos else stackOffset s.striped (b.val - 8) pos
     let r := (s.upset ups).setRg posR (if pos + 64 < size then put 40 passes ||| put 0 (pos + 64) else put 40 ((passes + 1) % 256))
     s.ok blk = true → (s.rg (blkR blk (if tile then 0x090 else 0x060))).bit 0 = true →
     let bad := (wordsOf o 64).filter fun w => !r.wordOk w
     let mended := (wordsOf o 64).filter fun w => r.wordOk w && (r.upsets.find w).isSome
     (bad = [] → Answers (.scrubRead b ups) s (r.memCe mended)) ∧ (bad ≠ [] → Answers (.scrubRead b ups) s ((r.memCe mended).memUe bad 2))) ∧
  (∀ (s : State) (n : Fin 8) (temp : Byte), s.alive = true → s.uninjected = true →
     let h := s.hbms.get {} n
     (s.up (16 + n) = true → Answers (.caParity n) s ((s.modHbm n fun x => { x with trained := false }).flag (16 + n) 3)) ∧
     (s.domOn (44 + n) = true → Answers (.hbmTrainingDone n) s (s.modHbm n fun x => { x with trained := true })) ∧
     (s.up (16 + n) = true → temp.toNat ≤ 95 →
       Answers (.hbmTempNormal n temp) s (s.modHbm n fun x => { x with temp := temp.toNat, hot := false })) ∧
     (s.up (16 + n) = true → 95 < temp.toNat → h.hot = true →
       Answers (.tempHigh n temp) s (s.modHbm n fun x => { x with temp := temp.toNat, hot := true })) ∧
     (s.up (16 + n) = true → 95 < temp.toNat → h.hot = false →
       Answers (.tempHigh n temp) s ((s.flag (16 + n) 4).modHbm n fun x => { x with temp := temp.toNat, hot := true })))

/-- CXL_HDM_WRITE, CXL_LINK_UP and CXL_ENUMERATE (R142, R143): a decoder write is refused with CFG_REFUSED of the port unless the device is quiescent and the
decoder lies in the half apart from the others; a link that comes up is not used until Osaux has enumerated it.

CXL_COMPLETION, CPL_TIMEOUT, CXL_LINK_DOWN and VIRAL (R144): an access that ends leaves the port's list and is answered; a poisoned read fails with READ_UE and a
late one with REMOTE_FAIL, each recorded in CXL_ERR_ADDR; a link that goes down fails every access outstanding. -/
def Obligations.CxlPorts : Prop :=
  (∀ (s : State) (c : Fin 2) (h : Fin 8) (v : W64), s.alive = true →
     let lo := v.fld 0 16
     let hi := lo + v.fld 32 16
     let clash := (List.range 8).any fun j => let w := s.hdm c j
       j != h.val && w.bit 63 && decide (lo < w.fld 0 16 + w.fld 32 16) && decide (w.fld 0 16 < hi)
     (s.domOn (18 + c) = true → s.quiescent = true → (v.bit 63 = false ∨ v.fld 32 16 ≠ 0 ∧ hi ≤ 32768 ∧ clash = false) →
       Answers (.cxlHdmWrite c h v) s (s.setRg (blkR (14 + c) (0x100 + 8 * h)) (v &&& 0x8007FFFF0000FFFF))) ∧
     (s.domOn (18 + c) = true → (s.quiescent = false ∨ v.bit 63 = true ∧ (v.fld 32 16 = 0 ∨ 32768 < hi ∨ clash = true)) →
       Answers (.cxlHdmWrite c h v) s (s.flag (14 + c) 5)) ∧
     (∀ (width : Fin 64) (rate : Fin 4), s.domOn (18 + c) = true → (s.cxl c).st ≠ 2 → (width.val = 4 ∨ width.val = 8 ∨ width.val = 16) → rate.val ≠ 0 →
       Answers (.cxlLinkUp c width rate) s
         ((s.modCxl c fun x => { x with st := 2, used := false, width := width, rate := rate }).pllLock (14 + c))) ∧
     (∀ sizes : List (Fin 32769), sizes.length ≤ 8 → s.quiescent = true → (s.cxl c).st = 2 → s.domOn (18 + c) = true →
       Answers (.cxlEnumerate c sizes false) s
         (((List.range 8).foldl (fun s h => s.setRg (blkR (14 + c) (0x100 + 8 * h)) ((hdmPlan 0 0 ((sizes.map Fin.val).take 8)).getD h 0)) s).modCxl c
           fun x => { x with used := true }))) ∧
  (∀ (s : State) (c : Fin 2) (i : Nat) (q : CxlReq), s.alive = true → s.uninjected = true → (s.cxl c).reqs[i]? = some q →
     let b := 14 + c.val
     let taken := s.modCxl c fun x => { x with reqs := x.reqs.eraseIdx i }
     let r := { taken with bobUps := s.bobUps.drop fun j => j == q.bob }
     (s.bobUps.get .clean q.bob = .clean →
       (∀ bs st w, q.data = some bs → r.save q.off bs = (st, w) → Answers (.cxlCompletion c i .done false) s (w.cxlEnd q st [])) ∧
       (∀ bs st w, q.data = none → r.load q.off q.len = ((st, bs), w) → Answers (.cxlCompletion c i .done false) s (w.cxlEnd q st bs)) ∧
       (q.data = none → Answers (.cxlCompletion c i .poisoned false) s
         (((((r.volume q.off q.len false).sat (blkR b 0x060) 0 32 1).setRg (blkR b 0x070) (cxlErr false q.off)).flag b 1
           { detail := cxlErr false q.off }).cxlEnd q stReadUe []))) ∧
     Answers (.cplTimeout c i) s
       (((((taken.sat (blkR b 0x068) 0 32 1).setRg (blkR b 0x070) (cxlErr true q.off)).flag b 2 { detail := cxlErr true q.off }).progress b).cxlEnd q stRemote []) ∧
     ((s.cxl c).st = 2 → ∀ di ∈ [(3, Instr.cxlLinkDown c), (4, .viral c)],
       Answers di.2 s (((s.modCxl c fun x => { x with st := 3, used := false, width := 0, rate := 0 }).flag b di.1).cxlFailAll c)))

/-! ## Register accesses and the common block window (R6 to R9, R18 to R28, R329, R334, R344) -/

/-- REG_WRITE of a register without an effect of its own (R7, R8, R21), by a source that reaches the registers: RW takes the written bits that are not reserved,
W1C clears each bit written 1 that hardware has not set in the cycle (R9), RO, WO and RC keep their value, a 32-bit write changes only its half; a page whose domain is not ON ignores it. -/
def Obligations.RegisterWritesFollowTheirCode : Prop :=
  ∀ (s : State) (src : Src) (off r : Nat) (half : Bool) (x : W64) (p : Page) (row : RegRow), s.alive = true → s.uninjected = true →
    s.srcReaches src = true → aligned off half = true → locate (off / 8 * 8) = some (p, r) → rowAt p.kind r = some row → 0x40 ≤ r →
    row.name ≠ "MSIX_TABLE" →
    let s1 := if src = .host then s.progress 8 else s
    let o := off / 8 * 8
    let m := halfMask off half
    let v := placed off half x
    (s.domOn p.dom = false → Answers (.regWrite src off half x) s s1) ∧
    (s.domOn p.dom = true → s1.actWrite src p r v ((s1.readReg o &&& ~~~m) ||| v) = none →
      (row.acc = .rw → Answers (.regWrite src off half x) s (s1.setRg o ((s.rg o &&& ~~~m) ||| (v &&& m &&& BitVec.ofNat 64 row.mask)))) ∧
      (row.acc = .w1c → Answers (.regWrite src off half x) s (s1.setRg o (s.rg o &&& ~~~(v &&& m &&& ~~~(s.newBits.get 0 o))))) ∧
      (row.acc = .ro ∨ row.acc = .wo ∨ row.acc = .rc → Answers (.regWrite src off half x) s s1))

/-- RC_READ and FABRIC_REG_ACCESS (R7, R9, R18, R20, R21): a read answers the value of the bits read; an RC register answers what it held before the cycle counted
in it, and then holds in those bits what the cycle counted, zero otherwise; over the fabric a context that is free or lacks the privileged attribute is answered
ACCESS_DENIED, and PRIV_ACCESS reports.

MISALIGNED_ACCESS (R6, R18): an access of another size, or one that is not naturally aligned, writes nothing and reads zero, and ACCESS_SIZE is recorded for
the block that owns the page, whatever its domain does, and counted in DEV_REG_FAULT_CNT; outside every page it records nothing. -/
def Obligations.RegisterReadsAnswer : Prop :=
  (∀ (s : State) (src : Src) (off r : Nat) (half : Bool) (p : Page) (row : RegRow), s.alive = true → s.uninjected = true → s.srcReaches src = true →
     aligned off half = true → locate (off / 8 * 8) = some (p, r) → rowAt p.kind r = some row → 0x40 ≤ r →
     let s1 := if src = .host then s.progress 8 else s
     let o := off / 8 * 8
     let got := fun v : W64 => if half then put 0 (v.fld (if off % 8 = 4 then 32 else 0) 32) else v
     let m := halfMask off half
     let c0 := s.cyc.get (s.rg o, 0) o
     (row.acc = .rc → s.domOn p.dom = true →
       Answers (.rcRead src off half) s (({ s1.setRg o ((s.rg o &&& ~~~m) ||| (c0.2 &&& m)) with cyc := s.cyc.set o (c0.1 &&& ~~~m, c0.2) } : State).emit
         (.readData src off (got c0.1)))) ∧
     (row.acc ≠ .rc → Answers (.rcRead src off half) s (s1.emit (.readData src off (got (s1.readReg o))))) ∧
     (s.domOn p.dom = false → Answers (.rcRead src off half) s (s1.emit (.readData src off 0))) ∧
     (∀ (c : Fin 64) (w : Option W64), ((s.ctx c).st = 0 ∨ (s.ctx c).priv = false) →
       Answers (.fabricRegAccess c off half w) s ((s.flag 0 0 { ctx := some c }).emit (.regDone c off stDenied 0))) ∧
     (∀ (c : Fin 64), (s.ctx c).st ≠ 0 → (s.ctx c).priv = true → row.acc ≠ .rc →
       Answers (.fabricRegAccess c off half none) s (s.emit (.regDone c off stOk (got (s.readReg o))))) ∧
     (∀ (c : Fin 64) (v : W64), (s.ctx c).st ≠ 0 → (s.ctx c).priv = true →
       Answers (.fabricRegAccess c off half (some v)) s ((s.writeReg .fabric off half v).emit (.regDone c off stOk 0)))) ∧
  (∀ (s : State) (src : Src) (off size : Nat), s.alive = true → s.uninjected = true → s.srcReaches src = true →
     ¬(size = 4 ∧ off % 4 = 0) → ¬(size = 8 ∧ off % 8 = 0) →
     let s1 := if src = .host then s.progress 8 else s
     (locate off = none → Answers (.misalignedAccess src off size) s (s1.emit (.readData src off 0))) ∧
     (∀ p r, locate off = some (p, r) → Answers (.misalignedAccess src off size) s
       (((s1.capture { kind := 2, code := 1, blk := p.blk, inst := 0, sev := 1, detail := putBit 63 (src == .fabric) ||| put 0 off, live := false }).sat
         (devR 0x198) 0 32 1).emit (.readData src off 0))))

/-- BLK_FAULT_W1C (R334): of the bits written 1, exactly those clear whose effective severity is S0 to S2, and those at S3 of which the cause has ended,
unless hardware set them in the same cycle (R9); every other bit of BLK_FAULT keeps its value, and nothing else that software reads changes.

BLK_SEV_ACK_WRITE, BLK_PROGRESS_WIN_WRITE and DEV_MODE_WRITE (R23, R24, R27, R28): an acknowledge bit sets for each detector named; the hang window is written
where the block has an engine and not elsewhere; DEV_MODE takes a write while the device is quiescent, and MODE_BUSY reports a write at any other time.

BLK_INJECT (R26, R344): the count is armed for the detector in place of one still pending; an event reports with the write; a detector at or above
detector_count, a count of zero, and a detector of base severity S4 that DEV_INJECT_ARM does not allow are discarded, and an S4 injection clears that bit. -/
def Obligations.BlockWindowWrites : Prop :=
  (∀ (s : State) (b : Fin 152) (v : W64), s.alive = true → s.domOn (blkDom b) = true →
     ∃ off : W64, Answers (.blkFaultW1c b v) s
         (s.setBlk b { s.blk b with fault := (s.blk b).fault &&& ~~~off, mended := (s.blk b).mended &&& ~~~off }) ∧
       ∀ d, off.bit d = (decide (d < detCount b) && v.bit d && (s.blk b).fault.bit d &&
         !(s.newBits.get 0 (blkR b 0x010)).bit d && (decide ((s.blk b).eff.get 0 d < 3) || decide ((s.blk b).eff.get 0 d = 3) && s.mayClear b d))) ∧
  (∀ (s : State) (b : Fin 152) (v : W64), s.alive = true →
     (s.domOn (blkDom b) = true →
       Answers (.blkSevAckWrite b v) s (s.setBlk b { s.blk b with ack := (s.blk b).ack ||| (v &&& ~~~(s.newBits.get 0 (blkR b 0x010)) &&& maskLow (detCount b)) }) ∧
       (hasEngine b = true → Answers (.blkProgressWinWrite b v) s (s.setRg (blkR b 0x030) (v &&& 0xFFFFFFFF))) ∧
       (hasEngine b = false → Answers (.blkProgressWinWrite b v) s s)) ∧
     (s.domOn (blkDom b) = false → ∀ i ∈ [Instr.blkSevAckWrite b v, .blkProgressWinWrite b v, .blkFaultW1c b v, .blkInject b v], Answers i s s) ∧
     (s.quiescent = true → Answers (.devModeWrite v) s (s.setRg (devR 0x050) (v &&& 1))) ∧
     (s.quiescent = false → Answers (.devModeWrite v) s (s.flag 0 1))) ∧
  (∀ (s : State) (b : Fin 152) (v : W64), s.alive = true → s.domOn (blkDom b) = true →
     let d := v.fld 0 6
     let n := v.fld 8 8
     let armed := (s.rg (devR 0x190)).bit 0
     (detCount b ≤ d ∨ n = 0 ∨ detBase b d = 4 ∧ armed = false → Answers (.blkInject b v) s s) ∧
     (d < detCount b → n ≠ 0 → detBase b d ≠ 4 → isEvent b d = false →
       Answers (.blkInject b v) s (s.setBlk b { s.blk b with inject := (s.blk b).inject.set d n })) ∧
     (d < detCount b → n ≠ 0 → detBase b d ≠ 4 → isEvent b d = true → Answers (.blkInject b v) s (s.injectEvent b d n)) ∧
     (d < detCount b → n ≠ 0 → detBase b d = 4 → armed = true → isEvent b d = true →
       Answers (.blkInject b v) s ((s.setRg (devR 0x190) 0).injectEvent b d n)))

/-! ## The structure image and its loader (R29, R36 to R45, R316, R399) -/

/-- A write to DEV_LOAD_CTRL with more than one of start, cancel and unload set, or with start or unload while the state is CHECKING (1), PENDING_HARVEST (2) or
COMMITTING (3), is discarded, and LOAD_BUSY, detector 2 of the device global block, which is an S1 fault, reports (R38). -/
def Obligations.LoadBusyRefusesRequests : Prop :=
  detBase 0 2 = 1 ∧
  ∀ (s : State) (v : W64), s.alive = true → s.loaderRuns = true →
    (((v.bit 0 && v.bit 2) || (v.bit 0 && v.bit 3) || (v.bit 2 && v.bit 3)) = true ∨
      (v.bit 0 || v.bit 3) = true ∧ (s.ld.state = 1 ∨ s.ld.state = 2 ∨ s.ld.state = 3)) →
    ∀ i ∈ [Instr.loadStart v, .harvestLoadStart v, .loadCancel v, .loadUnload v], Answers i s (s.flag 0 2)

/-- The requests that are not busy (R36, R44, Table 2-5, Table 2-6 stage 0): a start enters CHECKING at stage 1 where the range and, for a harvest load, the
context and the number stand, and is refused with the first reason that does not; a quiescent load outside quiescence is NOT_PERMITTED; an unload while quiescent
ends the image; a cancel ends a pending load at once and marks one in CHECKING. -/
def Obligations.LoadRequestsAct : Prop :=
  ∀ (s : State) (v : W64), s.alive = true → s.loaderRuns = true →
    let a := (s.rg (devR 0x070)).fld 0 50
    let n := (s.rg (devR 0x078)).fld 0 33
    let c := s.loadTarget.1
    let q := { s with ld := { s.ld with atHarvest := v.bit 1, cancel := false, img := none, raw := [], v0 := [], heldAt := none, met := false } }
    let fits := a % 4096 = 0 ∧ 256 ≤ n ∧ n ≤ 4294967296 ∧ a + n ≤ 0x6000000000
    (v.bit 0 = true → v.bit 2 = false → v.bit 3 = false → (s.ld.state = 0 ∨ 4 ≤ s.ld.state) →
      (∀ i ∈ [Instr.loadStart v, .harvestLoadStart v],
        (v.bit 1 = false → s.quiescent = false → Answers i s (q.refuse { reason := 0x01 } 0)) ∧
        (v.bit 1 = false → s.quiescent = true → fits → Answers i s (q.loadTo 1 1)) ∧
        ((v.bit 1 = true ∨ s.quiescent = true) → ¬fits → Answers i s (q.refuse { reason := 0x02 } 0)) ∧
        (v.bit 1 = true → fits → (s.ctx c).st ≠ 1 → Answers i s (q.refuse { reason := 0x03, index := c } 0)) ∧
        (v.bit 1 = true → fits → (s.ctx c).st = 1 → s.canHarvest c = false → Answers i s (q.refuse { reason := 0x05, index := c } 0)) ∧
        (v.bit 1 = true → fits → (s.ctx c).st = 1 → s.canHarvest c = true →
          Answers i s (if laterHarvest (s.ctx c).harvest s.loadTarget.2 then q.refuse { reason := 0x04, index := c } 0 else q.loadTo 1 1)))) ∧
    (v.bit 0 = false → v.bit 2 = true → v.bit 3 = false →
      (s.ld.state = 1 → Answers (.loadCancel v) s { s with ld := { s.ld with cancel := true } }) ∧
      (s.ld.state = 2 → Answers (.loadCancel v) s (s.refuse { reason := 0x72 } s.ld.stage)) ∧
      (s.ld.state ≠ 1 → s.ld.state ≠ 2 → Answers (.loadCancel v) s s)) ∧
    (v.bit 0 = false → v.bit 2 = false → v.bit 3 = true → (s.ld.state = 0 ∨ 4 ≤ s.ld.state) →
      (s.quiescent = true → s.inForce.isNone = true →
        Answers (.loadUnload v) s (s.loadTo 0 0 { reason := 0, value := s.ld.value, limit := s.ld.limit })) ∧
      (s.quiescent = true → s.inForce.isNone = false → Answers (.loadUnload v) s (s.dropImage.loadTo 0 0)) ∧
      (s.quiescent = false → Answers (.loadUnload v) s (s.refuse { reason := 0x01 } 0)))

/-- LOAD_STAGE_END (R37, R40, Table 2-5): in CHECKING a stage that fails refuses the image with its reason and its number, one that passes is followed by a cancel
that waits or by the next stage; after stage 6 a quiescent load commits and a harvest load waits for its harvest.

LOAD_HOLD_COMPLETE, LOAD_HOLD_TIMEOUT and NO_HARVEST_CTX_HOLD (R44, R45): a pending load commits when every open context is held; past the hold limit it is
refused with HOLD_TIMEOUT, naming a context not held; a context that cannot harvest and has drained is held, and its hold starts the limit.

COMMIT_DOMAINS_ON, COMMIT_COPY_DONE and STRUCTURE_RESET (R43, R316, R399): the copy begins when every domain that receives content is ON; a copy that ends
puts the image in force, one that meets an uncorrectable word leaves none and names the section; a lost structure goes when every context is FREE. -/
def Obligations.LoadsRunToTheirCommit : Prop :=
  (∀ (s r : State), s.alive = true → s.loaderRuns = true → s.ld.state = 1 →
     (∀ f, s.stageCheck = (some f, r) → Answers .loadStageEnd s (r.refuse f s.ld.stage)) ∧
     (s.stageCheck = (none, r) →
       (r.ld.cancel = true → Answers .loadStageEnd s (r.refuse { reason := 0x72 } s.ld.stage)) ∧
       (r.ld.cancel = false → s.ld.stage < 6 → Answers .loadStageEnd s { r with ld := { r.ld with stage := s.ld.stage + 1 } }) ∧
       (r.ld.cancel = false → 6 ≤ s.ld.stage → r.ld.atHarvest = true → r.swc.pend = false → Answers .loadStageEnd s (r.loadTo 2 6)) ∧
       (r.ld.cancel = false → 6 ≤ s.ld.stage → r.ld.atHarvest = false → Answers .loadStageEnd s r.commitStart))) ∧
  (∀ (s : State) (c : Fin 64), s.alive = true → s.ld.state = 2 →
     (s.loaderRuns = true → s.holdsComplete = true → Answers .loadHoldComplete s s.commitStart) ∧
     (s.holdsComplete = false → Answers .loadHoldComplete s s) ∧
     (s.ld.heldAt.isSome = true → s.holdsComplete = false → Answers .loadHoldTimeout s (s.refuse { reason := 0x71, index := s.firstUnheld } 7)) ∧
     ((s.ctx c).st = 1 → (s.ctx c).held = false → s.canHarvest c = false → s.swc.pend = false →
       (∀ t ∈ tilesOf (s.ctx c).tiles, s.moversIdle t = true ∧ (s.tile t).expects.isEmpty = true) →
       s.noInsts ((s.ctxGroups c).map fun x => x.1) = true → (∀ r ∈ s.swc.reqs, r.pkt.ctx ≠ c.val) →
       let r := s.setCtx c { s.ctx c with held := true }
       Answers (.noHarvestCtxHold c) s
         { r with ld := { r.ld with heldAt := s.ld.heldAt.or (some s.cclk), met := s.ld.met || decide (s.loadTarget.1 = c) } })) ∧
  (∀ (s : State) (bad : Option (Fin 256)), s.alive = true → s.uninjected = true →
     (s.ld.state = 3 → s.ld.copying = false → (∀ d ∈ s.ld.v0, s.domOn d.1 = true) →
       Answers .commitDomainsOn s { s with ld := { s.ld with copying := true } }) ∧
     (s.ld.state = 3 → s.ld.copying = true → bad = none → ∀ r, s.copyReads = (none, r) → ∀ i, r.ld.img = some i →
       Answers (.commitCopyDone bad) s (r.commit i)) ∧
     (s.ld.state = 3 → s.ld.copying = true → ∀ lost r, s.copyReads = (lost, r) → ∀ k : Nat, (bad.map Fin.val = some k ∨ bad = none ∧ lost = some k) →
       Answers (.commitCopyDone bad) s (((((r.flag 0 4).restoreV0).imageLost).refuse { reason := 0x73, sect := k } 7).dropImage)) ∧
     (s.ld.gone = true → s.allFree = true → Answers .structureReset s s.structReset) ∧
     (s.ld.gone = false ∨ s.allFree = false → Answers .structureReset s s))

/-! ## The fabric ports (R149 to R172) -/

/-- A port goes to another state (R163, R167, R182, R192, Table 7-7): the state and its cause are taken; where the state is new, a note and the port's vector are due,
Quilan hears of a change into or out of UP, and a port that carries traffic no longer gives back what waits in it and drops what its circuits hold.

PORT_TRAINING_DONE, TRAIN_TIMEOUT and HELLO_TIMEOUT (R160, R163, R167): a port in TRAINING goes to HELLO when all four lanes show fom_min; past train_max it
goes to ABSENT or UNUSED as DISC_EXPECT says, with the cause that its signal gives; past hello_timeout it goes to ABSENT; an attempt of RETRAIN fails, and the
last one that retrain_max allows ends in ABSENT with RETRAIN_FAIL, detector 2. -/
def Obligations.PortsChangeState : Prop :=
  (∀ (s : State) (p st cause : Nat),
     let x := s.port p
     let r := s.setPort p { x with st := st, cause := cause }
     let v := (r.note (portB p) 2 (r.portState p)).wantVec (portB p)
     let told := v.tell (.portState s.chip p (r.portState p))
     let gone := fun u : State =>
       ((u.modPort p fun x => { x with eiSent := false, eiStop := false, exiting := false, reeval := false }).requeue p).vcDrop p
     (x.st = st → s.portGo p st cause = r) ∧
     (x.st = 3 → st = 4 → s.portGo p st cause = told) ∧ (x.st ≠ 3 → st = 3 → s.portGo p st cause = told) ∧
     (x.st = 3 → st ≠ 3 → st ≠ 4 → s.portGo p st cause = gone told) ∧ (x.st = 4 → st ≠ 3 → st ≠ 4 → s.portGo p st cause = gone v) ∧
     (x.st ≠ st → x.st ≠ 3 → x.st ≠ 4 → st ≠ 3 → s.portGo p st cause = v)) ∧
  (∀ (s : State) (p : Fin 48) (f0 f1 f2 f3 : Byte) (signal : Bool), s.alive = true → s.uninjected = true →
     let x := s.port p
     let fs := [f0, f1, f2, f3]
     let r := s.setFoms p fs
     let lock := r.modPort p fun x => x.mapLanes fun _ y => { y with locked := true }
     let fails := fun (i : Instr) =>
       (s.retrainMax p ≤ x.attempts → Answers i s ((s.portAway p 7 12).portFlag p 2)) ∧
       (x.attempts < s.retrainMax p → Answers i s ((s.modPort p fun x => { x with attempts := x.attempts + 1 }).portTrain p true))
     (x.st = 1 → (∀ f ∈ fs, s.fomMin p ≤ f.toNat) → Answers (.portTrainingDone p f0 f1 f2 f3) s (lock.portHello p)) ∧
     (x.st = 9 → x.trained = false → (∀ f ∈ fs, s.fomMin p ≤ f.toNat) →
       Answers (.portTrainingDone p f0 f1 f2 f3) s (lock.modPort p fun x => { x with trained := true }.clearEval)) ∧
     ((x.st = 1 ∨ x.st = 9 ∧ x.trained = false) → (∃ f ∈ fs, f.toNat < s.fomMin p) → Answers (.portTrainingDone p f0 f1 f2 f3) s r) ∧
     (x.st = 1 → s.hst.plan.isSome = true → (s.discExpect p).bit 63 = true →
       Answers (.trainTimeout p signal) s (s.portAway p 7 (if signal then 10 else 9))) ∧
     (x.st = 1 → s.hst.plan.isSome = true → (s.discExpect p).bit 63 = false → Answers (.trainTimeout p signal) s (s.portAway p 8 0)) ∧
     (x.st = 1 → s.hst.plan = none →
       Answers (.trainTimeout p signal) s ((s.modPort p fun x => x.mapLanes fun _ y => { y with trims := [] }).portTrain p false)) ∧
     (x.st = 9 → x.trained = false → fails (.trainTimeout p signal)) ∧
     (x.st = 2 → x.hello = none → s.hst.plan.isSome = true → Answers (.helloTimeout p) s (s.portAway p 7 11)) ∧
     (x.st = 9 → x.trained = true → x.hello = none → fails (.helloTimeout p)))

/-- LANE_SIGNAL_LOSS, FOM_LOW and LANE_ADAPT (R159, R160, R163): a port in UP that loses a lane's signal counts a loss, enters the first attempt of RETRAIN and
reports LINK_DOWN, detector 1; a low FOM in UP reports detector 6 and the port stays UP; an adaptation step moves a receiver's own trim and asks the neighbour for a
transmit tap, and a port in another state does neither.

A trim stays within 8 steps of its table value under every move, each of one step (R159). -/
def Obligations.LaneEventsAndTrims : Prop :=
  (∀ (s : State) (p : Fin 48) (l : Fin 4) (k : Fin 10) (up : Bool) (fom : Byte), s.alive = true → s.uninjected = true →
     let x := s.port p
     let seen := s.modPort p fun x => { x with lanes := x.lanes.set l { x.lane l with fom := fom.toNat } }
     let lost := (s.modPort p fun x => { x with lanes := x.lanes.set l { x.lane l with fom := 0 } }).sat (blkR (portB p) 0x090) 0 16 1
     (x.st = 3 → Answers (.laneSignalLoss p l) s
       (((lost.modPort p fun x => { x with nbr := some (lost.seen p), attempts := 1, lostRun := 0 }).portTrain p true).portFlag p 1)) ∧
     (x.st = 3 → fom.toNat < s.fomWarn p → Answers (.fomLow p l fom) s (seen.portFlag p 6)) ∧
     (x.st = 3 → s.fomWarn p ≤ fom.toNat → Answers (.fomLow p l fom) s seen) ∧
     (x.st ≠ 3 → Answers (.fomLow p l fom) s s ∧ Answers (.laneSignalLoss p l) s s) ∧
     ((x.st = 1 ∨ x.st = 3 ∨ x.st = 9 ∧ x.trained = false) →
       (k.val < 6 → Answers (.laneAdapt p l k up fom) s ((seen.queueCtl p (.trim l k up)).trimLimit p l)) ∧
       (6 ≤ k.val → Answers (.laneAdapt p l k up fom) s ((seen.moveTrim p l k up).trimLimit p l))) ∧
     (x.st ≠ 1 → x.st ≠ 3 → x.st ≠ 9 → Answers (.laneAdapt p l k up fom) s s)) ∧
  (∀ (s : State) (p l k : Nat) (up : Bool), l < 4 → k < 10 →
     (∀ j, j < 10 → -8 ≤ ((s.port p).lane l).trim j ∧ ((s.port p).lane l).trim j ≤ 8) →
     let y := (s.port p).lane l
     let z := ((s.moveTrim p l k up).port p).lane l
     (∀ j, j < 10 → -8 ≤ z.trim j ∧ z.trim j ≤ 8) ∧ (∀ j, j < 10 → j ≠ k → z.trim j = y.trim j) ∧
     (z.trim k = y.trim k ∨ z.trim k = y.trim k + (if up then 1 else -1)))

/-- EI_IDLE_TIMEOUT, EI_EXIT_DONE, TRAINING_BURST_DETECT and ABSENT_BURST (R161, R162, R168): a port that may idle and has been
without traffic for idle_time asks, unless its request has left; a port in UP_IDLE that hears a burst, or
has a flit to send, starts its exit with a burst; the exit ends in UP, or in RETRAIN where a lane is below fom_min; a port in ABSENT or UNUSED sends a burst.

PORT_RETRAIN, PORT_HOLD_DOWN, PORT_RELEASE and SERDES_PLL (R167, R170, R172): what each does in each state of the port. -/
def Obligations.IdleAndPortControl : Prop :=
  (∀ (s : State) (p : Fin 48) (f0 f1 f2 f3 : Byte), s.alive = true →
     let x := s.port p
     let fs := [f0, f1, f2, f3]
     let r := s.setFoms p fs
     (s.mayIdle p = true → s.quiet p = true → x.eiSent = false → Answers (.eiIdleTimeout p) s (s.queueCtl p .eiReq)) ∧
     (s.mayIdle p = false ∨ s.quiet p = false ∨ x.eiSent = true → Answers (.eiIdleTimeout p) s s) ∧
     (x.st = 4 → x.exiting = false → Answers (.trainingBurstDetect p) s ((s.setPort p { x with exiting := true }).emit (.burst p))) ∧
     (x.st ≠ 4 → Answers (.trainingBurstDetect p) s s) ∧
     (x.st = 4 → x.exiting = true → (∃ f ∈ fs, f.toNat < s.fomMin p) → Answers (.eiExitDone p f0 f1 f2 f3) s (r.portLoss p true false)) ∧
     (x.st = 4 → x.exiting = true → (∀ f ∈ fs, s.fomMin p ≤ f.toNat) → Answers (.eiExitDone p f0 f1 f2 f3) s
       ((r.modPort p fun x => { x.mapLanes (fun _ y => { y with st := 2 }) with exiting := false, traffic := s.cclk }).portGo p 3 0)) ∧
     ((x.st = 7 ∨ x.st = 8) → Answers (.absentBurst p) s (s.emit (.burst p)))) ∧
  (∀ (s : State) (p : Fin 48), s.alive = true →
     let x := s.port p
     (x.st = 0 → ∀ i ∈ [Instr.portRetrain p, .portHoldDown p, .portRelease p], Answers i s s) ∧
     ((x.st = 3 ∨ x.st = 4) → Answers (.portRetrain p) s (s.portLoss p false false)) ∧
     (x.st = 1 → Answers (.portRetrain p) s (s.portTrain p false)) ∧
     (x.st = 9 → Answers (.portRetrain p) s (s.portTrain p true)) ∧
     (x.st = 2 → Answers (.portRetrain p) s (s.modPort p Port.clearEval)) ∧
     ((x.st = 5 ∨ x.st = 6 ∨ x.st = 7 ∨ x.st = 8) → Answers (.portRetrain p) s
       (if (x.lane 0).st = 0 then s.portTrain p false else s.portHello p)) ∧
     (x.st ≠ 0 → Answers (.portHoldDown p) s
       ((s.portGo p 6 8).modPort p fun x => x.mapLanes fun _ y => { y with st := 2 })) ∧
     (x.st = 6 → x.cause = 8 → Answers (.portRelease p) s (s.portHello p)) ∧
     (¬(x.st = 6 ∧ x.cause = 8) → Answers (.portRelease p) s s) ∧
     (∀ g : Fin 12, bitOf s.pins.pll (2 + g) = true →
       let ps := (List.range 4).map fun k => 4 * g.val + k
       Answers (.serdesPll g) s (ps.foldl (fun s p => s.portFlag p 8) (ps.foldl State.portDrop (s.pllLoss (2 + g))))))

/-- FRAME_RECEIVED (R154, R156, R157, R168): a port in OFF takes no frame; a codeword with more than 15 symbols in error fails, is counted and reported by FEC_UE,
detector 0, and the frame is discarded; the symbols corrected of any other codeword count for the lanes that carried them; of a frame that is kept, its slot number
is taken, its traffic goes to the core, and then its control flit acts.

FRAME_SEND (R155, R161, R162, R164, R166, R168, R193, R194): a port whose lanes are off sends nothing; a port that is not UP sends no traffic but a control flit
that waits, or IDLE; a port in UP fills the frame from the ring that its wheel names for the slot and then from the scheduler; the slot number advances modulo
1,024, but for the frames that end an exit from electrical idle; and a port in UP whose neighbour has agreed to electrical idle enters it at the end of the frame. -/
def Obligations.FramesArriveAndLeave : Prop :=
  (∀ (s : State) (p : Fin 48) (f : Frame) (looks : List Look) (pl : Look) (ev : PanEv), s.alive = true → s.uninjected = true →
     let b := portB p
     let word := fun (u : State) (k : Nat) =>
       if 15 < (cwErrors f k).length then (u.flag b 0 { detail := u.portState p }).sat (blkR b 0x068) 0 32 1
       else (List.range 4).foldl (fun s l => if cwFixed f k l = 0 then s else s.sat (blkR b (0x220 + 0x40 * l)) 0 32 (cwFixed f k l))
         (if (cwErrors f k).isEmpty then u else u.sat (blkR b 0x060) 0 32 1)
     let read := word (word s 0) 1
     let kept := (((read.modPort p fun x => { x with lostRun := 0 }).progress b).frameSlot p f).frameIn p f looks pl ev
     ((s.port p).st = 0 → Answers (.frameReceived p f looks pl ev) s s) ∧
     ((s.port p).st ≠ 0 →
       ((15 < (cwErrors f 0).length ∨ 15 < (cwErrors f 1).length) → Answers (.frameReceived p f looks pl ev) s (read.frameLost p)) ∧
       ((cwErrors f 0).length ≤ 15 → (cwErrors f 1).length ≤ 15 →
         (frameCtl f = none → Answers (.frameReceived p f looks pl ev) s kept) ∧
         (∀ c, frameCtl f = some c → Answers (.frameReceived p f looks pl ev) s (kept.hearCtl p c))))) ∧
  (∀ (s : State) (p : Fin 48) (bups : List (Nat × Ecc)), s.alive = true →
     let x := s.port p
     let slot := if x.st = 4 then (x.txSlot + 1023) % 1024 else x.txSlot
     let r := (s.bobUpset bups).dueCtls p
     let sent := fun (u : State) (c : Ctl) (ps : List (List Byte)) (ks : List Pkt) =>
       ((u.modPort p fun y => { y with txSlot := (slot + 1) % 1024, eiStop := y.eiStop || (c == .eiAck && y.st == 3) }).emit
         (.frame p (mkFrame slot c ps ks))).ctlSent p c
     let ends := fun u : State => if x.eiStop = true ∧ (u.port p).st = 3 then u.eiEnter p else u
     (x.sends = false → Answers (.frameSend p bups) s (s.bobUpset bups)) ∧
     (x.sends = true → x.st ≠ 3 → ∀ c u, r.takeCtl p = (c, u) → Answers (.frameSend p bups) s (ends (sent u c [] []))) ∧
     (x.st = 3 → r.dev.down = false → r.coreOk = true → ∀ pin ps ks u, r.traffic p (r.wheel p x.txSlot) = (some pin, ps, ks, u) →
       Answers (.frameSend p bups) s (ends (sent u pin ps ks))) ∧
     (x.st = 3 → r.dev.down = false → r.coreOk = true → ∀ ps ks u c w, r.traffic p (r.wheel p x.txSlot) = (none, ps, ks, u) →
       u.takeCtl p = (c, w) → Answers (.frameSend p bups) s (ends (sent w c ps ks))) ∧
     (x.st = 3 → (r.dev.down = true ∨ r.coreOk = false) → ∀ c u, r.takeCtl p = (c, u) →
       Answers (.frameSend p bups) s (ends (sent u c [] []))))

/-! ## The switch core and loose requests (R176 to R201, R141, R186 to R189) -/

/-- LOOSE_HEAD_ARRIVAL and HEAD_REEVALUATE (R176, R180, R181): a head for this chip is delivered; any other takes the queue that the deflection order chooses, or
is discarded and counted where it has no route or every queue is full, or waits in its ingress stage; a head that waited is taken out of it and tried again.

The deflection order (R179, R181, Table 8-5): step 1 takes the first productive port that is usable where its occupancy is below deflect_thresh; steps 2 and 4
take another productive port that is usable; step 3 takes a usable port other than the one the head came from; a head with no usable port has no route.

A packet that leaves (R184, R185): a head with hops at 64 is discarded and counted in SWC_HOPS_CNT; any other that leaves has had its hops advanced by one, and
its age is below the limit.

EGRESS_SELECT (R206, R221): a port in UP sends the packet that its fair queues select; where nothing fits or the packet is discarded, nothing leaves. -/
def Obligations.LooseHeadsAreForwarded : Prop :=
  (∀ (s : State) (p : Fin 48) (busy : List (Fin 48)) (k : Pkt), s.alive = true → s.uninjected = true → s.coreOk = true → (s.port p).st = 3 →
     k.kind ≠ 5 →
     let arrive := Instr.looseHeadArrival (some p) busy k .clean []
     (k.dst = s.chip → ∀ ups, Answers (.looseHeadArrival (some p) busy k .clean ups) s ((s.upset ups).deliver k)) ∧
     (k.dst ≠ s.chip →
       (s.choose (some p.val) k.dst (busy.map Fin.val) 0 = .noRoute → Answers arrive s (s.sat (blkR 3 0x0B8) 0 32 1)) ∧
       (s.choose (some p.val) k.dst (busy.map Fin.val) 0 = .full → Answers arrive s (s.sat (blkR 3 0x0A8) 0 32 1)) ∧
       (s.choose (some p.val) k.dst (busy.map Fin.val) 0 = .wait → Answers arrive s (s.stage ⟨some p, k, 1, s.cclk⟩)) ∧
       (∀ q step, s.choose (some p.val) k.dst (busy.map Fin.val) 0 = .put q step → ∀ st r, s.enq q k (some p.val) s.cclk step = (st, r) → Answers arrive s r)) ∧
     (∀ (i : Nat) (g : Stage), s.swc.stages[i]? = some g →
       let r := s.modSwc fun x => { x with stages := x.stages.eraseIdx i }
       (g.pkt.dst = s.chip → Answers (.headReevaluate i busy) s (r.deliver g.pkt)) ∧
       (g.pkt.dst ≠ s.chip → ∀ st w, r.forward g.frm (busy.map Fin.val) g.evals g.since g.pkt = (st, w) → Answers (.headReevaluate i busy) s w))) ∧
  (∀ (s : State) (frm : Option Nat) (dst p step : Nat), s.choose frm dst [] 0 = .put p step →
     (s.rte dst).bit 63 = true ∧ s.usable p = true ∧ 1 ≤ step ∧ step ≤ 4 ∧
     (step ≠ 3 → p ∈ productive (s.rte dst)) ∧ (step = 1 → (productive (s.rte dst)).find? s.usable = some p) ∧
     (step = 3 → p < 48 ∧ some p ≠ frm ∧ p ∉ productive (s.rte dst)) ∧ (step ≤ 3 → (s.port p).occ < s.deflAt) ∧
     (step = 4 → (s.port p).occ < s.qCap)) ∧
  (∀ (s r : State) (p : Nat) (q : QPkt) (k : Option Pkt), s.uninjected = true → s.bobUps.get .clean q.bob = .clean → s.depart p q = (k, r) →
     let read := { s with bobUps := s.bobUps.drop fun j => j == q.bob }
     (s.tooOld (s.leaving q) = true → k = none ∧ r = read.sat (blkR 3 0x098) 0 32 1) ∧
     (s.tooOld (s.leaving q) = false → 64 ≤ q.pkt.hops → k = none ∧ r = read.sat (blkR 3 0x0A0) 0 32 1) ∧
     (∀ m, k = some m → m.hops = q.pkt.hops + 1 ∧ m.hops ≤ 64 ∧ s.tooOld (s.leaving q) = false ∧ m.age = (s.leaving q).age)) ∧
  (∀ (s r : State) (p : Fin 48) (bups : List (Nat × Ecc)) (n : Nat), s.alive = true → s.uninjected = true →
     let b := s.bobUpset bups
     ((s.port p).st = 3 → s.coreOk = true → s.ok 4 = true →
       (∀ k, b.egress p 19 = (some k, n, r) → Answers (.egressSelect p bups) s (r.emit (.packet p k))) ∧
       (b.egress p 19 = (none, n, r) → Answers (.egressSelect p bups) s r)) ∧
     ((s.port p).st ≠ 3 → Answers (.egressSelect p bups) s b))

/-- TREE_HEAD_ARRIVAL and PINNED_CHUNK_ARRIVAL (R181, R190, R191, R240): a tree packet whose group is not in the image, or which no tree carries here, is dropped
and counted; any other is copied to its group's tree ports, and where the chip delivers it, its CRC-32C decides whether the engine takes it; a chunk that no entry of
its ring takes at this port is dropped with ROUTE_MISS, detector 3, one that crosses the date line twice with detector 4; a transit entry puts it into the egress
buffer of the VC that the date line gives, and a member entry gives it to its pan slot.

TREE_HEAD_ARRIVAL and PINNED_CHUNK_ARRIVAL complete in every state of a powered device, from every source and whatever the head meets (R168, R181, R200, R201): a
head or a chunk that the core does not hear, or one of another kind, changes nothing; one whose head or table entry cannot be read is dropped, a tree head counted
in SWC_TREE_DROP_CNT and a chunk flit by flit; every other goes on. -/
def Obligations.PinnedAndTreeHeads : Prop :=
  (∀ (s : State) (p : Fin 48) (k : Pkt) (c : Chunk) (ev : PanEv), s.alive = true → s.uninjected = true → s.coreOk = true → (s.port p).st = 3 →
     let arrive := Instr.pinnedChunkArrival p c .clean ev
     (k.kind = 5 →
       let tree := Instr.treeHeadArrival (some p) k .clean
       (s.grpCfg k.group = none → Answers tree s (s.sat (blkR 3 0x0E8) 0 32 1)) ∧
       ∀ g, s.grpCfg k.group = some g →
         (g.tree = false → Answers tree s (s.sat (blkR 3 0x0E8) 0 32 1)) ∧
         (g.tree = true → ∀ st r, s.treeOut g (some p.val) k = (st, r) →
           (g.deliver = true → g.treeOnly = false →
             (pktOk k = true → Answers tree s (r.fwd.engine k)) ∧ (pktOk k = false → Answers tree s (r.sat (blkR 3 0x0C0) 0 32 1))) ∧
           (g.deliver = false ∨ g.treeOnly = true → Answers tree s r))) ∧
     (s.ringIn c.ring p = none → Answers arrive s ((s.flag 3 3).pinDrop chunkFlits)) ∧
     (∀ e, s.ringIn c.ring p = some e →
       (e.dateLine = 1 → c.vc = 1 → Answers arrive s ((s.flag 3 4).pinDrop chunkFlits)) ∧
       (¬(e.dateLine = 1 ∧ c.vc = 1) → e.transit = true → Answers arrive s ((s.progress 3).vcPut e (max c.vc e.dateLine) c)) ∧
       (¬(e.dateLine = 1 ∧ c.vc = 1) → e.transit = false → Answers arrive s ((s.progress 3).panChunk c ev)))) ∧
  (∀ (s : State) (l : Look), s.alive = true →
     (∀ (p : Option (Fin 48)) (k : Pkt),
       (s.hears (p.map Fin.val) = false ∨ k.kind ≠ 5 → exec (.treeHeadArrival p k l) s = .next s.endCycle) ∧
       (s.hears (p.map Fin.val) = true → k.kind = 5 → ∀ kept r, s.look l false = (kept, r) →
         (kept = true → exec (.treeHeadArrival p k l) s = .next (r.treeHead (p.map Fin.val) k).endCycle) ∧
         (kept = false → exec (.treeHeadArrival p k l) s = .next (r.sat (blkR 3 0x0E8) 0 32 1).endCycle))) ∧
     (∀ (p : Fin 48) (c : Chunk) (ev : PanEv),
       (s.hears (some p.val) = false → exec (.pinnedChunkArrival p c l ev) s = .next s.endCycle) ∧
       (s.hears (some p.val) = true → ∀ kept r, s.look l true = (kept, r) →
         (kept = false → exec (.pinnedChunkArrival p c l ev) s = .next (r.pinDrop chunkFlits).endCycle) ∧
         (kept = true → r.uninjected = true → ∀ e, r.ringIn c.ring p = some e → e.dateLine + c.vc < 2 →
           exec (.pinnedChunkArrival p c l ev) s =
             .next (if e.transit then (r.progress 3).vcPut e (max c.vc e.dateLine) c else (r.progress 3).panChunk c ev).endCycle) ∧
         (kept = true → r.uninjected = true → (r.ringIn c.ring p = none) →
           exec (.pinnedChunkArrival p c l ev) s = .next ((r.flag 3 3).pinDrop chunkFlits).endCycle))))

/-- LOOSE_REQUEST_INJECT and RATE_INTERVAL (R126, R186, R189): a request of another chip joins its unit's queue and the first that waits is tried; nothing is
injected without a plan; at an interval's end every class that saw no marked echo rises by ai and none passes r_max.

RTO_EXPIRY and COMPLETION_ARRIVAL (R186, R188): a request that is late is sent again, marked retransmitted, until rto_max tries have been made, and then fails
with REMOTE_FAIL; a completion ends its record, cuts its class where its echo mark is set, and answers what waited, unless its status says that the target
had no bobbin, when the record stays to be sent again; one without a record is counted. -/
def Obligations.RequestsAreSentAndEnd : Prop :=
  (∀ (s : State) (u : Fin 10) (r : LReq), s.alive = true →
     let cfg := s.rg (blkR 3 0x050)
     let lim := s.rg (blkR 3 0x058)
     (s.hst.plan.isSome = true → s.coreOk = true →
       (addrChip r.address ≠ s.chip → Answers (.looseRequestInject u (some r)) s
         ((s.modSwc fun x => { x with waitq := x.waitq ++ [(u.val, r, .unit)] }).injectNext u)) ∧
       (addrChip r.address = s.chip → Answers (.looseRequestInject u (some r)) s s) ∧
       Answers (.looseRequestInject u none) s (s.injectNext u)) ∧
     (s.hst.plan = none → Answers (.looseRequestInject u (some r)) s s) ∧
     (∃ t, Answers .rateInterval s t ∧ t.swc.rcCfg = cfg ∧ t.swc.rcLim = lim ∧ t.swc.cut = [] ∧
       ∀ c, c < 256 → t.rate c = min (lim.fld 16 16) (if s.swc.cut.contains c then s.rate c else
         min (s.swc.rcLim.fld 16 16) (s.rate c + s.swc.rcCfg.fld 8 16)))) ∧
  (∀ (s : State) (u : Fin 10) (tag : Nat) (r : Req), s.alive = true →
     (s.swc.reqs.find? fun r => r.unit == u.val && r.pkt.tag == tag) = some r →
     let rest := s.modSwc fun x => { x with reqs := x.reqs.filter (· != r) }
     (r.tries < (s.rg (blkR 3 0x068)).fld 32 4 → Answers (.rtoExpiry u tag) s
       (((s.modSwc fun x => { x with reqs := x.reqs.map fun q => if q = r then { r with tries := r.tries + 1 } else q }).sat
         (blkR 3 0x0C8) 0 32 1).send { r.pkt with retx := true })) ∧
     ((s.rg (blkR 3 0x068)).fld 32 4 ≤ r.tries →
       Answers (.rtoExpiry u tag) s ((rest.sat (blkR 3 0x0D0) 0 32 1).reqEnd r.use stRemote [])) ∧
     (∀ k : Pkt, (k.kind = 2 ∨ k.kind = 3) → k.dst = s.chip → pktOk k = true → s.fwd.stale k.ctx k.gen = false → s.coreOk = true →
       ((s.fwd.swc.reqs.find? fun r => r.unit == k.unit && r.pkt.tag == k.tag) = none →
         Answers (.completionArrival k) s (s.fwd.sat (blkR 3 0x0D8) 0 32 1)) ∧
       (k.unit = u.val → k.tag = tag → (k.status = stQuota ∨ k.status = stPool) → Answers (.completionArrival k) s
         (if k.echo then s.fwd.echo r.pkt.dclass else s.fwd)) ∧
       (k.unit = u.val → k.tag = tag → k.status ≠ stQuota → k.status ≠ stPool → k.echo = false → Answers (.completionArrival k) s
         (((s.fwd.modSwc fun x => { x with reqs := x.reqs.filter (· != r) }).reqEnd r.use k.status k.data).injectNext k.unit)) ∧
       (k.unit = u.val → k.tag = tag → k.status ≠ stQuota → k.status ≠ stPool → k.echo = true → Answers (.completionArrival k) s
         ((((s.fwd.echo r.pkt.dclass).modSwc fun x => { x with reqs := x.reqs.filter (· != r) }).reqEnd r.use k.status k.data).injectNext k.unit))))

/-- SWAP_NOW, SWAP_AT_HARVEST, SWAP_CANCEL, ROUTE_SWAP, SWAP_HOLD_TIMEOUT and RTE_DEST_WRITE (R197, R198): when the banks swap and with which result, and which
requests are discarded with CFG_REFUSED, detector 5 of the switch core.

SWC_CFG_WRITE and CORE_PARITY (R200, R201): a configuration that is not consistent is discarded with CFG_REFUSED; a parity error of the core reports detector 7
and empties every queue, stage and egress buffer. -/
def Obligations.CoreConfiguration : Prop :=
  (∀ (s : State) (bank : Fin 2) (d : Fin 16384) (v : W64), s.alive = true → s.up 3 = true → s.domOn 1 = true →
     let c := s.swapTarget.1
     let w := s.modSwc fun x => { x with bank := 1 - x.bank, pend := false, result := 1, swaps := (x.swaps + 1) % 2 ^ 16, heldAt := none, met := false }
     s.swapDo = (w.wantVec 3).note 3 3 w.rteStatus ∧
     (s.quiescent = true → Answers .swapNow s s.swapDo) ∧ (s.quiescent = false → Answers .swapNow s (s.flag 3 5)) ∧
     (s.swc.pend = true ∨ (s.ctx c).st ≠ 1 ∨ s.canHarvest c = false → Answers .swapAtHarvest s (s.flag 3 5)) ∧
     (s.swc.pend = false → (s.ctx c).st = 1 → s.canHarvest c = true → s.ld.state ≠ 2 →
       Answers .swapAtHarvest s (s.modSwc fun x => { x with pend := true, heldAt := none, met := false })) ∧
     (s.swc.pend = true → Answers .swapCancel s (s.swapEnd 4)) ∧ (s.swc.pend = false → Answers .swapCancel s s) ∧
     (s.swc.pend = true → s.ld.state ≠ 2 → s.holdsComplete = true → Answers .routeSwap s s.swapDo.releaseAll) ∧
     (s.holdsComplete = false → Answers .routeSwap s s) ∧
     (s.swc.pend = true → s.ld.state ≠ 2 → s.swc.heldAt.isSome = true → s.holdsComplete = false → Answers .swapHoldTimeout s (s.swapEnd 2)) ∧
     (bank.val = s.swc.bank → Answers (.rteDestWrite bank d v) s s) ∧
     (bank.val ≠ s.swc.bank → s.swc.pend = true → Answers (.rteDestWrite bank d v) s (s.flag 3 5)) ∧
     (bank.val ≠ s.swc.bank → s.swc.pend = false → Answers (.rteDestWrite bank d v) s
       (s.setRg (blkR 3 ((if bank.val = 0 then 0x80000 else 0xA0000) + 8 * d)) (v &&& 0x8000FF0F3F3F3F3F)))) ∧
  (∀ (s : State) (v : W64), s.alive = true →
     let q := v.fld 32 16
     let fits := 64 ≤ q ∧ q ≤ 16383 ∧ v.fld 16 16 ≤ v.fld 0 16 ∧ v.fld 0 16 ≤ q
     (s.domOn 1 = true → fits → Answers (.swcCfgWrite v) s (s.setRg (blkR 3 0x040) (v &&& 0x03FFFFFFFFFFFFFF))) ∧
     (s.domOn 1 = true → ¬fits → Answers (.swcCfgWrite v) s (s.flag 3 5)) ∧
     (s.domOn 1 = false → ∀ bank d, Answers (.swcCfgWrite v) s s ∧ Answers (.rteDestWrite bank d v) s s) ∧
     (s.up 3 = true → Answers .coreParity s (s.flag 3 7).flushCore) ∧
     ∀ p, (∀ n ∈ ((s.flag 3 7).flushCore.port p).nodes, n.2.q = []) ∧ ((s.flag 3 7).flushCore.port p).vcs = [] ∧ (s.flag 3 7).flushCore.swc.stages = [])

/-! ## The scheduler, contexts and the creel (R202 to R222) -/

/-- CTX_OPEN (R212, R213, Table 9-5): the request is refused with the first status of the table that applies and nothing opens; an accepted one makes the context OPEN
with its tiles, privilege and subscriber, a generation that is the one set or the one it had, and harvest number 0; its groups
start with no instance and counters at 0 (R230, R234), and its tiles at bundle 0 with empty tallies. -/
def Obligations.ContextsOpen : Prop :=
  ∀ (s : State) (c : Fin 64) (g : Option (BitVec 16)), s.alive = true → s.up 4 = true →
    let setGen := g.map BitVec.toNat
    let res := fun (s : State) (st : Nat) => s.setRg (blkR 4 0x060) (put 24 st ||| put 8 c ||| put 0 1)
    (s.openStatus c setGen ≠ 0 → Answers (.ctxOpen c g) s (res s (s.openStatus c setGen))) ∧
    (s.inForce = none → s.openStatus c setGen = 1) ∧
    (s.inForce.isSome = true → s.ctxEntry c = none → s.openStatus c setGen = 2) ∧
    (∀ priv tiles sub, s.inForce.isSome = true → s.ctxEntry c = some (priv, tiles, sub) →
      let bad := ∃ v, setGen = some v ∧ ((v + 65536 - (s.ctx c).gen) % 65536 < 1 ∨ 32767 < (v + 65536 - (s.ctx c).gen) % 65536)
      ((s.ctx c).st ≠ 0 → s.openStatus c setGen = 3) ∧
      ((s.ctx c).st = 0 → s.loadingBars = true → s.openStatus c setGen = 4) ∧
      ((s.ctx c).st = 0 → s.loadingBars = false → bad → s.openStatus c setGen = 5) ∧
      ((s.ctx c).st = 0 → s.loadingBars = false → ¬bad → (∃ t ∈ tilesOf tiles, s.tileDown t = true) → s.openStatus c setGen = 6) ∧
      ((s.ctx c).st = 0 → s.loadingBars = false → ¬bad → (∀ t ∈ tilesOf tiles, s.tileDown t = false) →
        Answers (.ctxOpen c g) s (res ((((tilesOf tiles).foldl (fun s t => s.tileStart t c)
          (s.setCtx c { st := 1, gen := setGen.getD (s.ctx c).gen, tiles := tiles, priv := priv, sub := sub })).resetGroups c false).dropOrder c) 0)))

/-- CTX_CLOSE and TEARDOWN_TIMEOUT (R212, R213, Table 9-7): a close of a FREE context has status 7 and of one that closes status 8; that of an OPEN one enters
CLOSING at stage 1; a teardown past its limit enters STUCK, and detector 1 of the scheduler and step 1 of the blocks waited for follow.

TEARDOWN_STAGE_ADVANCE (R215, Table 9-7): the stages follow one another, the movers stop with stage 3, the groups close, the packets, chunks and tallies of the old
generation go with stage 5, the tiles are idle with stage 6, and then the context is FREE with the generation that the teardown gave it. -/
def Obligations.ContextsClose : Prop :=
  (∀ (s : State) (c : Fin 64), s.alive = true → s.up 4 = true →
     let res := fun (s : State) (st : Nat) => s.setRg (blkR 4 0x060) (put 24 st ||| put 8 c ||| put 0 2)
     ((s.ctx c).st = 0 → Answers (.ctxClose c) s (res s 7)) ∧
     ((s.ctx c).st = 1 → Answers (.ctxClose c) s (res (s.teardown c 1) 0)) ∧
     (2 ≤ (s.ctx c).st → Answers (.ctxClose c) s (res s 8)) ∧
     ((s.ctx c).st = 2 → Answers (.teardownTimeout c) s
       ((s.stageBlks c).foldl (fun s b => s.wantStep b 0)
         (((s.setCtx c { s.ctx c with st := 3 }).faultNames 4 1 c).flag 4 1 { ctx := some c }))) ∧
     ((s.ctx c).st ≠ 2 → Answers (.teardownTimeout c) s s)) ∧
  (∀ (s : State) (c : Fin 64), s.alive = true →
     let x := s.ctx c
     let ts := tilesOf x.tiles
     let at_ := fun (s : State) (n : Nat) => s.setCtx c { s.ctx c with stage := n }
     let go := Instr.teardownStageAdvance c
     let v : W64 := put 32 (min (s.cclk - x.closedAt) (2 ^ 32 - 1)) ||| put 8 x.cause ||| put 0 c
     (x.st ≠ 2 → Answers go s s) ∧
     (x.st = 2 →
       (x.stage = 1 → Answers go s (at_ s 2)) ∧
       (x.stage = 2 → (ts.foldl (fun s t => s.moversAbort t) (at_ s 3)).ok 5 = true →
         Answers go s ((ts.foldl (fun s t => s.moversAbort t) (at_ s 3)).closeGroups c)) ∧
       (x.stage = 3 → s.arraysDown x.tiles = true → (∀ t ∈ ts, s.ok (movBlk t) = true ∨ s.moversIdle t = true) →
         Answers go s (at_ (ts.foldl (fun s t => s.moversRest t) s) 4)) ∧
       (x.stage = 4 → s.ok 5 = true → Answers go s ((at_ (s.closeGroups c) 5).discardCtx c)) ∧
       (x.stage = 5 → Answers go s (ts.foldl (fun s t => s.modTile t fun y => { y with active := false, spn := 0 }) (at_ s 6))) ∧
       (x.stage = 6 → Answers go s ((((s.setCtx c { gen := x.gen }).setRg (blkR 4 0x070) v).wantVec 4).note 4 4 v))))

/-- SCH_SHAPE_CTRL and SHAPER_REFILL (R208, R209): a change is taken for an adjustable node within its image's limits and refused otherwise; a refill adds
rate × period tokens to each shaped bucket, up to its burst.

BITMAP_PARITY and SCH_STATE_PARITY (R221, R222): the creel's parity error reports detector 3 and from then on no bobbin is granted; a bobbin is granted only within
the quota of its class, and one that nothing holds; the scheduler's reports
detector 2, and every queued loose and tree packet is gone. -/
def Obligations.ShapersAndCreel : Prop :=
  (∀ (s : State) (v : W64), s.alive = true → s.domOn 1 = true →
     let n := v.fld 48 10
     let rate := v.fld 32 16
     let burst := v.fld 0 24
     (∀ c, s.nodeCfgs[n]? = some c →
       (c.adj = true → rate ≠ 0 → rate ≤ c.rate → 320 ≤ burst → burst ≤ c.burst →
         Answers (.schShapeCtrl v) s { s with newShapes := s.newShapes.set n (rate, burst) }) ∧
       (c.adj = false ∨ rate = 0 ∨ c.rate < rate ∨ burst < 320 ∨ c.burst < burst → Answers (.schShapeCtrl v) s (s.flag 4 0))) ∧
     (s.nodeCfgs[n]? = none → Answers (.schShapeCtrl v) s (s.flag 4 0)) ∧
     (∃ t, Answers .shaperRefill s t ∧ (s.newShapes = [] → ∀ p k c, s.nodeCfgs[k]? = some c →
       ((s.port p).nodes.get {} k).used ≤ (s.shape k c).2 →
       ((t.port p).nodes.get {} k).used = ((s.port p).nodes.get {} k).used - 5 * (s.shape k c).1 * max 1 ((s.rg (blkR 4 0x040)).fld 0 5)))) ∧
  (∀ (s : State), s.alive = true →
     (s.up 6 = true → Answers .bitmapParity s { s.flag 6 3 with bitmapBad := true }) ∧
     (∀ k, s.uninjected = true → s.bitmapBad = true → s.bobTake k = (stPool, 0, s.sat (blkR 6 (0x1C0 + 8 * k)) 32 32 1)) ∧
     (∀ k b r, s.uninjected = true → s.bobTake k = (0, b, r) → s.bobUsed k < s.quota k ∧ b ∉ s.bobBusy) ∧
     (s.up 4 = true → ∃ t, Answers .schStateParity s t ∧ ∀ p, ((t.port p).held = [])))

/-! ## Collectives (R223 to R246, R298) -/

/-- The ten packets of the collective engine meet its checks in order (R214, R297 to R300): one of another generation is counted as stale, one of a later harvest as
early, and neither is answered; one of an earlier harvest takes the treatment of a late packet.

What a packet that passes the checks does in its instance (R234, R238, R240, R241): CREDIT raises the cumulative credit and lets waiting chunks go; ABORT fails the
instance and travels on round the ring; TREE_DONE and A2A_DONE note the member that answered; COUNTS places the count for this member; data of an all-to-all is
placed at its offset, and its source hears when all of it is held. -/
def Obligations.CollectivePackets : Prop :=
  (∀ (s : State) (k : Pkt) (c : GrpCfg), s.alive = true → s.coreOk = true → k.kind = 6 → k.dst = s.chip → s.grpCfg k.group = some c →
     c.treeOnly = false →
     let f := s.fwd
     f.ok 5 = true →
     ∀ ni ∈ [(0, Instr.a2aDataArrival k), (1, .a2aDoneArrival k), (2, .countsArrival k), (3, .creditArrival k), (4, .abortArrival k),
         (5, .treeDoneArrival k), (6, .confirmArrival k), (7, .retractArrival k), (8, .resendArrival k), (9, .acceptArrival k)],
       k.sub = ni.1 →
       (pktOk k = false → Answers ni.2 s (f.sat (blkR 3 0x0C0) 0 32 1)) ∧
       (pktOk k = true → f.stale k.ctx k.gen = true → Answers ni.2 s (f.sat (blkR 4 0x078) 0 32 1)) ∧
       (pktOk k = true → f.stale k.ctx k.gen = false → harvestOrder k.harvest (f.ctx k.ctx).harvest = 1 →
         Answers ni.2 s (f.sat (devR 0x110) 0 32 1)) ∧
       (pktOk k = true → f.stale k.ctx k.gen = false → harvestOrder k.harvest (f.ctx k.ctx).harvest = 2 → Answers ni.2 s (f.latePkt c k))) ∧
  (∀ (s : State) (k : Pkt) (c : GrpCfg) (i : Inst), s.alive = true → s.coreOk = true → k.kind = 6 → k.dst = s.chip → pktOk k = true →
     s.grpCfg k.group = some c → c.treeOnly = false → s.fwd.ok 5 = true → s.fwd.stale k.ctx k.gen = false →
     harvestOrder k.harvest (s.fwd.ctx k.ctx).harvest = 0 → s.inst k.group k.gseq = some i →
     let r := s.fwd.progress 5
     let g := k.group
     let q := k.gseq
     (k.sub = 3 → Answers (.creditArrival k) s ((List.range i.slots.length).foldl (fun s n =>
       if (s.slot g q n).wait.isEmpty then s else s.sendOut c g q n []) (r.setInst g q { i with credit := max i.credit k.value }))) ∧
     (k.sub = 4 → c.succ ≠ k.value → Answers (.abortArrival k) s ((r.failInst g q 5 k.value).sendAbort c g q k.stat k.value)) ∧
     (k.sub = 4 → c.succ = k.value → Answers (.abortArrival k) s (r.failInst g q 5 k.value)) ∧
     (k.sub = 5 → i.answered.contains k.srcMember = false →
       Answers (.treeDoneArrival k) s (r.setInst g q { i with answered := k.srcMember :: i.answered })) ∧
     (k.sub = 1 → i.dstDone.contains k.srcMember = false →
       Answers (.a2aDoneArrival k) s (r.setInst g q { i with dstDone := k.srcMember :: i.dstDone, staged := i.staged.drop (· == k.srcMember) })) ∧
     (k.sub = 2 → k.value ≤ c.my → c.my < k.value + k.data.length / 4 → i.counts.find k.srcMember = none →
       Answers (.countsArrival k) s ((r.a2aCount c g q k.srcMember (u k.data (4 * (c.my - k.value)) 4)).a2aMove g q)) ∧
     (k.sub = 0 → i.op = 6 → (i.startOf 2).isSome = true → ∀ w j, r.a2aTake c g q k.srcMember k.value k.total k.data = w → w.inst g q = some j →
       (j.srcDone.contains k.srcMember = true →
         Answers (.a2aDataArrival k) s (w.toMember c g q k.srcMember { kind := 6, service := 2, sub := 1, value := k.total })) ∧
       (j.srcDone.contains k.srcMember = false → Answers (.a2aDataArrival k) s w)))

/-- CHUNK_PULL, CREDIT_REPEAT and EXPECT_CHUNK_WRITTEN (R62, R63, R232, R234): the engine pulls the tiles' bytes of the next chunk into the slot that is ready for it;
an instance with a free slot repeats its credit; a confirmed chunk is written where the tile's EXPECT says and the entry counts down. -/
def Obligations.ChunksArePulledAndWritten : Prop :=
  ∀ (s : State) (g : Fin 16384) (q : BitVec 16) (order : List (Fin 8)) (ups : Upsets) (c : GrpCfg) (i : Inst), s.alive = true → s.uninjected = true →
    s.grpCfg g = some c → s.inst g q.toNat = some i →
    let chunks := i.chunks
    let tiles := s.contributors c g i
    (∀ n k h bs r, s.ok 5 = true → s.ok (10 + c.quad) = true → i.op < 5 ∨ i.op = 8 → s.contributed c g i = true →
      (tiles.all fun t => (s.tile t).linkUp) = true → i.nextPull c chunks = some (n, none) → (i.slots.getD n {}).key = some (k, h, false) →
      (s.upset ups).contributions i k (combineOrder s.deterministic (order.map Fin.val) tiles) = (some bs, r) →
      ∀ w, ((r.enterLocal c g q.toNat n i bs).pulledOne c g q.toNat chunks).panEvent c g q.toNat n .clean = (true, w) →
        Answers (.chunkPull g q order .clean ups) s (w.pump g q.toNat n)) ∧
    (i.nextPull c chunks = none → Answers (.chunkPull g q order .clean ups) s (s.upset ups)) ∧
    (i.emptySlot.isSome = true → 2 ≤ c.n → Answers (.creditRepeat g q) s
      ((s.wrap (blkR 5 0x078) 48 1).toMember c g q.toNat c.pred { kind := 6, service := 2, sub := 3, value := i.freed })) ∧
    (i.emptySlot = none → Answers (.creditRepeat g q) s s) ∧
    (∀ (t : Fin 8) e k bs slots r, ((s.tile t).expects.find? fun e => e.group == g.val && e.seq == q.toNat) = some e → (s.tile t).linkUp = true →
      i.deliverable t = some (k, bs, slots) →
      ((i.starts.find? fun st => st.tile == t.val && st.kind == 2).bind fun st => if i.op = 1 then st.cry else none) = none →
      let first := (expectOf c i.op i.fmt { tile := t, kind := 2, bytes := e.bytes, tally := 255 }).1
      s.tileSave t (u e.bytes 0x10 8 + (k - first) * 4096) (bs.take (colBytes i.op i.fmt (u e.bytes 0x0C 4) k)) = (0, r) →
      let w := (slots.foldl (fun s n => s.modSlot g q.toNat n fun y => { y with writtenBy := t.val :: y.writtenBy }) r).modInst g q.toNat
        fun i => { i with delivered := i.delivered + 1 }
      Answers (.expectChunkWritten t g q) s (slots.foldl (fun s n => s.releaseSlot g q.toNat n) (w.expectOne t g q.toNat)))

/-- INSTANCE_COMPLETE (R234, R236, R242, R243): an instance of a ring collective that has what it contributes and receives, and whose slots have all been freed, leaves the
engine; its sequence number ends, the statistics and the completion records of its starts are written, and the last increments of its EXPECTs follow.

COLL_TIMEOUT, BROADCAST_RTO, A2A_RTO and ENGINE_PARITY (R237, R240, R241, R246): a base instance without progress fails with TIMEOUT (4), detector 4, naming this
member where a start or a pull of its own is missing and its predecessor otherwise, and where the group holds later sequence numbers only, the base fails here as well; a resend timer sends again until the resends allowed are used up and then fails the instance, naming
the member that has not answered; a parity error reports detector 6 and every instance fails. -/
def Obligations.InstancesEnd : Prop :=
  (∀ (s : State) (g : Fin 16384) (q : BitVec 16) (c : GrpCfg) (i : Inst), s.alive = true → s.grpCfg g = some c → s.inst g q.toNat = some i →
     (i.op < 5 ∨ i.op = 8) →
     let chunks := i.chunks
     let ready := s.contributed c g i = true ∧ s.received c g q.toNat i = true ∧ i.toFree c chunks ≤ i.freed
     (¬ready → Answers (.instanceComplete g q) s s) ∧
     (ready →
       let r := ({ s with insts := s.insts.drop (· == instKey g q.toNat) }).modGrp g fun x => x.end_ q.toNat
       let w := (((r.wrap (blkR 5 0x060) 48 1).progress 5).colStats c g q.toNat i.slowWait i.slow)
       let z := w.writeRecords (w.colRecord c g q.toNat i 0 (i.slow.getD c.my) i.slowWait 0) i.starts
       Answers (.instanceComplete g q) s (i.starts.foldl (fun s st => s.cryHears i 0 st)
         (i.starts.foldl (fun s st => if st.rest then s.opDone st.tile st.tally else s) z)))) ∧
  (∀ (s : State) (g : Fin 16384) (q : BitVec 16) (m : Fin 16384) (c : GrpCfg) (i : Inst), s.alive = true → s.grpCfg g = some c →
     s.inst g q.toNat = some i →
     let chunks := i.chunks
     let late := fun (s : State) (n : Nat) => (s.colFlag 4 c g q.toNat 4 n).failInst g q.toNat 4 n
     let waits := (List.range c.n).filter fun m => m != c.my && !i.fenced.contains m && !i.answered.contains m
     let here := s.startsMissing c g i = true ∨ ((i.op < 5 ∨ 7 < i.op) ∧ (i.nextPull c chunks).isSome = true)
     ((s.grp g).base = q.toNat → here → Answers (.collTimeout g) s (late s c.my)) ∧
     ((s.grp g).base = q.toNat → ¬here → 2 ≤ c.n → Answers (.collTimeout g) s (late s c.pred)) ∧
     (s.inst g (s.grp g).base = none → s.closing c.ctx = false → Answers (.collTimeout g) s
       ((((s.colFlag 4 c g (s.grp g).base 4 c.my)).modGrp g fun x => x.end_ (s.grp g).base).createFails c g (s.grp g).base 4)) ∧
     (i.op = 5 → c.root = c.my → (i.startOf 1).isSome = true →
       (waits = [] → Answers (.broadcastRto g q) s s) ∧
       (waits ≠ [] → i.resends < s.resendMax → Answers (.broadcastRto g q) s
         (((s.sat (blkR 5 0x080) 0 32 1).setInst g q.toNat { i with resends := i.resends + 1 }).broadcast g q.toNat)) ∧
       (∀ n ns, waits = n :: ns → s.resendMax ≤ i.resends → Answers (.broadcastRto g q) s (late s n))) ∧
     (i.op = 6 → (i.startOf 1).isSome = true → m.val < c.n → m.val ≠ c.my → i.dstDone.contains m.val = false →
       (s.resendMax ≤ i.dstTries.get 0 m → Answers (.a2aRto g q m) s (late s m)) ∧
       (∀ st counts w, i.startOf 1 = some st → i.dstTries.get 0 m < s.resendMax → i.moved = true →
         let r := (s.sat (blkR 5 0x080) 0 32 1).setInst g q.toNat { i with dstTries := i.dstTries.set m (i.dstTries.get 0 m + 1) }
         r.sendCounts c i st = (some counts, w) → ∀ z, w.a2aSend c g q.toNat i st counts m = (0, z) → Answers (.a2aRto g q m) s z)) ∧
     (s.up 5 = true → Answers .engineParity s (s.flag 5 6).failAll))

/-- MAX and MIN of the collectives compare elements in the chunk format and answer one of the two operands unchanged; where exactly one operand is NaN they answer
the other, where both are NaN the canonical NaN; −0 orders below +0 (R256). -/
def Obligations.MaxAndMinInThePans : Prop :=
  ∀ (fmt a b : Nat),
    let x := (fmtOf fmt).decode a
    let y := (fmtOf fmt).decode b
    (x.isNan = false → y.isNan = false →
      colCombine 2 fmt a b = (if Fp.lt true x y then b else a) ∧ colCombine 3 fmt a b = (if Fp.lt true y x then b else a)) ∧
    (∀ o ∈ [2, 3], (x.isNan = true → y.isNan = false → colCombine o fmt a b = b) ∧ (x.isNan = false → y.isNan = true → colCombine o fmt a b = a) ∧
      (x.isNan = true → y.isNan = true → colCombine o fmt a b = (fmtOf fmt).nanCode)) ∧
    (∀ e f : Int, Fp.lt true (.fin true 0 e) (.fin false 0 f) = true ∧ Fp.lt true (.fin false 0 f) (.fin true 0 e) = false)

/-! ## The pans (R247 to R272) -/

/-- The protocol packets of the pans (R263 to R266): a CONFIRM of the version held or of one to come is held and the slot goes on where it can, and one that comes before any
chunk has its slot is kept; one for a slot that has gone on is stale and answered with both bits; a RETRACT of the version held withdraws the slot's arrival and names the
version that follows; a RESEND of the version held sends the whole output again; an ACCEPT notes what the successor holds and releases a slot that owes nothing more; each
of another version is counted as stale.

RETRACT_RESTORE_DONE, CONFIRM_REPEAT, ACCEPT_TIMEOUT and SLOT_PARITY (R264, R266, R272): a retracting slot returns to EXPECTING and takes what was held, and one whose
traversal begins here goes on with its own contribution; a slot whose
output is not accepted repeats its CONFIRM, or sends its output again; a parity error reports detector 7 and fails every instance with quarters in the quadrant. -/
def Obligations.PanPacketsAndTimers : Prop :=
  (∀ (s : State) (k : Pkt) (c : GrpCfg) (i : Inst) (n : Nat), s.alive = true → s.coreOk = true → k.kind = 6 → k.dst = s.chip → pktOk k = true →
     s.grpCfg k.group = some c → c.treeOnly = false → s.fwd.ok 5 = true → s.fwd.stale k.ctx k.gen = false →
     harvestOrder k.harvest (s.fwd.ctx k.ctx).harvest = 0 → s.inst k.group k.gseq = some i →
     let r := s.fwd.progress 5
     let g := k.group
     let q := k.gseq
     let y := i.slots.getD n {}
     let stale := r.sat (blkR (10 + c.quad) 0x090) 0 32 1
     (k.sub = 6 → i.finished.contains (k.value, k.half, false) = false → i.slotOf (k.value, k.half, false) = some n →
       (y.settled = false → (k.part + 256 - y.ver) % 256 < 128 →
         Answers (.confirmArrival k) s ((r.modSlot g q n fun y => { y with confirmHeld := some k.part }).pump g q n)) ∧
       (y.settled = false → 128 ≤ (k.part + 256 - y.ver) % 256 → Answers (.confirmArrival k) s stale) ∧
       (y.settled = true → Answers (.confirmArrival k) s (stale.accept c g q k.part 3 k.value k.half false))) ∧
     (k.sub = 6 → i.finished.contains (k.value, k.half, false) = true →
       Answers (.confirmArrival k) s (stale.accept c g q k.part 3 k.value k.half false)) ∧
     (k.sub = 6 → i.finished.contains (k.value, k.half, false) = false → i.slotOf (k.value, k.half, false) = none →
       i.confirms.contains (k.value, k.half, k.part) = false →
       Answers (.confirmArrival k) s (r.setInst g q { i with confirms := (k.value, k.half, k.part) :: i.confirms })) ∧
     (k.sub = 7 → i.slotOf (k.value, k.stat % 2, false) = some n →
       (y.settled = false → k.part = y.ver → i.wide = true →
         let w := if y.st = 5 then r.modSlot g q n PSlot.clearArrival else r.retractSlot c g q n 0
         Answers (.retractArrival k) s (w.modSlot g q n fun y =>
           { y with ver := (k.part + 1) % 256, failed := none, confirmHeld := y.confirmHeld.filter (· == (k.part + 1) % 256) })) ∧
       (y.settled = true ∨ k.part ≠ y.ver ∨ i.wide = false → Answers (.retractArrival k) s stale)) ∧
     (k.sub = 8 → i.outSlot c k.value (k.stat % 2) k.gath = some n →
       (y.credited = true → y.out ≠ [] → y.ovf = k.part → Answers (.resendArrival k) s
         ((r.sat (blkR (10 + c.quad) 0x088) 0 32 1).sendOut c g q n y.out)) ∧
       (y.credited = false ∨ y.out = [] ∨ y.ovf ≠ k.part → Answers (.resendArrival k) s stale)) ∧
     (k.sub = 9 → i.outSlot c k.value k.half k.gath = some n →
       (y.ovf = k.part → Answers (.acceptArrival k) s ((r.modSlot g q n fun y =>
         { y with dataOk := y.dataOk || bitOf k.stat 0, acked := y.acked || (bitOf k.stat 0 && bitOf k.stat 1) }).releaseSlot g q n)) ∧
       (y.ovf ≠ k.part → Answers (.acceptArrival k) s stale))) ∧
  (∀ (s : State) (g : Fin 16384) (q : BitVec 16) (chunk n : Nat) (h : Fin 2) (c : GrpCfg) (i : Inst), s.alive = true → s.grpCfg g = some c →
     s.inst g q.toNat = some i →
     let y := i.slots.getD n {}
     (i.slotOf (chunk, h, false) = some n →
       (y.st = 5 → y.origin = c.my → Answers (.retractRestoreDone g q chunk h) s
         ((s.modSlot g q.toNat n fun y => { y with st := 2 }).pump g q.toNat n)) ∧
       (y.st = 5 → y.origin ≠ c.my → Answers (.retractRestoreDone g q chunk h) s
         (y.held.foldl (fun s k => s.takeChunk c g q.toNat n k) (s.modSlot g q.toNat n fun y => { y with st := 1, held := [] }))) ∧
       (y.st ≠ 5 → Answers (.retractRestoreDone g q chunk h) s s) ∧
       (y.st = 4 → y.credited = true → y.acked = false → c.lastOf y.origin = false → Answers (.confirmRepeat g q chunk h) s
         (s.toMember c g q.toNat c.succ { kind := 6, service := 1, sub := 6, part := y.ovf, stat := 0, value := chunk, half := h })) ∧
       (y.acked = true → Answers (.confirmRepeat g q chunk h) s s)) ∧
     (∀ gather, i.outSlot c chunk h gather = some n →
       (y.credited = true → y.out ≠ [] → y.dataOk = false → Answers (.acceptTimeout g q chunk h gather) s
         ((s.sat (blkR (10 + c.quad) 0x088) 0 32 1).sendOut c g q.toNat n y.out)) ∧
       (y.dataOk = true → Answers (.acceptTimeout g q chunk h gather) s s)) ∧
     (∀ p : Fin 4, s.up (10 + p) = true → Answers (.slotParity p) s ((s.flag (10 + p) 7).failQuad p)))

/-- Wide accumulators (R251, R253): a legal sum is exact and has no overflow mark; where the exact sum leaves the legal range the mark is set; with a NaN on either side
the result is NaN and has no mark. -/
def Obligations.WideAdditionIsExact : Prop :=
  ∀ (a b : Nat), a < 2 ^ 192 → b < 2 ^ 192 → wLegal (signed 192 a) = true → wLegal (signed 192 b) = true →
    wIsNan a = false → wIsNan b = false →
    (wLegal (signed 192 a + signed 192 b) = true → signed 192 (wAdd a b).1 = signed 192 a + signed 192 b ∧ (wAdd a b).2 = false ∧
      wIsNan (wAdd a b).1 = false) ∧
    (wLegal (signed 192 a + signed 192 b) = false → (wAdd a b).2 = true) ∧
    (∀ n, wIsNan n = true → (wAdd a n).2 = false ∧ (wAdd n b).2 = false ∧ wIsNan (wAdd a n).1 = true ∧ wIsNan (wAdd n b).1 = true)

/-! ## The crystallizers and the harvest (R68, R72, R273 to R301) -/

/-- CRY_VECTOR (R273, R279, R283 to R285): a vector of at most 48 elements of the norm pass or of the update pass in progress. A first residue mismatch is counted, reported
with detector 0 and recomputed; a second ends the pass with detector 1, an input that cannot be read with detector 2. In a norm pass the lane sums take the squares of w and
u; in an update pass m, v, the master and the forward blocks that end are written and the elements count. -/
def Obligations.CrystallizerVectors : Prop :=
  ∀ (s : State) (t : Fin 8) (upd : Bool) (m : Fin 3) (ups : Upsets) (g : Nat) (y : CryGrp) (e : CryEntry), s.alive = true → s.uninjected = true →
    s.cryPass t upd = some (g, y, e) → y.at_ < e.n →
    let b := cryBlk t
    let go := Instr.cryVector t upd m ups
    let k := min 48 (e.n - y.at_)
    let told := fun s : State => (s.sat (blkR b 0x098) 0 32 1).flag b 0 { ctx := some (s.tile t).ctx }
    let fails := fun (s : State) (d : Nat) (inj : Bool) => if upd then s.cryUpdBad t g y.at_ d inj else s.cryNormBad t g e d inj
    (∀ w : State, w.uninjected = true →
      w.cryResidue t 0 = (false, w) ∧ w.cryResidue t 1 = (false, told w) ∧ w.cryResidue t 2 = (true, told w)) ∧
    (∀ w, (s.upset ups).cryInputs t y.at_ k e = (none, w) → Answers go s (fails w 2 false)) ∧
    (∀ z w r, (s.upset ups).cryInputs t y.at_ k e = (some z, w) → w.cryResidue t m = (true, r) → Answers go s (fails r 1 (decide (m.val < 2)))) ∧
    (∀ z w r, (s.upset ups).cryInputs t y.at_ k e = (some z, w) → w.cryResidue t m = (false, r) →
      let vec := cryVec e (fp32.decode y.c1) (fp32.decode y.c2) z k
      (upd = false →
        let sums := fun y : CryGrp => { y with at_ := y.at_ + k, sw := addSquares y.sw z.2.2.2, su := addSquares y.su (vec.map fun a => a.u),
                                               bad := y.bad || vec.any CryElem.bad }
        Answers go s ((r.modCryGrp t g sums).progress b)) ∧
      (upd = true →
        let w1 := (z.2.2.2.zip vec).map fun a => cryW1 (fp32.decode y.s) a.1 a.2.u
        let codes := w1.map fp32.enc
        let mom := fun (a : Fp) => if e.mom16 then leBytes 2 (bf16.enc a) else leBytes 4 (fp32.enc a)
        let fwd := cryForward e y.at_ k (y.tail.map fp32.decode) w1
        let ws := [(e.mAddr + e.momSize * y.at_, vec.flatMap fun a => mom a.m1), (e.vAddr + e.momSize * y.at_, vec.flatMap fun a => mom a.v1),
          (e.state + 4 * y.at_, codes.flatMap (leBytes 4))] ++ fwd.1
        (∀ x, r.cryWrites t ws = (true, x) → Answers go s (fails x 2 false)) ∧
        (∀ x, r.cryWrites t ws = (false, x) → Answers go s (((x.modCryGrp t g fun y =>
          { y with at_ := y.at_ + k, flushed := y.flushed + fwd.2.1, ovf := y.ovf + fwd.2.2, tail := cryTail e y.at_ k y.tail codes }).wrap
            (blkR b 0x050) 48 k).progress b))))

/-- CRY_NORM_PASS_DONE, CRY_NORM_DECIDE and CRY_UPDATE_PASS_DONE (R280, R282 to R284, R286, Table 12-3): a finished norm pass starts the group's norm collective
with the sums of its lanes; the result skips the group with detector 4, 3, 5 or 6, the first that applies, or gives it the trust ratio and its rate; a finished update
pass advances the step counter, counts, and starts the multicast where the entry has one. Then the crystallizer goes on. -/
def Obligations.CrystallizerGroupsProceed : Prop :=
  ∀ (s : State) (t : Fin 8) (g : Fin 8192) (y : CryGrp) (e : CryEntry), s.alive = true → s.uninjected = true →
    let x := s.cry t
    let b := cryBlk t
    let tau := (s.cryStep t g).1
    (s.cryPass t false = some (g.val, y, e) → e.n ≤ y.at_ →
      Answers (.cryNormPassDone t) s ((s.cryNormStart t g e (normChunk (laneTotal y.sw) (laneTotal y.su) y.bad)).cryKick t)) ∧
    (∀ status wn un bad skew, x.active = true → x.groups.find g = some y → s.cryEntry t g = some e → s.ok b = true → y.st = 2 → y.res = some (status, wn, un, bad, skew) →
      (status ≠ 0 → Answers (.cryNormDecide t g) s ((s.crySkip t g 1 0x078 (some 4)).cryKick t)) ∧
      (status = 0 → (fp32.decode skew).isZero = false → Answers (.cryNormDecide t g) s ((s.crySkip t g 2 0x068 (some 3)).cryKick t)) ∧
      (status = 0 → (fp32.decode skew).isZero = true → (fp32.decode bad).isZero = false →
        Answers (.cryNormDecide t g) s ((s.crySkip t g 3 0x070 (some 5)).cryKick t)) ∧
      (status = 0 → (fp32.decode skew).isZero = true → (fp32.decode bad).isZero = true → tau = 2 ^ 32 - 1 →
        Answers (.cryNormDecide t g) s ((s.crySkip t g 4 0x078 (some 6)).cryKick t)) ∧
      (status = 0 → (fp32.decode skew).isZero = true → (fp32.decode bad).isZero = true → tau ≠ 2 ^ 32 - 1 →
        let r := trustRatio e (fp32.decode wn) (fp32.decode un)
        Answers (.cryNormDecide t g) s
          ((s.modCryGrp t g fun y => { y with st := 3, r := fp64.enc r, s := fp32.enc (r64 ((fp64.decode y.eta).mul r)) }).cryKick t))) ∧
    (s.cryPass t true = some (g.val, y, e) → e.n ≤ y.at_ →
      let w := (((((s.setCryStep t g (tau + 1, (s.cryStep t g).2)).wrap (blkR b 0x058) 32 1).setRg (blkR b 0x0A8) (BitVec.ofNat 64 y.r)).sat
        (blkR b 0x088) 0 32 y.flushed).sat (blkR b 0x090) 0 32 y.ovf).modCryGrp t g fun y => { y with st := 5 }
      (e.mcast = 0xFFFF → Answers (.cryUpdatePassDone t) s ((w.cryEntryDone t g).cryKick t)) ∧
      (e.mcast ≠ 0xFFFF → Answers (.cryUpdatePassDone t) s
        ((w.startColl { tile := t, kind := 1, bytes := cryDesc e.mcast 5 255 7 e.span e.fwdAddr 0, tally := 255, cry := some g.val }).cryKick t)))

/-- CRY_STEP_WRITE, CRY_TABLE_PARITY, SEQ_PARITY and SPINDLE_ERROR_TEARDOWN (R72, R288, R289): a step counter takes a write while its domain is ON and
no open context has the tile, and detector 9 reports one while a context has it; a table parity error reports detector 8 and skips what is left; a sequencer parity error sends a spindle that runs to ERROR with
cause 7; the context of a spindle in ERROR is torn down with cause 2, and no other. -/
def Obligations.CrystallizerAndSpindleFaults : Prop :=
  ∀ (s : State) (t : Fin 8) (g : Fin 8192) (v : W64), s.alive = true →
    let x := s.tile t
    (s.domOn (36 + t) = true → (x.active = false ∨ (s.ctx x.ctx).st = 0) →
      Answers (.cryStepWrite t g v) s (s.setCryStep t g (v.fld 0 32, v.bit 32))) ∧
    (s.domOn (36 + t) = false → Answers (.cryStepWrite t g v) s s) ∧
    (s.domOn (36 + t) = true → x.active = true → (s.ctx x.ctx).st ≠ 0 → Answers (.cryStepWrite t g v) s (s.flag (cryBlk t) 9)) ∧
    (s.up (cryBlk t) = true → Answers (.cryTableParity t) s ((s.flag (cryBlk t) 8).crySkipAll t)) ∧
    (x.canFail = true → Answers (.seqParity t) s
      (((s.spnReport t 7 7 255).modTile t fun x => { x with spn := 6 }).msix (259 + ((s.spnReport t 7 7 255).tile t).ctx))) ∧
    (x.canFail = false → Answers (.seqParity t) s s) ∧
    (x.spn = 6 → (s.ctx x.ctx).st = 1 → s.dev.osaux = true → Answers (.spindleErrorTeardown t) s (s.teardown x.ctx 2)) ∧
    (x.spn ≠ 6 ∨ (s.ctx x.ctx).st ≠ 1 → Answers (.spindleErrorTeardown t) s s)

/-- The phases of a harvest (R293 to R296, R301, Table 13-1): the drain's end fixes step_failed, counts a failed step and starts the crystallizers, DRAIN to CRYSTALLIZE;
when every crystallizer is done comes SETTLE; when their groups have ended CLEAR resets groups and rates, discards this chip's packets of the harvest and clears the tallies; a
residue is reported and the context stays; a hold that is owed or a test holds it; else it is released, as it is when the hold ends. A late harvest reports once.

The release of a context (R68, Table 13-1): its harvest number advances modulo 2^32 with nothing of the harvest left in it, every spindle of its tiles that was in
HARVEST runs from bundle 0 with every tally zero and no loop open, and the other contexts and tiles are as they were. -/
def Obligations.HarvestRunsItsPhases : Prop :=
  (∀ (s : State) (c : Fin 64), s.alive = true → s.uninjected = true →
     let x := s.ctx c
     let ts := tilesOf x.tiles
     let two := fun f : Bool => s.setCtx c { x with phase := 2, stepFailed := f }
     let own := fun (k : Pkt) => ofHarvest c x.harvest k && k.src == s.chip
     let r := ts.foldl (fun s t => s.modTile t fun y => { y with tallies := [] })
       ((((s.resetGroups c).ratesReset.purge own).sat (devR 0x128) 0 32 (s.countPkts own)).setCtx c { x with phase := 4 })
     (x.phase = 1 → s.drained c = true →
       (x.failedInst = false → Answers (.harvestDrainEnd c) s (ts.foldl (fun s t => s.cryStart t false) (two false))) ∧
       (x.failedInst = true → Answers (.harvestDrainEnd c) s
         (ts.foldl (fun s t => s.cryStart t ((s.rg (devR 0x100)).bit 0)) ((two true).sat (devR 0x130) 0 32 1)))) ∧
     (x.phase ≠ 1 ∨ s.drained c = false → Answers (.harvestDrainEnd c) s s) ∧
     (x.phase = 2 → (∀ t ∈ ts, (s.cry t).st = 3) → Answers (.harvestCrystallizeEnd c) s (s.setCtx c { x with phase := 3 })) ∧
     (x.phase = 3 → s.noInsts (s.cryGroups c) = true →
       (s.residueOf c = true → Answers (.harvestSettleEnd c) s
         (((r.flag 0 8 { ctx := some c.val }).setCtx c { (r.flag 0 8 { ctx := some c.val }).ctx c with residue := true }).faultNames 0 8 c)) ∧
       (s.residueOf c = false → r.owesHold c = true →
         Answers (.harvestSettleEnd c) s ((r.setCtx c { r.ctx c with phase := 5, held := true }).holdClock c)) ∧
       (s.residueOf c = false → r.owesHold c = false → r.testHolds c = true →
         Answers (.harvestSettleEnd c) s (r.setCtx c { r.ctx c with phase := 5 })) ∧
       (s.residueOf c = false → r.owesHold c = false → r.testHolds c = false → Answers (.harvestSettleEnd c) s (r.release c))) ∧
     (x.phase = 5 → x.held = false → s.testHolds c = false → Answers (.harvestHoldEnd c) s (s.release c)) ∧
     (x.held = true ∨ s.testHolds c = true → Answers (.harvestHoldEnd c) s s) ∧
     (1 ≤ x.phase → x.timedOut = false →
       Answers (.harvestTimeout c) s ((s.setCtx c { x with timedOut := true }).flag 0 7 { ctx := some c.val })) ∧
     (x.phase = 0 ∨ x.timedOut = true → Answers (.harvestTimeout c) s s)) ∧
  (∀ (s : State) (c : Nat),
     let x := s.ctx c
     let r := s.release c
     (r.ctx c).harvest = (x.harvest + 1) % 2 ^ 32 ∧ (r.ctx c).phase = 0 ∧ (r.ctx c).stepFailed = false ∧ (r.ctx c).gen = x.gen ∧
     (∀ t ∈ tilesOf x.tiles, (s.tile t).spn = 4 → (r.tile t).spn = 1 ∧ (r.tile t).pc = 0 ∧ (r.tile t).loops = [] ∧ ∀ k, r.tally t k = {}) ∧
     (∀ t, t ∉ tilesOf x.tiles → r.tile t = s.tile t) ∧ (∀ d, d ≠ c → r.ctx d = s.ctx d) ∧ r.mem = s.mem ∧ r.ports = s.ports)

/-! ## Power, clocks and pins (R307, R311 to R326, R389 to R392) -/

/-- Votes (R311, R313, Table 14-5): a slot reads as it was last written and the other slots as before; a domain other than 0 resolves to the highest vote that its
eight slots hold, and never above the state of its parent is asked of it; PWR_VOTE_CTRL by a writer who may not write the slot, of domain 0 or of an index above 83 writes
nothing and reports CFG_REFUSED, detector 7; any other writes its slot of the one domain, or of every domain but 0. -/
def Obligations.VotesResolve : Prop :=
  (∀ (x : Dom) (k v : Nat), v < 4 → (x.setVote k v).vote k = v ∧ ∀ j, j ≠ k → (x.setVote k v).vote j = x.vote j) ∧
  (∀ (s : State) (d : Nat), (s.target d).rank ≤ (s.resolved d).rank ∧ (∀ p, domParent d = some p → (s.target d).rank ≤ (s.dom p).st.lvl.rank) ∧
    (d ≠ 0 → (s.resolved d = .on ↔ ∃ k, k < 8 ∧ (s.dom d).vote k = 3) ∧
      (s.resolved d = .off ↔ ∀ k, k < 8 → (s.dom d).vote k < 2))) ∧
  (∀ (s : State) (src : Src) (v : W64), s.alive = true →
    let d := v.fld 0 7
    let all := v.bit 24
    ((s.mayVote src (v.fld 16 3) = false ∨ all = false ∧ (d = 0 ∨ 83 < d)) → Answers (.pwrVoteCtrl src v) s (s.flag 2 7)) ∧
    (s.mayVote src (v.fld 16 3) = true → all = false → 1 ≤ d → d ≤ 83 →
      Answers (.pwrVoteCtrl src v) s ((s.voteOne (v.fld 16 3) (v.fld 8 2) d).settlePower (v.fld 16 3))) ∧
    (s.mayVote src (v.fld 16 3) = true → all = true →
      Answers (.pwrVoteCtrl src v) s (s.vote (v.fld 16 3) (v.fld 8 2) ((List.range 84).drop 1))))

/-- The transitions of a domain (R317, R318, R325, Table 14-6, Table 14-7): an entry that was not stopped ends in its target, a stopped one in the state it left; a ramp
starts when R318 lets it and no lower domain waits too, and ends in its target; rails that fail, or a converter that fails, take the domain to OFF, report
detector 0 or 1, and step 2 of the ladder follows.

An entry whose domain has its resolved state raised before c + 12 is aborted and counted; from c + 12 on it is not, and a power cycle of the ladder is never aborted
(R314, R317). -/
def Obligations.DomainTransitions : Prop :=
  (∀ (s : State) (d : Fin 84) (frm dest : Lvl) (c : Nat), s.alive = true →
     let x := s.dom d
     let off := fun det : Nat => (((s.faultNames 2 det d).flag 2 det).dropOff d).wantStep (domBlk d) 2
     (x.st = .entering frm dest c false →
       (dest = .ret → Answers (.domainEntryComplete d) s ((s.arrive d .ret .reachedRet).settlePower 0)) ∧
       (dest ≠ .ret → Answers (.domainEntryComplete d) s ((s.arrive d .off .reachedOff).settlePower 0)) ∧
       Answers (.domainAbortReturn d) s s) ∧
     (x.st = .entering frm dest c true →
       (frm = .on → Answers (.domainAbortReturn d) s ((s.arrive d .on .returned).settlePower 0)) ∧
       (frm ≠ .on → Answers (.domainAbortReturn d) s ((s.arrive d .ret .reachedRet).settlePower 0)) ∧
       Answers (.domainEntryComplete d) s s) ∧
     (s.mayRamp d = true → (∀ e, e < d.val → s.mayRamp e = false) →
       Answers (.domainRampStart d) s { s.setDom d { x with st := .ramping x.st.lvl (s.resolved d) } with lastRamp := some s.cclk }) ∧
     (s.mayRamp d = false ∨ (∃ e, e < d.val ∧ s.mayRamp e = true) → Answers (.domainRampStart d) s s) ∧
     (x.st = .ramping frm dest →
       (dest ≠ .on → s.domOn d = false → ((s.arrive d .ret .reachedRet).settlePower 0).domOn d = false →
         Answers (.domainOn d true) s ((s.arrive d .ret .reachedRet).settlePower 0)) ∧
       (dest = .on → ∀ ok : Bool,
         let w := s.arrive d .on (if frm = .off then .onFromOff else .onFromRet)
         let r := (w.capture { kind := 4, code := 5, blk := 2, inst := d, sev := 0, detail := w.pwrDom d, live := false }).settlePower 0
         (∀ b ∈ domBlks d, ∀ n, (r.blk b).step ≠ .cycle n) → Answers (.domainOn d ok) s r) ∧
       Answers (.rampFail d) s (off 0)) ∧
     (d.val ≠ 0 → x.st = .on → Answers (.converterFault d) s (off 1)) ∧
     ((d.val = 0 ∨ s.domOn d = false) → Answers (.converterFault d) s s)) ∧
  (∀ (s : State) (slot d : Nat) (frm dest : Lvl) (c : Nat), (s.dom d).st = .entering frm dest c false →
     let r := s.settleDom slot d
     (frm.rank ≤ (s.target d).rank → s.cclk < c + 12 → s.cycling d = false →
       (r.dom d).st = .entering frm dest c true ∧ (r.dom d).lastSlot = slot ∧ (r.dom d).lastAbort = true ∧ (r.dom d).votes = (s.dom d).votes ∧
       (r.rg (blkR 2 (0x1400 + 8 * d))).fld 32 32 = min (2 ^ 32 - 1) ((s.rg (blkR 2 (0x1400 + 8 * d))).fld 32 32 + 1) ∧
       (r.rg (blkR 2 (0x1400 + 8 * d))).fld 0 32 = (s.rg (blkR 2 (0x1400 + 8 * d))).fld 0 32) ∧
     (((s.target d).rank < frm.rank ∨ c + 12 ≤ s.cclk ∨ s.cycling d = true) → r = s))

/-- The power block reads the hottest of the die junction sensors (R323): 100 °C reports TEMP_WARN, detector 5, and sets THERM_ALERT_N and temp_warn, both cleared below
95 °C; 105 °C reports TEMP_CRIT, detector 6. -/
def Obligations.TemperatureLimits : Prop :=
  ∀ (s : State) (sensor temp : Byte), s.alive = true →
    let read := s.setRg (blkR 2 0x070) (put 8 sensor.toNat ||| put 0 temp.toNat)
    let warm := fun (s : State) (w : Bool) => { s with pins := { s.pins with tempWarn := w } }
    (100 ≤ temp.toNat → s.pins.tempWarn = false → Answers (.tempWarn sensor temp) s ((warm read true).flag 2 5)) ∧
    ((temp.toNat < 100 ∨ s.pins.tempWarn = true) → Answers (.tempWarn sensor temp) s read) ∧
    (temp.toNat < 95 → Answers (.tempClear sensor temp) s (warm read false)) ∧
    (95 ≤ temp.toNat → Answers (.tempClear sensor temp) s read) ∧
    (105 ≤ temp.toNat → s.pins.tempWarn = false → Answers (.tempCrit sensor temp) s (((warm read true).flag 2 5).flag 2 6)) ∧
    (105 ≤ temp.toNat → s.pins.tempWarn = true → Answers (.tempCrit sensor temp) s (read.flag 2 6)) ∧
    detBase 2 5 = 1 ∧ detBase 2 6 = 4

/-- WAKE_PIN, PWR_WAKE_SW_WRITE, I3C_IBI and POWER_CAP_INTERVAL (R319, R322, R325, R377): the level wakes are held by their pin and register; an in-band interrupt wakes its
domains and Osaux answers the registers asked for; an interval sets the duty of R322 for the runs of 64 ACLK cycles
that follow, records what it measured, and reports OVER_POWER above 2,800 W.

Supply, REFCLK and the PLLs (R307, R326, Table 14-14): each loss reports its detector and has its effect, a PLL that is not locked cannot lose lock, and the losses of S4
take the device down by their severity. -/
def Obligations.WakesSupplyAndClocks : Prop :=
  (∀ (s : State) (low : Bool) (v : W64) (regs : List Nat) (p volts amps : Fin 65536), s.alive = true → s.uninjected = true →
     Answers (.wakePin low) s { s with pins := { s.pins with wakeLow := low } } ∧
     Answers (.pwrWakeSwWrite v) s (s.setRg (blkR 2 0x078) (v &&& 1)) ∧
     (s.dev.osaux = false → Answers (.i3cIbi regs) s (s.wake 3 ((s.wakeMask 3).filter fun d => !s.edgeLost d))) ∧
     (s.dev.osaux = true → s.wakeMask 3 = [] →
       Answers (.i3cIbi regs) s (regs.foldl (fun s r => s.emit (.i3c r (s.readReg r).toNat)) s.bmcSeen)) ∧
     (let cfg := s.rg (blkR 2 0x050)
      let cap := if cfg.fld 0 16 = 0 then 0 else max 1000 (cfg.fld 0 16)
      let duty := nextDuty s.pins.dutySet (cfg.fld 24 8) p cap (4 * cfg.fld 16 8) (s.pins.tempWarn || s.pins.warnInj)
      let pins := { s.pins with duty := s.dutyAt (3 * s.cclk), dutySet := duty, dutyRun := 3 * s.cclk / 64, warnInj := false }
      let r := (({ s with pins := pins }.setRg (blkR 2 0x060) (put 32 p ||| put 16 amps ||| put 0 volts))).peak (blkR 2 0x068) p
      Answers (.powerCapInterval p volts amps) s (if 2800 < p.val then r.flag 2 4 else r))) ∧
  (∀ (s : State) (c : Fin 2), s.alive = true →
     let lost := fun i : Nat => (({ s with pins := { s.pins with pll := s.pins.pll - 2 ^ i } }.sat (blkR 1 0x048) 0 32 1).setRg (blkR 1 0x050)
       (putBit 63 true ||| put 0 i))
     Answers .inUndervolt s (s.flag 2 2) ∧ Answers .inOvervolt s (s.flag 2 3) ∧
     (s.pins.refclk = true → Answers .refclkLoss s ({ s with pins := { s.pins with refclk := false } }.flag 1 0)) ∧
     (s.pins.refclk = false → Answers .refclkLoss s s) ∧
     (bitOf s.pins.pll 0 = true → Answers .rootUnlock s ((lost 0).flag 1 1)) ∧
     (bitOf s.pins.pll 1 = true → Answers .hclkUnlock s
       ((List.range 8).foldl (fun s n => s.modHbm n fun x => { x with trained := false }) ((lost 1).flag 1 2))) ∧
     (bitOf s.pins.pll (14 + c) = true → Answers (.cxlPllUnlock c) s (((lost (14 + c)).flag 1 3).cxlLoss c 3)) ∧
     (bitOf s.pins.pll 16 = true → ((lost 16).flag 1 4).hostUp = true →
       Answers .pciePllUnlock s (((lost 16).flag 1 4).hostDown.flag 8 2)) ∧
     (bitOf s.pins.pll 16 = true → ((lost 16).flag 1 4).hostUp = false → Answers .pciePllUnlock s ((lost 16).flag 1 4)) ∧
     (∀ ij ∈ [(0, Instr.rootUnlock), (1, .hclkUnlock), (14 + c.val, .cxlPllUnlock c), (16, .pciePllUnlock)],
       bitOf s.pins.pll ij.1 = false → Answers ij.2 s s) ∧
     detBase 2 2 = 4 ∧ detBase 2 3 = 4 ∧ detBase 1 0 = 4 ∧ detBase 1 1 = 4)

/-- The pins (R389 to R392): PWR_EN and the rails take every domain off with memory and every register gone; PWR_GOOD follows PWR_EN and not the rails; SYS_RESET_N low
resets everything but the board's position; its rise samples RACK_POS, locks the PLLs and starts the ROM; PERST_N ends the host link and resets the MSI-X table. -/
def Obligations.PinsPowerAndReset : Prop :=
  ∀ (s : State) (rack : Fin 64) (fuseOk : Bool),
    let off : Pins → State := fun p => { s.bare with pins := p }
    let locked : Hst → State := fun h =>
      { s with cclk := 0, pins := { s.pins with rst := 2, rack := rack, refclk := true, pll := 0x1FFFF }, hst := h }
    (s.pins.pwrEn = true →
      exec .pwrEnFall s = .next (off { pwrEn := false, pwrGood := false, rst := 0, rack := s.pins.rack })) ∧
    (s.pins.pwrEn = false → exec .pwrEnRise s = .next (off { pwrEn := true, pwrGood := true, rst := 0, rack := s.pins.rack })) ∧
    (s.pins.pwrEn = true → s.pins.pwrGood = true →
      exec .mgmtRailFail s = .next (off { pwrEn := true, pwrGood := false, railFailed := true, rst := 0, rack := s.pins.rack })) ∧
    (s.pins.pwrGood = true → exec .sysResetAssert s = .next (off { rst := 0, rack := s.pins.rack })) ∧
    (s.pins.pwrGood = false → exec .sysResetAssert s = .next s ∧ exec (.sysResetDeassert rack fuseOk) s = .next s) ∧
    (s.pins.pwrGood = true → s.pins.rst ≠ 2 → ∀ t, (locked { s.hst with keys := s.hst.keyFlash }).romRun fuseOk = t →
      t.alive = true → Answers (.sysResetDeassert rack fuseOk) s t) ∧
    (s.alive = true → s.perst.alive = true ∧ Answers .perstAssert s s.perst ∧
      (∀ o, o ≠ blkR 8 0x048 → o < blkR 8 0x100000 ∨ blkR 8 0x100000 + 0x3000 ≤ o → s.perst.rg o = s.rg o) ∧
      s.perst.rg (blkR 8 0x048) = 0 ∧ s.perst.pins.perst = true)

/-! ## Recovery and self-test (R335 to R348) -/

/-- HANG, DEV_HEARTBEAT, ENGINE_RESET_DONE, RESET_WINDOW_EXPIRY and DEV_INJECT_ARM_WRITE (R335, R336, R344): a block whose window has passed with work outstanding is
hung, recorded and asks for step 1; step 1 ends with success, which records and counts it, clears what the block held and lets it work again, or with a late or failed
self-check, which starts step 2; the four ports of a group whose PLL has lost lock end theirs together; the heartbeat is block 0's progress; an S4 injection is armed only while quiescent. -/
def Obligations.LadderSteps : Prop :=
  ∀ (s : State) (b : Fin 152) (ok : Bool) (v : W64), s.alive = true →
    let k := s.blk b
    let win := (s.rg (blkR b 0x030)).fld 0 32
    Answers .devHeartbeat s (s.setBlk 0 { s.blk 0 with progress := ((s.blk 0).progress + 1) % 2 ^ 32 }) ∧
    (win ≠ 0 → s.inReset b = false → s.domOn (blkDom b) = true → s.working b = true → k.hung = false →
      (b.val = 0 → Answers (.hang b) s (s.flag 0 11)) ∧
      (b.val ≠ 0 → s.dev.down = false → Answers (.hang b) s
        ((((s.setBlk b { k with hung := true }).capture { kind := 1, code := 0x3F, blk := b, inst := 0, sev := 3, detail := put 0 k.progress, live := true }).wantVec
          b).wantStep b 1))) ∧
    (win = 0 ∨ s.inReset b = true ∨ s.domOn (blkDom b) = false ∨ s.working b = false ∨ k.hung = true → Answers (.hang b) s s) ∧
    (let told := fun (s : State) (b t result : Nat) =>
       (s.setRg (devR 0x160) (resetLast b 1 result (s.cclk - t))).tell (.recoveryReport s.chip b 1 result)
     let good := fun (s : State) (b : Nat) => match (s.blk b).step with
       | .engine t =>
         let w := ((told s b t 1).sat (devR 0x1B8) 0 16 1).mend b
         (w.setBlk b { w.blk b with step := .idle, hung := false, okStep := some (1, w.cclk, s.cclk - t) }).afterReset b
       | _ => s
     let bad := fun (result : Nat) (s : State) (b : Nat) => match (s.blk b).step with
       | .engine t => ((told s b t result).setBlk b { (told s b t result).blk b with step := .idle }).cycleStart b
       | _ => s
     let mates := s.stepMates b
     (∀ p, p < 48 → b.val = portB p →
       mates = if bitOf s.pins.pll (2 + p / 4) then [b.val] else (List.range 4).map fun j => portB (p / 4 * 4 + j)) ∧
     ((∀ p, p < 48 → b.val ≠ portB p) → mates = [b.val]) ∧
     (∀ t, k.step = .engine t →
       Answers (.engineResetDone b true) s (mates.foldl good s) ∧ Answers (.engineResetDone b false) s (mates.foldl (bad 3) s) ∧
       Answers (.resetWindowExpiry b) s (mates.foldl (bad 2) s))) ∧
    (k.step = .idle → Answers (.engineResetDone b ok) s s ∧ Answers (.resetWindowExpiry b) s s) ∧
    (v.bit 0 = true → s.quiescent = false → Answers (.devInjectArmWrite v) s (s.flag 0 12)) ∧
    (v.bit 0 = false ∨ s.quiescent = true → Answers (.devInjectArmWrite v) s (s.setRg (devR 0x190) (v &&& 1)))

/-- ENGINE_RESET_REQ, DOMAIN_CYCLE_REQ, DEVICE_RESET_REQ and the phases of the device reset (R339, R340, Table 15-6): a step by software runs on a block that exists, is at S3
or quiescent, and in no step, and RESET_REFUSED, detector 12, reports any other; a device reset by software is an S4, or ends a hold that only software ends; the phases
follow one another, and the last sends DEVICE_READY and lets the device work.

What the power cycle of the device reset leaves (R340, R341): no byte of memory, no context, no tile, array, port, group, instance or image; the recorder keeps its
entries in a new epoch, and the plan stays where the management cores do not restart. -/
def Obligations.DeviceResetPhases : Prop :=
  (∀ (s : State) (b : Fin 256) (clear : Bool), s.alive = true →
     let may := b.val ≤ 151 ∧ (s.inS3 b = true ∨ s.quiescent = true) ∧ (s.blk b).step = .idle
     let auto := (s.rg (devR 0x150)).bit 32
     let phase := fun n : Nat => { s with dev := { s.dev with phase := n } }
     (may → Answers (.engineResetReq b) s ((s.setBlk b { s.blk b with step := .engine s.cclk }).clearWork b)) ∧
     (may → blkDom b ≠ 0 → Answers (.domainCycleReq b) s
       (((s.setBlk b { s.blk b with step := .cycle s.cclk }).forceOff (blkDom b)).settlePower 0)) ∧
     (¬may → Answers (.engineResetReq b) s (s.flag 0 12) ∧ Answers (.domainCycleReq b) s (s.flag 0 12)) ∧
     (blkDom b = 0 → Answers (.domainCycleReq b) s (s.flag 0 12)) ∧
     (s.dev.down = false → Answers .deviceResetReq s (s.s4 0 0 true)) ∧
     (s.dev.down = true → s.dev.phase = 2 →
       (auto = false → Answers .deviceResetReq s (phase 3) ∧ Answers .deviceResetHoldEnd s s) ∧
       (auto = true → Answers .deviceResetHoldEnd s (phase 3) ∧ Answers .deviceResetReq s s)) ∧
     (s.dev.down = true → s.dev.phase = 3 → Answers (.deviceResetPowerCycle true) s s.deviceCycle ∧ Answers (.deviceResetPowerCycle false) s s) ∧
     (s.dev.down = true → s.dev.phase = 4 → Answers .deviceResetRetrainDone s (phase 5)) ∧
     (s.dev.down = true → s.dev.phase = 5 → s.dev.osaux = true → s.hst.plan = none →
       let dur := s.cclk - s.dev.s4At
       let r := (({ s with dev := { s.dev with down := false, phase := 0, romRestart := false, resets := s.dev.resets + 1 } }.setRg (devR 0x160)
         (resetLast ((s.rg (devR 0x168)).fld 8 8) 3 1 dur)).sat (devR 0x1B8) 32 16 1).note 0 7 0
       Answers .deviceReady s (r.tell (.deviceReady r.chip (r.hst.fw.elim 0 Fw.version) 0 dur))) ∧
     (s.dev.down = false → ∀ i ∈ [Instr.deviceResetHoldEnd, .deviceResetPowerCycle clear, .deviceResetRetrainDone, .deviceReady], Answers i s s)) ∧
  (∀ s : State, s.dev.romRestart = false →
     let r := s.deviceCycle
     r.mem = [] ∧ r.ctxs = [] ∧ r.tiles = [] ∧ r.arrs = [] ∧ r.ports = [] ∧ r.grps = [] ∧ r.insts = [] ∧ r.img = none ∧ r.blks = [] ∧
     r.rcd = { s.rcd with epoch := (s.rcd.epoch + 1) % 256 } ∧ r.hst.plan = s.hst.plan ∧ r.dev.phase = 4 ∧ r.dev.down = s.dev.down)

/-- The self-tests (R346, R347, Table 15-11): a request while one is pending or runs is answered busy; one whose target does not exist or is not ON is answered so; one whose
condition holds runs at once; one tagged to a harvest waits for it where its test may be tagged; the end of a test records its result and reports a failure as detector 10. -/
def Obligations.SelfTestsRun : Prop :=
  ∀ (s : State) (inst : Fin 256) (tag : Bool) (ctx : Fin 64) (pass : Bool) (elem : Byte), s.alive = true → s.uninjected = true →
    let t := s.dev.test
    let asks := fun (n : Nat) => { s with dev := { s.dev with test := { code := n, inst := inst, ctx := ctx } } }
    (∀ ni ∈ [(1, Instr.arrBist inst tag ctx), (2, .cryKat inst tag ctx), (3, .panBist inst tag ctx), (4, .hbmRecal inst tag ctx),
        (5, .vuBist inst tag ctx), (6, .tileMbist inst tag ctx), (7, .creelBist inst tag ctx), (8, .serdesRecal inst tag ctx)],
      (t.state = 1 ∨ t.state = 2 → Answers ni.2 s { s with dev := { s.dev with test := { t with status := 2 } } }) ∧
      (t.state ≠ 1 → t.state ≠ 2 →
        (testBlks ni.1 inst = [] → Answers ni.2 s ((asks ni.1).testEnd 5 0)) ∧
        (∀ b bs, testBlks ni.1 inst = b :: bs →
          (s.domOn (blkDom b) = false → Answers ni.2 s ((asks ni.1).testEnd 5 0)) ∧
          (s.domOn (blkDom b) = true → s.testNow ni.1 (blkDom b) = true → Answers ni.2 s (asks ni.1).testBegin) ∧
          (s.domOn (blkDom b) = true → s.testNow ni.1 (blkDom b) = false → tag = true → testTags ni.1 = true →
            Answers ni.2 s { s with dev := { s.dev with test := { code := ni.1, inst := inst, ctx := ctx, state := 1, tagged := true } } }) ∧
          (s.domOn (blkDom b) = true → s.testNow ni.1 (blkDom b) = false → (tag = false ∨ testTags ni.1 = false) →
            Answers ni.2 s ((asks ni.1).testEnd (if tag then 3 else 2) 0))))) ∧
    (t.state = 2 → t.tagged = false →
      let r := ((testBlks t.code t.inst).foldl (fun s b => s.setBlk b { s.blk b with testing := false }) s).testLeaves t.code t.inst
      (r.uninjected = true → pass = true → Answers (.selftestDone pass elem) s (r.testEnd 0 elem.toNat)) ∧
      (r.uninjected = true → pass = false → Answers (.selftestDone pass elem) s ((r.flag 0 10).testEnd 1 elem.toNat))) ∧
    (t.state ≠ 2 → Answers (.selftestDone pass elem) s s)

/-! ## The recorder, the host port, the mailbox and boot (R345, R351 to R379) -/

/-- REC_LOG_WRITE (R350, R351, R353): it completes in every state; with no event queued nothing is placed; otherwise the oldest queued event takes the sequence number
after the last, from 2^48 − 1 back to 1, and goes into the lowest slot that is free or lost; where none is, over the lowest-numbered entry whose severity is no higher,
counted as overwritten; where there is none, it is dropped and counted.

REC_CURSOR_WRITE (R354, R356): it completes in every state; the cursor takes bits 15 to 3, and the eight slots it names are copied into REC_WINDOW, four words each, as
they stood before the cycle; a corrected slot reports detector 0, and one that is uncorrectable reports detector 1 and reads as a lost entry. -/
def Obligations.RecorderPlacesEvents : Prop :=
  (∀ (s : State), s.alive = true →
     let runs := fun t : State => exec .recLogWrite s = .next t.endCycle ∧ Answers .recLogWrite s t
     (s.rcd.q = [] → runs s) ∧
     (∀ (e : Evt) (q : List Evt), s.rcd.q = e :: q →
       let seq := if s.rcd.head = 2 ^ 48 - 1 then 1 else s.rcd.head + 1
       let r := { s.rcd with q := q, head := seq }
       let into := fun k : Nat => { s with rcd := { r.keep k with log := s.rcd.log.set k (.entry seq e) } }
       let ends := fun s : State => (s.notify e seq).autoAck e
       (∀ k, freeSlot s.rcd.log 0 = some k →
         (Table.rising s.rcd.log = true → (∀ x ∈ s.rcd.log, x.1 < 65536) →
           k < 65536 ∧ (∀ n x, s.rcd.log.find k ≠ some (.entry n x)) ∧ ∀ j, j < k → ∃ n x, s.rcd.log.find j = some (.entry n x)) ∧
         runs (ends (into k))) ∧
       (∀ k n v, freeSlot s.rcd.log 0 = none → victim s.rcd.log e.sev = some (k, n, v) →
         runs (ends ((into k).wrap (blkR 7 (0x0C0 + 8 * v)) 48 1))) ∧
       (freeSlot s.rcd.log 0 = none → victim s.rcd.log e.sev = none →
         runs (ends ({ s with rcd := r }.sat (blkR 7 (0x080 + 8 * e.sev)) 0 32 1))))) ∧
  (∀ (s : State) (v : W64) (ce ue : Option (Fin 8)), s.alive = true → s.uninjected = true →
     let k := v.fld 3 13
     let c := s.setRg (blkR 7 0x048) (v &&& 0xFFF8)
     let c1 := if ce.isSome then c.flag 7 0 else c
     let c2 := match ue with
       | some j => (c1.flag 7 1).loseSlot (8 * k + j)
       | none => c1
     exec (.recCursorWrite v ce ue) s = .next (c2.latch k).endCycle ∧ Answers (.recCursorWrite v ce ue) s (c2.latch k) ∧
     (∀ (u : State) i w, i < 8 → w < 4 → (u.latch k).rg (blkR 7 (0x100 + 32 * i + 8 * w)) = (slotWords (u.rcd.before (8 * k + i))).getD w 0))

/-- The mailbox commands (R158, R367, R368, R370 to R376, Table 17-5, Table 17-6): each acts while the mailbox is BUSY with its code and Osaux runs, and then leaves DONE with
its result: a command that needs quiescence answers NOT_QUIESCENT (2) outside it; what must be authorised is verified under the enrolled keys; the keys, the firmware minimum,
the lane table, the plan and debug change only with OK (0). Where the payloads hold their fields is the model's own choice (log entry 18). -/
def Obligations.MailboxCommandsAnswer : Prop :=
  ∀ (s : State) (nonce : BitVec 32) (m : QuilanAct), s.alive = true →
    let op := fun s : State => if s.secOk then s.secOp else s
    let svn := u (s.mbPayload 2) 0 2
    let rep := s.report (s.mbPayload 32)
    let key := s.mbPayload 97
    let id := u (s.mbPayload 8) 0 8
    let secs := u (s.mbPayload 4) 0 4
    let signed := fun n : Nat => s.secOk && s.signedByAny (s.mbSigned n) (s.mbSig n)
    let token := s.secOk && s.signedByAny (s.tokenMsg secs) (s.mbSig 4)
    (∀ ci ∈ [(1, Instr.planInstall), (2, .ownerEnrol), (3, .ownerRemove), (4, .attest), (5, .getCert), (6, .fwFlash),
        (7, .svnAdvance), (8, .laneTable), (9, .quilanMsg m), (10, .debugEnable nonce), (11, .debugDisable)],
      (s.mbBusy ci.1 = false → Answers ci.2 s s) ∧
      (ci.1 ∈ [1, 2, 3, 6, 7] → s.mbBusy ci.1 = true → s.quiescent = false → Answers ci.2 s (s.mbDone 2))) ∧
    (s.mbBusy 2 = true → s.quiescent = true →
      ((ecPoint key).isNone = true → Answers .ownerEnrol s (s.mbDone 4)) ∧
      ((ecPoint key).isNone = false → s.noKeys = true → Answers .ownerEnrol s ((s.setKey 0 key).mbDone 0)) ∧
      ((ecPoint key).isNone = false → s.noKeys = false → signed 97 = false → Answers .ownerEnrol s ((op s).mbDone 3)) ∧
      ((ecPoint key).isNone = false → s.noKeys = false → signed 97 = true →
        (∀ k, s.freeKeySlot = some k → Answers .ownerEnrol s ((s.secOp.setKey k key).mbDone 0)) ∧
        (s.freeKeySlot = none → Answers .ownerEnrol s (s.secOp.mbDone 5)))) ∧
    (s.mbBusy 3 = true → s.quiescent = true →
      (s.keySlot id = none → Answers .ownerRemove s (s.mbDone 10)) ∧
      (∀ k, s.keySlot id = some k → signed 8 = true →
        (s.inForce.isSome = true → s.imgKey = id → Answers .ownerRemove s (s.secOp.mbDone 6)) ∧
        (s.inForce = none ∨ s.imgKey ≠ id → Answers .ownerRemove s ((s.secOp.setKey k []).mbDone 0))) ∧
      (∀ k, s.keySlot id = some k → signed 8 = false → Answers .ownerRemove s ((op s).mbDone 3))) ∧
    (s.mbBusy 4 = true →
      (s.ld.state = 3 → Answers .attest s (s.mbDone 1)) ∧
      (s.ld.state ≠ 3 → s.secOk = true → Answers .attest s (s.secOp.mbDone 0 (rep ++ (Config.idSign rep ++ List.replicate 96 0).take 96))) ∧
      (s.ld.state ≠ 3 → s.secOk = false → Answers .attest s (s.mbDone 3))) ∧
    (s.mbBusy 5 = true → Answers .getCert s (s.mbDone 0 s.hst.flash.cert)) ∧
    (s.mbBusy 7 = true → s.quiescent = true →
      (s.hst.fw.elim 0 Fw.svn < svn → Answers .svnAdvance s (s.mbDone 8)) ∧
      (svn ≤ s.hst.fw.elim 0 Fw.svn → Answers .svnAdvance s ({ s with hst := { s.hst with svnMin := max s.hst.svnMin svn } }.mbDone 0))) ∧
    (s.mbBusy 9 = true → Answers (.quilanMsg m) s ((s.quilanAct m).mbDone 0)) ∧
    (s.mbBusy 10 = true →
      (s.noKeys = true → Answers (.debugEnable nonce) s (s.mbDone 10)) ∧
      (s.noKeys = false → token = false → Answers (.debugEnable nonce) s ((op s).mbDone 3)) ∧
      (s.noKeys = false → token = true → ∃ n, n ≠ s.hst.nonce ∧ (nonce.toNat ≠ s.hst.nonce → n = nonce.toNat) ∧
        Answers (.debugEnable nonce) s ({ s.secOp with hst := { s.secOp.hst with debug := true, debugSecs := secs, nonce := n } }.mbDone 0))) ∧
    (s.mbBusy 11 = true → Answers .debugDisable s (s.debugOff.mbDone 0)) ∧
    (s.mbBusy s.mbCode = true → (s.mbCode = 0 ∨ 11 < s.mbCode) → Answers .unknownCommand s (s.mbDone 7)) ∧
    (s.mbBusy s.mbCode = false ∨ 1 ≤ s.mbCode ∧ s.mbCode ≤ 11 → Answers .unknownCommand s s)

/-- The commands that read a staged object (R158, R367, R368, R370, R374): a length that does not fit is BAD_FORMAT (4), an object that cannot be read is MEMORY (11), a firmware
image takes the checks of R367 and a plan those of R374 in their order, its signature under the owner key that it names, and what passes them all is installed with OK.

The checks of a firmware image, in order (R367): an empty or erased image, a wrong magic, a length that does not fit, a signer that is not a key of the part, a signature
that fails, and a security version below the minimum are refused with 1, 2, 6, 3, 4 and 5, the first that applies, and any other image is accepted. -/
def Obligations.StagedObjectsAreChecked : Prop :=
  (∀ (s r : State) (bs : List Byte), s.alive = true →
     let len := s.mbLength
     let plan := planOf bs
     (s.mbBusy 1 = true → s.quiescent = true →
       (len ≠ 552 → Answers .planInstall s (s.mbDone 4)) ∧
       (len = 552 → s.mbStaged = (none, r) → Answers .planInstall s (r.mbDone 11)) ∧
       (len = 552 → s.mbStaged = (some bs, r) → planForm bs = false → Answers .planInstall s (r.mbDone 4)) ∧
       (len = 552 → s.mbStaged = (some bs, r) → planForm bs = true → r.inForce = none →
         ((r.keySlot plan.key).isNone = true → Answers .planInstall s (r.mbDone 10)) ∧
         ((r.keySlot plan.key).isNone = false → r.secOk = false → Answers .planInstall s (r.mbDone 3)) ∧
         ((r.keySlot plan.key).isNone = false → r.secOk = true → r.signedBy plan.key (bs.take 0x1C8) (slice bs 0x1C8 96) = false →
           Answers .planInstall s (r.secOp.mbDone 3)) ∧
         ((r.keySlot plan.key).isNone = false → r.secOk = true → r.signedBy plan.key (bs.take 0x1C8) (slice bs 0x1C8 96) = true →
           Answers .planInstall s (({ r.secOp with hst := { r.secOp.hst with plan := some plan } }.plansPorts).mbDone 0)))) ∧
     (s.mbBusy 6 = true → s.quiescent = true →
       (6291456 < len → Answers .fwFlash s (s.mbDone 4)) ∧
       (len ≤ 6291456 → s.mbStaged = (none, r) → Answers .fwFlash s (r.mbDone 11)) ∧
       (len ≤ 6291456 → s.mbStaged = (some bs, r) →
         (fwCheck bs bs.length r.svnMin r.hst.fwKey r.secOk = 0 → Answers .fwFlash s
           ({ r.secOp with hst := { r.secOp.hst with flash := { r.secOp.hst.flash with fw := bs } } }.mbDone 0)) ∧
         (∀ n, fwCheck bs bs.length r.svnMin r.hst.fwKey r.secOk = n + 1 →
           Answers .fwFlash s ((r.fwRefused true).mbDone (fwResult (n + 1)))))) ∧
     (s.mbBusy 8 = true →
       (524288 < len → Answers .laneTable s (s.mbDone 4)) ∧
       (len ≤ 524288 → s.mbStaged = (none, r) → Answers .laneTable s (r.mbDone 11)) ∧
       (len ≤ 524288 → s.mbStaged = (some bs, r) →
         (laneTableOk bs = true → Answers .laneTable s ({ r with hst := { r.hst with lane := bs } }.mbDone 0)) ∧
         (laneTableOk bs = false → Answers .laneTable s (r.mbDone 4))))) ∧
  (∀ (img : List Byte) (staged svn : Nat) (keyHash : List Byte) (able : Bool),
     let len := u img 8 4
     let bad := len < 512 ∨ 6291456 < len ∨ len ≠ staged
     let key := sha384 (slice img 0x20 97)
     let signed := (able && ecdsaOk (slice img 0x20 97) (sha384 (img.take (len - 96))) (slice img (len - 96) 96)) = true
     let r := fwCheck img staged svn keyHash able
     (r = 0 ↔ img.take 8 = fwMagic ∧ ¬bad ∧ key = keyHash ∧ signed ∧ svn ≤ u img 0x18 2) ∧
     (r = 6 ↔ img.take 8 = fwMagic ∧ bad) ∧ (r = 3 ↔ img.take 8 = fwMagic ∧ ¬bad ∧ key ≠ keyHash) ∧
     (r = 4 ↔ img.take 8 = fwMagic ∧ ¬bad ∧ key = keyHash ∧ ¬signed) ∧
     (r = 5 ↔ img.take 8 = fwMagic ∧ ¬bad ∧ key = keyHash ∧ signed ∧ u img 0x18 2 < svn) ∧
     (r = 1 ∨ r = 2 ↔ img.take 8 ≠ fwMagic))

/-- Boot, debug and the host's links (R345, R366, R370, R375, R378, R379, R392): the ROM verifies what it read or what the host staged, starts it, or waits for the host; a reboot
needs quiescence; a link that goes down reports and fails what it carried; an acknowledged message lets the next be placed; telemetry goes out in five writes. -/
def Obligations.BootDebugAndLinks : Prop :=
  ∀ (s : State) (t : Fin 8) (width : Fin 8) (rate : Fin 16), s.alive = true → s.uninjected = true →
    let len := (s.rg (blkR 8 0x070)).fld 0 23
    let img := s.staged (min len 6291456)
    let fl := s.hst.flash.fw
    let v := s.bootState 1
    let x := (s.stagingWrite 0 fl).bootState 1
    (s.hst.boot = 2 →
      (fwCheck img len v.svnMin v.hst.fwKey true = 0 → Answers .bootGo s (v.osauxStart img true)) ∧
      (∀ n, fwCheck img len v.svnMin v.hst.fwKey true = n + 1 → Answers .bootGo s ((v.fwReject (n + 1) true).bootState 2))) ∧
    (s.hst.boot ≠ 2 → Answers .bootGo s s) ∧
    (s.hst.boot = 0 → s.dev.osaux = false → (s.rg (blkR 8 0x068)).bit 0 = false →
      (fwCheck fl (u fl 8 4) x.svnMin x.hst.fwKey true = 0 → Answers .romFlashReadDone s (x.osauxStart fl false)) ∧
      (∀ n, fwCheck fl (u fl 8 4) x.svnMin x.hst.fwKey true = n + 1 → Answers .romFlashReadDone s ((x.fwReject (n + 1) false).bootState 2))) ∧
    (s.quiescent = false → Answers .bootReboot s s) ∧
    (s.quiescent = true → s.ld.state ≠ 4 → s.dropImage.ld.state ≠ 4 →
      Answers .bootReboot s ({ s.dropImage with hst := { s.dropImage.hst with plan := none } }.romRun true)) ∧
    (s.hst.debug = true → Answers .debugExpiry s s.debugOff) ∧ (s.hst.debug = false → Answers .debugExpiry s s) ∧
    (s.hst.mbPlaced = true → Answers .mbOutAck s ({ s with hst := { s.hst with mbPlaced := false } }.placeOut)) ∧
    (s.hst.mbPlaced = false → Answers .mbOutAck s s) ∧
    (s.hostUp = true → Answers .pcieLinkDown s (s.hostDown.flag 8 2)) ∧ (s.hostUp = false → Answers .pcieLinkDown s s) ∧
    (width ∈ [1, 2, 4] → 1 ≤ rate.val → rate.val ≤ 7 → Answers (.pcieLinkUp width rate) s
      (({ s with pins := { s.pins with perst := false } }.setRg (blkR 8 0x048) (put 8 1 ||| put 4 width ||| put 0 rate)).pllLock 16)) ∧
    (width ∉ [1, 2, 4] ∨ rate.val = 0 ∨ 7 < rate.val → Answers (.pcieLinkUp width rate) s s) ∧
    ((s.tile t).linkUp = true → s.domOn (20 + t) = true →
      Answers (.pkgLinkDown t) s ((s.modTile t fun x => { x with linkUp := false }).flag (tileBlk t) 5)) ∧
    ((s.tile t).linkUp = false → Answers (.pkgLinkDown t) s s) ∧
    (s.up 9 = true → Answers .keyParity s (s.flag 9 1)) ∧
    (s.dev.osaux = false → ∀ acked, Answers (.i3cTelemetry acked) s s) ∧
    (s.dev.osaux = true →
      let w := s.rg (blkR 2 0x060)
      let r := [(0x79, s.statusWord), (0x88, linear11 (w.fld 0 16) 100), (0x89, linear11 (w.fld 16 16) 10),
        (0x8D, linear11 ((s.rg (blkR 2 0x070)).fld 0 8) 1), (0x97, linear11 (w.fld 32 16) 1)].foldl
        (fun s (x : Nat × Nat) => s.emit (.i3c x.1 x.2)) s
      Answers (.i3cTelemetry true) s r.bmcSeen ∧
      Answers (.i3cTelemetry false) s (r.setRg (blkR 8 0x0B0)
        (BitVec.ofNat 64 ((r.rg (blkR 8 0x0B0)).toNat - (r.rg (blkR 8 0x0B0)).toNat % 65536 + wrapAdd 16 ((r.rg (blkR 8 0x0B0)).toNat % 65536) 5))))

/-- BAR2_ACCESS (R361 to R364): without the host's link nothing happens; a TLP that fails its check is answered so and not performed; before Osaux runs the staging SRAM is
written and read, offsets beyond it read zero; an access of a running device goes to the window. -/
def Obligations.HostWindowAccesses : Prop :=
  ∀ (s : State) (off n : Nat) (bs : List Byte) (ups : Upsets), s.alive = true →
    let x := s.upset ups
    (s.hostReaches = false → ∀ op, Answers (.bar2Access off op ups) s x) ∧
    (∀ r, s.hostReaches = true → x.hostTlp = (false, r) →
      Answers (.bar2Access off (.write bs) ups) s r ∧ Answers (.bar2Access off (.read n) ups) s (r.emit (.bar2 off none))) ∧
    (∀ r, s.hostReaches = true → x.hostTlp = (true, r) →
      (r.hst.boot < 3 → Answers (.bar2Access off (.write bs) ups) s ((r.progress 8).stagingWrite off bs) ∧
        Answers (.bar2Access off (.read n) ups) s ((r.progress 8).emit (.bar2 off (some (r.stagingRead off n))))) ∧
      (3 ≤ r.hst.boot → 0 < n → Answers (.bar2Access off (.read n) ups) s (r.windowAccess off (.read n))) ∧
      (3 ≤ r.hst.boot → bs ≠ [] → Answers (.bar2Access off (.write bs) ups) s (r.windowAccess off (.write bs)))) ∧
    (∀ k (h : k < bs.length), off + k < 0x600000 → (s.stagingWrite off bs).stagingRead (off + k) 1 = [bs[k]]) ∧
    (∀ a, (a < off ∨ off + bs.length ≤ a) → (s.stagingWrite off bs).stagingRead a 1 = s.stagingRead a 1)

/-! ## The block as a whole -/

/-- A step takes the command at the front of the queue and answers what exec answers on the state with the queue's rest; on an empty queue one CCLK cycle passes (the model's
choice, log entry 1); and every command is answered with a next state. -/
def Obligations.StepRunsTheFrontCommand : Prop :=
  (∀ (c : Instr) (s : State) (rest : List Instr), step { s with pending := c :: rest } = exec c { s with pending := rest }) ∧
  (∀ s : State, s.pending = [] → step s = .next s.tick) ∧
  (∀ (c : Instr) (s : State), ∃ t, exec c s = .next t) ∧
  State.reset.pending = []

/-- What reset leaves (R8, R212, R313, R321, R366): V0 holds ON for domains 1 to 5 and 20 to 83 and no other slot holds a vote, every domain but PD_MGMT is OFF, every context
is FREE, no image, plan or firmware is there, the loader is EMPTY, memory lists nothing, and the registers that the spec gives a reset value hold it. -/
def Obligations.ResetLeavesTheDocumentedValues : Prop :=
  let s := State.reset
  ((List.range 84).all fun d => (List.range 8).all fun k =>
    (s.dom d).vote k == if k = 0 ∧ (1 ≤ d ∧ d ≤ 5 ∨ 20 ≤ d) then 3 else 0) = true ∧
  ((List.range 84).all fun d => (s.dom d).st == if d = 0 then .on else .off) = true ∧
  (∀ c, (s.ctx c).st = 0 ∧ (s.ctx c).harvest = 0 ∧ (s.ctx c).gen = 0) ∧ s.img = none ∧ s.hst.plan = none ∧ s.hst.fw = none ∧ s.ld.state = 0 ∧
  s.mem = [] ∧ s.dev.down = false ∧ s.dev.osaux = false ∧ s.hst.boot = 0 ∧ s.hst.mb = 0 ∧ s.chip = 0 ∧
  ∀ x ∈ [(0x40, 0x800096), (0xA0, 20000000), (0x140, 3), (0x148, 0x2625A0000061A80), (0x150, 0x1003D0900), (0x170, 0x200061A80), (0x100, 1), (0x108, 0x10000000),
      (blkR 2 0x48, 6400), (blkR 2 0x50, 0x9C40380C0000), (blkR 3 0x48, 0xC35), (blkR 4 0x68, 0xC3500), (blkR 14 0x50, 40000), (blkR 3 0x1000, 0x4B00)],
    s.rg x.1 = BitVec.ofNat 64 x.2

/-- Every step of a device that acts leaves nothing captured in its cycle: each event has gone to the recorder and each vector has been sent (R328, R350), and a message waits
only while another stands in HST_MB_OUT (R370). -/
def Obligations.EveryStepEmptiesTheCycle : Prop :=
  ∀ (s t : State),
    (s.alive = true → s.newEvts = [] ∧ s.newVecs = [] ∧ (s.hst.mbPlaced = true ∨ s.hst.mbOut = [])) →
    step s = .next t →
    (t.alive = true → t.newEvts = [] ∧ t.newVecs = [] ∧ (t.hst.mbPlaced = true ∨ t.hst.mbOut = []))

/-- The state of reset meets what every step keeps, and its memory has the canonical form. -/
def Obligations.ResetMeetsTheInvariant : Prop :=
  State.reset.newEvts = [] ∧ State.reset.newVecs = [] ∧ State.reset.hst.mbOut = [] ∧ Memory.wf State.reset.mem = true
end

