-- ==== Sys2Proof/Laws/Reach.lean ====
section
/-!
SUPPORT. What a read or a write of memory leaves alone: everything but the memory itself, the registers, the blocks' records, the bobbins and what
a report changes.
-/
namespace Sys2Proof.Machine

/-- `P` does not read what the checks and the reports of an access can change. -/
structure Quiet {β : Type} (P : State → β) : Prop where
  reg : ∀ (s : State) r, P { s with regs := r } = P s
  cyc : ∀ (s : State) c, P { s with cyc := c } = P s
  blk : ∀ (s : State) b, P { s with blks := b } = P s
  bad : ∀ (s : State) b, P { s with bitmapBad := b } = P s
  bob : ∀ (s : State) u, P { s with bobUps := u } = P s
  flag : ∀ (s : State) b d r, P (s.flag b d r) = P s
  wake : ∀ (s : State) n p, P (s.edgeWake n p) = P s

/-- `P` does not read the memory either. -/
structure Spared {β : Type} (P : State → β) : Prop extends Quiet P where
  mem : ∀ (s : State) m u, P { s with mem := m, upsets := u } = P s

variable {β : Type} {P : State → β}

section quiet

variable (h : Quiet P)
include h

theorem Quiet.count (s : State) (o : Nat) (f : W64 → W64) : P (s.count o f) = P s :=
  (h.cyc (s.setRg o _) _).trans (h.reg s _)

theorem Quiet.setRg (s : State) (o : Nat) (v : W64) : P (s.setRg o v) = P s := h.reg s _

theorem Quiet.setBlk (s : State) (b : Nat) (x : Blk) : P (s.setBlk b x) = P s := h.blk s _

theorem Quiet.takeInject (s : State) (b d : Nat) : P (s.takeInject b d).2 = P s := by
  unfold State.takeInject
  split
  · rfl
  · exact h.setBlk _ _ _

theorem Quiet.detect (s : State) (b d : Nat) (r : Bool) (x : Rpt) : P (s.detect b d r x).2 = P s := by
  unfold State.detect
  dsimp only
  split
  · exact (h.flag _ _ _ _).trans (h.takeInject _ _ _)
  · exact h.takeInject _ _ _

theorem Quiet.volume (s : State) (o n : Nat) (w : Bool) : P (s.volume o n w) = P s := State.volume_keeps P h.count h.setBlk s o n w

theorem Quiet.errAddr (s : State) (r : Nat) (c : Bool) (v : Nat) : P (s.errAddr r c v) = P s := by
  unfold State.errAddr
  split
  · rfl
  · exact h.count _ _ _

theorem Quiet.wordUe (s : State) (w : Nat) : P (s.wordUe w) = P s := by
  unfold State.wordUe
  split
  · exact (h.errAddr _ _ _ _).trans (h.count _ _ _)
  · rfl

theorem Quiet.memUe (s : State) (ws : List Nat) (d : Nat) (i : Bool) : P (s.memUe ws d i) = P s := by
  unfold State.memUe
  split
  · rfl
  · split
    · exact (h.flag _ _ _ _).trans (foldl_keep P _ h.wordUe ws s)
    · rfl

theorem Quiet.cxlPoison (s : State) (c o : Nat) (i : Bool) : P (s.cxlPoison c o i) = P s :=
  (h.flag _ _ _ _).trans ((h.setRg _ _ _).trans (h.count _ _ _))

theorem Quiet.cxlTimeout (s : State) (c o : Nat) (i : Bool) : P (s.cxlTimeout c o i) = P s :=
  (h.flag _ _ _ _).trans ((h.setRg _ _ _).trans (h.count _ _ _))

theorem Quiet.cxlRetry (s : State) (c : Nat) (i : Bool) : P (s.cxlRetry c i) = P s :=
  (h.flag _ _ _ _).trans (h.count _ _ _)

theorem Quiet.access (s : State) (w : Who) (o n : Nat) (wr : Bool) : P (s.access w o n wr).2 = P s := by
  unfold State.access
  dsimp only
  split
  · exact (foldl_keep P _ (fun s d => h.wake s _ _) _ _).trans (h.flag _ _ _ _)
  · split
    · rfl
    · split
      · exact h.flag _ _ _ _
      · rfl

theorem Quiet.bobTake (s : State) (k : Nat) : P (s.bobTake k).2.2 = P s := by
  unfold State.bobTake
  dsimp only
  have h1 := h.detect s 6 3 false {}
  generalize s.detect 6 3 false = x at h1 ⊢
  have h2 : P (if x.1 = true then { x.2 with bitmapBad := true } else x.2) = P s := by
    split
    · exact (h.bad _ _).trans h1
    · exact h1
  generalize (if x.1 = true then { x.2 with bitmapBad := true } else x.2) = y at h2 ⊢
  have h3 (z : State) (hz : P z = P y) (o l n : Nat) : P (z.sat o l 32 n) = P s := (h.count z _ _).trans (hz.trans h2)
  split
  · exact h3 _ rfl _ _ _
  · split
    · exact h3 _ rfl _ _ _
    · split
      · exact h3 _ rfl _ _ _
      · show P (State.peak _ _ _) = P s
        exact (h.count _ _ _).trans ((h.bob _ _).trans h2)

theorem Quiet.way (s : State) (t : Option Nat) (w : Who) (o n : Nat) (wr : Bool) : P (s.way t w o n wr).2 = P s := by
  unfold State.way
  have h1 := h.access s w o n wr
  split
  · rename_i r e
    rw [e] at h1
    split
    · exact h1
    · split
      · exact (h.bobTake _ _).trans h1
      · exact h1
  · rename_i e
    rw [e] at h1
    exact h1

end quiet

section spared

variable (h : Spared P)
include h

theorem Spared.calm (s : State) (w : Nat) : P (s.calm w) = P s := h.mem s _ _

theorem Spared.heal (s : State) (w : Nat) : P (s.heal w) = P s := by
  unfold State.heal
  split
  · exact (h.mem (s.calm w) _ _).trans (h.calm s w)
  · exact h.calm s w
  · rfl

theorem Spared.wordCe (s : State) (w : Nat) : P (s.wordCe w) = P s := by
  unfold State.wordCe
  split
  · exact (h.heal _ _).trans ((h.errAddr _ _ _ _).trans (h.count _ _ _))
  · rfl

theorem Spared.memCe (s : State) (ws : List Nat) (i : Bool) : P (s.memCe ws i) = P s := by
  unfold State.memCe
  split
  · rfl
  · split
    · exact (h.flag _ _ _ _).trans (foldl_keep P _ h.wordCe ws s)
    · rfl

theorem Spared.readBlk (s : State) (ws : List Nat) (b : Nat) : P (s.readBlk ws b).2 = P s := by
  unfold State.readBlk
  dsimp only
  split
  · have h1 : P (((s.takeInject b 0).2.takeInject b 1).2.takeInject b 2).2 = P s :=
      (h.takeInject _ _ _).trans ((h.takeInject _ _ _).trans (h.takeInject _ _ _))
    generalize (((s.takeInject b 0).2.takeInject b 1).2.takeInject b 2) = x at h1 ⊢
    have hm : ∀ (o : Option Nat) (i : Bool), P (match o with
        | some w => (x.2.calm w).cxlRetry (b - 14)
        | none => if i = true then x.2.cxlRetry (b - 14) true else x.2) = P s := by
      intro o i
      cases o with
      | some w => exact (h.cxlRetry _ _ _).trans ((h.calm _ _).trans h1)
      | none => dsimp only; split <;> [exact (h.cxlRetry _ _ _).trans h1; exact h1]
    split
    · exact (h.cxlTimeout _ _ _ _).trans ((h.calm _ _).trans (hm _ _))
    · exact (h.cxlPoison _ _ _ _).trans (hm _ _)
    · split
      · exact (h.cxlTimeout _ _ _ _).trans (hm _ _)
      · split
        · exact (h.cxlPoison _ _ _ _).trans (hm _ _)
        · exact hm _ _
  · have h1 : P ((s.takeInject b 1).2.takeInject b 0).2 = P s := (h.takeInject _ _ _).trans (h.takeInject _ _ _)
    generalize ((s.takeInject b 1).2.takeInject b 0) = x at h1 ⊢
    repeat' split
    all_goals first
      | exact (h.memUe _ _ _ _).trans ((h.memCe _ _ _).trans h1)
      | exact (h.memCe _ _ _).trans h1

theorem Spared.load (s : State) (o n : Nat) : P (s.load o n).2 = P s := by
  unfold State.load
  split
  · rfl
  · dsimp only
    exact (foldl_keep (fun x : Nat × State => P x.2) (fun (x : Nat × State) b =>
      let (st, s) := x.2.readBlk (x.2.wordsAt o n b) b
      (firstSt x.1 st, s)) (fun x b => h.readBlk x.2 _ b) ((s.volume o n false).servers o n) (0, s.volume o n false)).trans (h.volume s o n false)

theorem Spared.partBlk (s : State) (all ws : List Nat) (b : Nat) : P (s.partBlk all ws b).2 = P s := by
  unfold State.partBlk
  dsimp only
  split
  · have h1 := h.takeInject s b 2
    generalize s.takeInject b 2 = x at h1 ⊢
    split
    · exact (h.cxlTimeout _ _ _ _).trans ((h.calm _ _).trans h1)
    · exact (h.cxlPoison _ _ _ _).trans h1
    · split
      · exact (h.cxlTimeout _ _ _ _).trans h1
      · exact h1
  · split
    · exact h.memCe _ _ _
    · exact (h.memUe _ _ _ _).trans (h.memCe _ _ _)

theorem Spared.save (s : State) (o : Nat) (bs : List Byte) : P (s.save o bs).2 = P s := by
  unfold State.save
  dsimp only
  split
  · rfl
  · have h1 := (foldl_keep (fun x : Nat × State => P x.2) (fun (x : Nat × State) b =>
      let (st, s) := x.2.partBlk (x.2.wordsAt o bs.length b) ((partWords o bs).filter fun w => (x.2.place_ w).blk == some b) b
      (firstSt x.1 st, s)) (fun x b => h.partBlk x.2 _ _ b) ((s.volume o bs.length true).servers o bs.length)
      (0, s.volume o bs.length true)).trans (h.volume s o bs.length true)
    split
    · exact h1
    · exact (State.wr_keeps P h.mem _ _ _).trans h1

/-- A read of a unit leaves `P` alone. -/
theorem Spared.fetch (s : State) (t : Option Nat) (w : Who) (o n : Nat) : P (s.fetch t w o n).2 = P s := by
  unfold State.fetch
  have h1 := h.way s t w o n false
  split
  · rename_i e; rw [e] at h1; exact (h.load _ _ _).trans h1
  · rename_i e; rw [e] at h1; exact h1

/-- A write of a unit leaves `P` alone. -/
theorem Spared.put_ (s : State) (t : Option Nat) (w : Who) (o : Nat) (bs : List Byte) : P (s.put_ t w o bs).2 = P s := by
  unfold State.put_
  have h1 := h.way s t w o bs.length true
  split
  · rename_i e; rw [e] at h1; exact (h.save _ _ _).trans h1
  · rename_i e; rw [e] at h1; exact h1

end spared

/-- An access of memory leaves the tiles' records alone. -/
theorem Spared.tiles : Spared fun s : State => s.tiles where
  reg _ _ := rfl
  cyc _ _ := rfl
  blk _ _ := rfl
  mem _ _ _ := rfl
  bad _ _ := rfl
  bob _ _ := rfl
  flag _ _ _ _ := by simp
  wake s n p := by
    unfold State.edgeWake State.wake
    dsimp only
    split
    · rfl
    · exact (State.vote_keeps (fun s : State => s.tiles) (fun _ _ _ => rfl) (fun _ _ _ => rfl) (fun _ _ => rfl) _ _ _ _)

/-- An access of memory leaves the contexts' records alone. -/
theorem Spared.ctxs : Spared fun s : State => s.ctxs where
  reg _ _ := rfl
  cyc _ _ := rfl
  blk _ _ := rfl
  mem _ _ _ := rfl
  bad _ _ := rfl
  bob _ _ := rfl
  flag _ _ _ _ := by simp
  wake s n p := by
    unfold State.edgeWake State.wake
    dsimp only
    split
    · rfl
    · exact (State.vote_keeps (fun s : State => s.ctxs) (fun _ _ _ => rfl) (fun _ _ _ => rfl) (fun _ _ => rfl) _ _ _ _)

theorem State.s4_plan (s : State) (b d : Nat) (w : Bool) : (s.s4 b d w).hst.plan = s.hst.plan := by
  unfold State.s4
  split
  · rfl
  · dsimp only; split <;> rfl

theorem State.wantVec_hst (s : State) (v : Nat) : (s.wantVec v).hst = s.hst := by
  unfold State.wantVec; split <;> rfl

/-- A report leaves the plan alone. -/
theorem State.flag_plan (s : State) (b d : Nat) (r : Rpt) : (s.flag b d r).hst.plan = s.hst.plan := by
  unfold State.flag
  extract_lets base evt k outstanding eff s1 s0 s2 s3
  have h3 : s3.hst = s.hst := by
    simp only [s3]
    split
    · rfl
    · exact State.wantVec_hst _ _
  split
  · rfl
  split
  · rfl
  split
  · rfl
  split
  · rw [State.s4_plan, h3]
  split
  · split
    · exact congrArg Hst.plan h3
    · exact congrArg Hst.plan h3
  · exact congrArg Hst.plan h3

/-- An access of memory leaves the plan alone, and with it which addresses are local. -/
theorem Spared.plan : Spared fun s : State => s.hst.plan where
  reg _ _ := rfl
  cyc _ _ := rfl
  blk _ _ := rfl
  mem _ _ _ := rfl
  bad _ _ := rfl
  bob _ _ := rfl
  flag := State.flag_plan
  wake s n p := by
    unfold State.edgeWake State.wake
    dsimp only
    split
    · rfl
    · exact (State.vote_keeps (fun s : State => s.hst.plan) (fun _ _ _ => rfl) (fun _ _ _ => rfl) (fun _ _ => rfl) _ _ _ _)

/-- The checks of an access leave the memory alone. -/
theorem MemSame.way (s : State) (t : Option Nat) (w : Who) (o n : Nat) (wr : Bool) : MemSame s (s.way t w o n wr).2 := by
  have h : Quiet fun s : State => (s.mem, s.upsets, s.undef, s.striped) := {
    reg := fun _ _ => rfl, cyc := fun _ _ => rfl, blk := fun _ _ => rfl, bad := fun _ _ => rfl, bob := fun _ _ => rfl
    flag := fun _ _ _ _ => by simp
    wake := fun s n p => by
      unfold State.edgeWake State.wake
      dsimp only
      split
      · rfl
      · exact (State.vote_keeps (fun s : State => (s.mem, s.upsets, s.undef, s.striped)) (fun _ _ _ => rfl) (fun _ _ _ => rfl) (fun _ _ => rfl) _ _ _ _) }
  have e := h.way s t w o n wr
  simp only [Prod.mk.injEq] at e
  exact ⟨e.1, e.2.1, e.2.2.1, e.2.2.2⟩

/-- A read of a unit that succeeds answers what stands there, and leaves what reads find. -/
theorem State.fetch_reads {s r : State} {t : Option Nat} {w : Who} {o n : Nat} {bs : List Byte}
    (hl : ∀ x, s.upsets.find x ≠ some .late) (h : s.fetch t w o n = ((0, bs), r)) :
    bs = (s.rd o n).getD [] ∧ ReadsSame s r := by
  unfold State.fetch at h
  have hm := MemSame.way s t w o n false
  generalize s.way t w o n false = y at hm h
  obtain ⟨st, s1⟩ := y
  by_cases hs : st = 0
  · subst hs
    replace h : s1.load o n = ((0, bs), r) := h
    have h1 := s1.load_data o n (by rw [h])
    have h2 := s1.load_reads o n (fun x _ => by rw [hm.upsets]; exact hl x)
    rw [h] at h1 h2
    rw [hm.reads.rd] at h1
    exact ⟨h1, hm.reads.trans h2⟩
  · split at h
    · simp_all
    · simp_all

/-- What a write of a unit that succeeds leaves of the rest of memory, and what it stores. -/
theorem State.put_reads {s r : State} {t : Option Nat} {w : Who} {o : Nat} {bs : List Byte}
    (hl : ∀ x, s.upsets.find x ≠ some .late) (h : s.put_ t w o bs = (0, r)) :
    (∀ a, (a < o ∨ o + bs.length ≤ a) → r.byteAt a = s.byteAt a) ∧
    ((∀ x ∈ partWords o bs, s.wordOk x = true) → ∀ i (h : i < bs.length), r.byteAt (o + i) = some bs[i]) := by
  unfold State.put_ at h
  have hm := MemSame.way s t w o bs.length true
  generalize s.way t w o bs.length true = y at hm h
  obtain ⟨st, s1⟩ := y
  by_cases hs : st = 0
  · subst hs
    replace h : s1.save o bs = (0, r) := h
    have h1 := s1.save_reads o bs (fun x _ => by rw [hm.upsets]; exact hl x)
    have hk : s1.memOk o bs.length = true := by
      by_contra hk
      have : (s1.save o bs).1 = 3 := by rw [Bool.not_eq_true] at hk; unfold State.save; simp [hk]
      rw [h] at this
      simp at this
    rw [h] at h1
    refine ⟨fun a ha => (h1.1 a ha).trans (hm.byteAt a), fun hw => h1.2 hk (by simp) fun x hx => ?_⟩
    rw [hm.reads.wordOk]; exact hw x hx
  · split at h
    · simp_all
    · simp_all

theorem isLocal_of_plan {s t : State} (h : t.hst.plan = s.hst.plan) (a : Nat) : t.isLocal a = s.isLocal a := by
  simp only [State.isLocal, State.chip, h]

/-! ## Movers -/

@[simp] theorem State.setMover_mover (s : State) (t m : Nat) (x : Mover) : (s.setMover t m x).mover t m = x := by
  simp [State.mover, State.setMover, State.modTile_tile]

@[simp] theorem State.setMover_setMover (s : State) (t m : Nat) (x y : Mover) : (s.setMover t m x).setMover t m y = s.setMover t m y := by
  simp only [State.setMover, State.modTile, State.setTile, State.tile, Table.set_set, Table.get_set_self]

/-- The running operation changed, in a mover that has one. -/
theorem State.modOp_running (s : State) (t m : Nat) (op : MovOp) (q : List MovOp) (hq : (s.mover t m).q = op :: q) (f : MovOp → MovOp) :
    s.modOp t m f = s.setMover t m { s.mover t m with q := f op :: q } := by
  simp only [State.modOp, hq]

theorem State.fetch_mover (s : State) (u : Option Nat) (w : Who) (o n t m : Nat) : (s.fetch u w o n).2.mover t m = s.mover t m := by
  have := Spared.tiles.fetch s u w o n
  simp only [State.mover, State.tile, this]

@[simp] theorem State.setMover_tileWho (s : State) (t m : Nat) (x : Mover) : (s.setMover t m x).tileWho t = s.tileWho t := by
  simp [State.tileWho, State.setMover, State.modTile_tile]

theorem State.fetch_tileWho (s : State) (u : Option Nat) (w : Who) (o n t : Nat) : (s.fetch u w o n).2.tileWho t = s.tileWho t := by
  have h1 := Spared.tiles.fetch s u w o n
  have h2 := Spared.ctxs.fetch s u w o n
  simp only [State.tileWho, State.tile, State.ctx, h1, h2]

theorem State.put_mover (s : State) (u : Option Nat) (w : Who) (o : Nat) (bs : List Byte) (t m : Nat) :
    (s.put_ u w o bs).2.mover t m = s.mover t m := by
  have := Spared.tiles.put_ s u w o bs
  simp only [State.mover, State.tile, this]

/-! ## A read that meets no error -/

theorem State.volume_uninjected (s : State) (o n : Nat) (w : Bool) (h : s.uninjected = true) : (s.volume o n w).uninjected = true := by
  have hf : ∀ (l : List Nat) (s : State), s.uninjected = true → (l.foldl (State.volume1 w o n) s).uninjected = true := by
    intro l
    induction l with
    | nil => exact fun _ h => h
    | cons g l ih =>
      intro s h
      refine ih _ ?_
      unfold State.volume1
      split <;> first | exact h | exact State.uninjected_progress _ _ h
  exact hf _ s h

theorem State.readBlk_whole (s : State) (ws : List Nat) (b : Nat) (h : s.uninjected = true) (hx : s.upsets = []) (hw : ∀ w ∈ ws, s.wordOk w = true) :
    s.readBlk ws b = (0, s) := by
  have hb : (ws.filter fun w => !s.wordOk w) = [] := by
    rw [List.filter_eq_nil_iff]
    intro w m
    simp [hw w m]
  have hm : (ws.filter fun w => s.wordOk w && (s.upsets.find w).isSome) = [] := by
    rw [List.filter_eq_nil_iff]
    intro w _
    simp [hx, Table.find]
  have hn : ∀ u : Upset, (ws.find? fun w => s.upsets.find w == some u) = none := by
    intro u
    rw [List.find?_eq_none]
    intro w _
    simp [hx, Table.find]
  unfold State.readBlk
  simp only [State.takeInject_uninjected s h, hn, hb, hm]
  split <;> simp [State.memCe]

/-- A read of memory that works, in which no word has changed and every word reads, answers its bytes and does no more than count. -/
theorem State.load_whole (s : State) (o n : Nat) (h : s.uninjected = true) (hx : s.upsets = []) (hm : s.memOk o n = true)
    (hw : ∀ w ∈ wordsOf o n, s.wordOk w = true) : s.load o n = ((0, (s.rd o n).getD []), s.volume o n false) := by
  have hv := MemSame.volume s o n false
  have hu := s.volume_uninjected o n false h
  have hf : ∀ (l : List Nat), l.foldl (fun (x : Nat × State) b =>
      let (st, s) := x.2.readBlk (x.2.wordsAt o n b) b
      (firstSt x.1 st, s)) (0, s.volume o n false) = (0, s.volume o n false) := by
    intro l
    induction l with
    | nil => rfl
    | cons b l ih =>
      rw [List.foldl_cons]
      have e := (s.volume o n false).readBlk_whole ((s.volume o n false).wordsAt o n b) b hu (hv.upsets.trans hx) fun w m => by
        rw [hv.reads.wordOk]
        exact hw w ((s.volume o n false).wordsAt_mem _ _ _ _ m)
      simp only [e]
      exact ih
  unfold State.load
  simp only [hm, hf, hv.reads.rd]
  rfl

/-- The bytes that memory lists from an offset on are what a read of them finds. -/
theorem State.rd_listed (s : State) (hx : s.upsets = []) (bs : List Byte) : ∀ o, (∀ i (h : i < bs.length), Table.find s.mem (o + i) = some bs[i]) →
    s.rd o bs.length = some bs := by
  induction bs with
  | nil => exact fun _ _ => rfl
  | cons b bs ih =>
    intro o h
    have h0 : s.byteAt o = some b := by
      have := h 0 (Nat.succ_pos _)
      simp [State.byteAt, hx, Table.find, State.rawByte] at this ⊢
      simp [this]
    have h1 := ih (o + 1) fun i hi => by
      have := h (i + 1) (Nat.succ_lt_succ hi)
      rw [show o + 1 + i = o + (i + 1) by omega, this]
      rfl
    simp only [List.length_cons, State.rd, h0, h1]

end Sys2Proof.Machine
end

