-- ==== Sys2Proof/Tests/Slice0.lean ====
section
/-!
SUPPORT. Tests: ill-formed commands that the check refuses; one step of some commands against numbers worked out by hand from the spec; and for
every statement with premises a state and operands that meet them together, clause by clause, at the ends of the ranges the clauses share.
-/
open Sys2Proof Sys2Proof.Machine
set_option Elab.async false

namespace Sys2Proof.Tests

/-! ## States for the tests -/

/-- n bytes, zero but for the fields (offset, width, value). -/
def bytes (n : Nat) (fs : List (Nat × Nat × Nat)) : List Byte :=
  fs.foldl (fun bs f => bs.take f.1 ++ leBytes f.2.1 f.2.2 ++ bs.drop (f.1 + f.2.1)) (List.replicate n 0)

/-- A device that runs, with every domain ON. -/
def live : State :=
  { State.reset with
    pins := { State.reset.pins with rst := 2, perst := false, refclk := true, pll := 0x1FFFF }, doms := (List.range 84).map fun d => (d, { st := .on }),
    dev := { osaux := true }, hst := { boot := 3, mb := 1 } }

/-- A structure image of these sections: type, instance, body. -/
def image (secs : List (Nat × Nat × List Byte)) : Image := { secs := secs.map fun x => { typ := x.1, inst := x.2.1, body := x.2.2 } }

/-- live with tile 0 given. -/
def tile0 (x : Tile) : State := { live with tiles := [(0, x)] }

/-- live with array 0 of tile 0 given, its spindle in RUN. -/
def array0 (x : Arr) : State := { live with arrs := [(0, x)], tiles := [(0, { spn := 1 })] }

/-- live with port 0 given. -/
def port0 (x : Port) : State := { live with ports := [(0, x)] }

/-- live with context 0 given. -/
def ctx0 (x : Ctx) : State := { live with ctxs := [(0, x)] }

/-- live with a privileged context 0, and with stack 0 holding bytes that the spec leaves open. -/
def open0 (s : State) : State := { s with ctxs := [(0, { st := 1, priv := true })], undef := [(0, 1)] }
def running (x : Tile) : State := tile0 { x with spn := 1 }
def tallied (x : Tile) : Tile := { x with tallies := [(3, { count := 5 })] }
/-- A plan of the chip at address 0. -/
def aPlan : Plan := { hash := [], chip := 0, machine := 0, key := 0, expect := [] }
def aReq (kind : Nat) : Pkt := { kind := kind, ctx := 0, unit := 0, length := 64, data := if kind = 1 then bytes 64 [] else [] }
def anExpect : Expect := { group := 0, seq := 0, desc := 0, bytes := [], left := 1, tally := 3 }

/-! ## Ill-formed commands -/

theorem test_wf_register_access : Instr.wf (.regWrite .host 0x40 false 0) = true ∧ Instr.wf (.regWrite .host 0x44 false 0) = false ∧
    Instr.wf (.regWrite .host 0x44 true 0) = true ∧ Instr.wf (.regWrite .host bar0Size false 0) = false ∧
    Instr.wf (.rcRead .host 0x42 true) = false ∧ Instr.wf (.rcRead .host 0x3FFFFF8 false) = true := by decide
theorem test_wf_misaligned : Instr.wf (.misalignedAccess .host 0x42 4) = true ∧ Instr.wf (.misalignedAccess .host 0x44 4) = false ∧
    Instr.wf (.misalignedAccess .host 0x40 8) = false ∧ Instr.wf (.misalignedAccess .host 0x40 2) = true := by decide
theorem test_wf_packet_kinds : Instr.wf (.remoteRequestArrival { kind := 2 } []) = false ∧ Instr.wf (.remoteRequestArrival { kind := 1 } []) = true ∧
    Instr.wf (.completionArrival { kind := 1 }) = false ∧ Instr.wf (.completionArrival { kind := 2 }) = true ∧
    Instr.wf (.looseHeadArrival none [] { kind := 5 } .clean []) = false ∧ Instr.wf (.treeHeadArrival none { kind := 1 } .clean) = false ∧
    Instr.wf (.treeHeadArrival none { kind := 5 } .clean) = true ∧ Instr.wf (.creditArrival { kind := 5 }) = false ∧
    Instr.wf (.acceptArrival { kind := 6 }) = true := by decide
theorem test_wf_packet_fields : Pkt.wf { kind := 7 } = false ∧ Pkt.wf { kind := 0, flits := 0 } = false ∧ Pkt.wf { kind := 0, flits := 6 } = false ∧
    Pkt.wf { kind := 0, dst := 16384 } = false ∧ Pkt.wf { kind := 0, ctx := 64 } = false ∧ Pkt.wf { kind := 0, unit := 11 } = false ∧
    Pkt.wf { kind := 0, hops := 65 } = false ∧ Pkt.wf { kind := 0, length := 257 } = false ∧ Pkt.wf { kind := 6, sub := 10 } = false ∧
    Pkt.wf { kind := 0, dst := 16383, ctx := 63, hops := 64, length := 256, flits := 5 } = true := by decide
theorem test_wf_frames_and_chunks : Frame.wf { bytes := bytes 1285 [] } = true ∧ Frame.wf { bytes := bytes 1284 [] } = false ∧
    Frame.wf { bytes := bytes 1285 [], errs := [[543], [0, 0]] } = true ∧ Frame.wf { bytes := bytes 1285 [], errs := [[544]] } = false ∧
    Frame.wf { bytes := bytes 1285 [], errs := [[], [], []] } = false ∧ Instr.wf (.pinnedChunkArrival 0 { data := [] } .clean .clean) = false := by decide +kernel
theorem test_wf_host_accesses : Instr.wf (.bar2Access 0 (.read 0) []) = false ∧ Instr.wf (.bar2Access 0 (.read 4097) []) = false ∧
    Instr.wf (.bar2Access 0xFFFFFFFF (.read 2) []) = false ∧ Instr.wf (.bar2Access 0xFFFFFFFF (.read 1) []) = true ∧
    Instr.wf (.i3cIbi [0x44]) = false := by decide
theorem test_wf_requests : LReq.wf { kind := 2, ctx := 0, address := 0, length := 0 } = false ∧
    LReq.wf { kind := 1, ctx := 0, address := 0, length := 1 } = false ∧
    LReq.wf { kind := 0, ctx := 64, address := 0, length := 0 } = false := by decide

/-- The table gives its rows no bits, so no word spells a command. -/
theorem test_no_word_spells_a_command : decodeTableWord 32 0 = none ∧ State.reset.withFetchWord 32 0 = State.reset := ⟨rfl, rfl⟩

/-! ## Witnesses: the spindle, the arrays, the vector unit and the movers -/


theorem witness_WaitAndTakeFollowTheTally : let s := running (tallied {})
    s.alive = true ∧ s.spnRuns 0 = true ∧ s.uninjected = true ∧ (s.tally 0 3).err = false ∧ 5 ≤ (s.tally 0 3).count ∧ (s.tally 0 3).count < 6 := by decide
theorem witness_WaitAndTakeFollowTheTally_held : ∀ prog : Bool, ∀ duty ∈ [0, 63],
    let s := { tile0 (tallied { spn := 2, ac := 62, hold := some { tally := 3, n := 5, take := true, prog := prog } }) with pins := { live.pins with duty := duty } }
    s.alive = true ∧ s.ok (spnBlk 0) = true ∧ s.uninjected = true ∧ (s.tile 0).spn = 2 ∧ (s.tile 0).hold = some ⟨3, 5, true, prog⟩ ∧
    (s.tally 0 3).err = false ∧ 5 ≤ (s.tally 0 3).count ∧ throttled (s.dutyAt (3 * s.cclk + ((s.tile 0).ac + 1))) 63 = (duty == 63) := by decide
/-- A duty that the controller has set is in force from the next run of 64 cycles on (R322). -/
theorem test_duty_of_the_next_run : let s := { live with pins := { live.pins with duty := 0, dutySet := 63, dutyRun := 0 } }
    s.dutyAt 63 = 0 ∧ s.dutyAt 64 = 63 := by decide
theorem witness_WaitAndTakeFollowTheTally_flagged : let s := running { tallies := [(3, { err := true })] }
    s.alive = true ∧ s.spnRuns 0 = true ∧ s.uninjected = true ∧ (s.tally 0 3).err = true := by decide
theorem witness_SyncCommandsIssue : ∀ n : Fin 3, let s := running { loops := [(7, n)], tallies := [(3, { count := 2 ^ 32 - 2 })] }
    s.alive = true ∧ s.spnRuns 0 = true ∧ s.uninjected = true ∧ (s.tally 0 3).count + 1 < 2 ^ 32 ∧ (s.tile 0).loops = [(7, n.val)] := by decide
theorem witness_BundlesIssueOrWait : ∀ spn ∈ [1, 2], let s := { tile0 { spn := spn } with img := some (image [(1, 0, [])]), pins := { live.pins with duty := 64 } }
    s.alive = true ∧ s.ok (spnBlk 0) = true ∧ s.uninjected = true ∧ (s.tile 0).spn = spn ∧ throttled (s.dutyAt (3 * s.cclk + (s.tile 0).ac)) 0 = true ∧
    throttled (live.dutyAt 0) 0 = false ∧ (s.tile 0).cached = false ∧ (s.tile 0).hold = none := by decide
theorem witness_BundlesIssueOrWait_cached : let s := { running { cache := [(0, 0)] } with img := some (image [(1, 0, [])]) }
    s.alive = true ∧ s.ok (spnBlk 0) = true ∧ s.uninjected = true ∧ (s.tile 0).spn = 1 ∧ (s.tile 0).hold = none ∧
    throttled (s.dutyAt (3 * s.cclk + (s.tile 0).ac)) 0 = false ∧ (s.tile 0).cached = true ∧
    s.prog 0 = some ⟨1, 0, []⟩ ∧ fld (bunSync (progBundle ⟨1, 0, []⟩ 0)) 34 6 ≠ 1 ∧ fld (bunSync (progBundle ⟨1, 0, []⟩ 0)) 34 6 ≠ 2 := by decide
theorem witness_BundlesIssueOrWait_waits : ∀ n ∈ [5, 6], let s := tile0 (tallied { spn := 2, hold := some { tally := 3, n := n, take := false, prog := true } })
    s.alive = true ∧ s.ok (spnBlk 0) = true ∧ s.uninjected = true ∧ (s.tile 0).spn = 2 ∧ throttled (s.dutyAt (3 * s.cclk + (s.tile 0).ac)) 0 = false ∧
    (s.tile 0).hold = some ⟨3, n, false, true⟩ ∧ (s.tally 0 3).err = false ∧ ((s.tally 0 3).count < n ↔ n = 6) := by decide
/-- One line fill, the word of its bundle in the tile store or not. -/
theorem witness_BundlesIssueOrWait_fills : ∀ bad : Bool,
    let s := { tile0 { spn := 3, refill := bad } with mem := if bad then [] else (List.range 64).map fun j => (storeBase 0 + j, 0) }
    let w := (s.fillLine 0).2
    s.alive = true ∧ s.ok (spnBlk 0) = true ∧ (s.tile 0).spn = 3 ∧ (s.fillLine 0).1 = bad ∧ w.uninjected = true ∧ (w.tile 0).hold = none ∧
    (w.tile 0).refill = bad ∧ throttled (w.dutyAt (3 * w.cclk + (w.tile 0).ac)) 0 = false := by decide +kernel
def anOp (kind : Nat) : ArrOp := { kind := kind, desc := 0, tally := 255, bytes := bytes 128 [], seq := kind, epoch := 0 }

theorem witness_ArraySlotsQueue : ∀ stopped : Bool, let s := array0 { halves := [(0, { q := [anOp 1, anOp 1, anOp 1], stopped := stopped })] }
    s.alive = true ∧ s.spnRuns 0 = true ∧ s.uninjected = true ∧ s.ok (arrBlk 0) = true ∧ (0 ∈ shapeHalves (s.arr 0).newest) ∧
    (1 ∉ shapeHalves (s.arr 0).newest) ∧ ((s.arr 0).half 0).stopped = stopped ∧ ((s.arr 0).half 0).q.length < 4 := by decide
/-- A STREAM of one row of FP4 elements, and a WLOAD of FP4 elements whose rows all lie at one address. -/
def rowOp (kind : Nat) : ArrOp := { anOp kind with bytes := bytes 128 [(0x3C, 2, 1), (0x40, 1, 5), (0x41, 1, 5)] }
theorem witness_ArrayOperationsRun_rows : let s := open0 (array0 { halves := [(0, { q := [rowOp 2] })] })
    s.alive = true ∧ s.uninjected = true ∧ s.arrHead 0 0 = some (rowOp 2) ∧ (rowOp 2).isStream = true ∧
    (((s.arr 0).half 0).run.any fun o => o.kind == 4 && descBank o.bytes == descBank (rowOp 2).bytes) = false ∧
    ((s.arr 0).sets.get {} (setKey 0 ((s.arr 0).half 0).lastSet)).cls = none ∧
    (readX (rowOp 2).bytes (shapeKs 4) s).1.isSome = true := by decide

theorem witness_ArrayOperationsRun_weights : let s := open0 (array0 { halves := [(1, { q := [rowOp 1] })] })
    (readW (rowOp 1).bytes (shapeKs 5) (shapeNs 5) s).1.isSome = true := by decide +kernel
theorem witness_ArrayOperationsRun_start : ∀ k ∈ [1, 4], let s := array0 { halves := [(0, { q := [anOp k] })] }
    s.alive = true ∧ s.uninjected = true ∧ s.arrHead 0 0 = some (anOp k) ∧ (s.arr 0).engineTurn (anOp k) = true ∧
    ((s.arr 0).halves.all fun p => p.2.run.all fun o => !(o.kind == 4 || (p.1 == 0 && o.isStream && descBank o.bytes == descBank (anOp k).bytes))) = true := by
  decide
theorem witness_ArrayOperationsRun_end : ∀ k ∈ [1, 2, 4], let s := array0 { halves := [(0, { run := [anOp k] })] }
    s.alive = true ∧ s.uninjected = true ∧ s.arrRunning 0 0 (·.kind == k) = some (anOp k) ∧ (k = 2 → s.arrRunning 0 0 ArrOp.isStream = some (anOp k)) ∧
    (anOp k).sums.all (fun z => !z.isSat && !z.isFlush) = true := by decide
theorem witness_ArrayStateEvents : let s := array0 { next := [5], halves := [(0, { gate := 2 })] }
    s.alive = true ∧ (s.arr 0).next ≠ [] ∧ (s.arr 0).reconf = false ∧ (s.arr 0).tearing = false ∧
    (s.arr 0).ops.any (fun o => o.epoch == (s.arr 0).epoch) = false ∧ s.up (arrBlk 0) = true ∧ (((s.windowOver 0 0).arr 0).half 0).gate = 2 := by decide
theorem witness_ArrayStateEvents_done : let s := array0 { next := [5], reconf := true }
    s.alive = true ∧ (s.arr 0).reconf = true ∧ (s.arr 0).next = [5] ∧ (s.arr 0).halves.any (fun h => h.2.stopped) = false := by decide
theorem witness_ArrayStateEvents_clear : let s := { array0 { empty := false } with tiles := [(0, { spn := 4 })] }
    s.alive = true ∧ (s.tile 0).spn = 4 ∧ (s.arr 0).ops = [] ∧ (s.arr 0).tearing = false ∧ (s.arr 0).clearing = false ∧ (s.arr 0).empty = false ∧
    (s.arr 0).next = [] ∧ (array0 { clearing := true }).alive = true ∧ ((array0 { clearing := true }).arr 0).clearing = true ∧
    ((array0 { tearing := true }).arr 0).tearing = true ∧ (array0 { tearing := true }).ok (arrBlk 0) = true := by decide
theorem witness_ArrayStateEvents_stop : ∀ tearing : Bool, ∀ k ∈ [0, 1],
    let s := array0 { halves := [(0, { run := [{ anOp 2 with seq := 0 }, { anOp 2 with seq := 1 }] })], tearing := tearing }
    s.alive = true ∧ (((s.arr 0).half 0).run.filter (ofEngine 1))[k]? = some { anOp 2 with seq := k } ∧ canStop 1 1 = true ∧
    (((s.drainTo 0 0 1).arrReport 0 1 0 (anOp 2)).arr 0).tearing = tearing := by decide
theorem witness_ArrayStateEvents_drain : let s := array0 { halves := [(0, { run := [anOp 4] })] }
    s.arrRunning 0 0 (·.kind == 4) = some (anOp 4) ∧ (((s.arr 0).half 0).run.filter (ofEngine 2))[0]? = some (anOp 4) ∧ canStop 2 1 = true := by decide
theorem witness_VectorOperationsIssueAndWrite_issue : let s := running {}
    s.alive = true ∧ s.spnRuns 0 = true ∧ s.uninjected = true ∧ s.ok (vuBlk 0) = true ∧ s.ok (encBlk 0) = true ∧
    (∀ b ∈ [vuBlk 0, encBlk 0], let r := { s with blks := [(b, { step := .engine 0 })] }
      r.alive = true ∧ r.spnRuns 0 = true ∧ r.uninjected = true ∧ r.ok b = false) := by decide
def aRes : VRes := { op := 1, vd := 1, val := [] }
theorem witness_VectorOperationsIssueAndWrite_write : let s := running { vu := [aRes, { aRes with second := some (2, []) }, { aRes with enc := some (1, 2, 3, 4) }] }
    s.alive = true ∧ s.uninjected = true ∧ (s.tile 0).vu[0]? = some aRes ∧ (s.tile 0).vu[1]? = some { aRes with second := some (2, []) } ∧
    findIdxOpt (fun (r : VRes) => r.enc.isSome) (s.tile 0).vu 0 = some 2 ∧ (s.tile 0).vu[2]? = some { aRes with enc := some (1, 2, 3, 4) } := by decide
theorem witness_VectorResultsByLane : ∀ n ∈ [1, 11], 2047 < 2048 ∧ 1 ≤ n ∧ n ≤ 11 ∧ 2048 / 2 ^ n - 1 < 2048 / 2 ^ n ∧ 2 ^ n - 1 < 2 ^ n := by decide
theorem witness_TalliesCountOperations : ∀ c ∈ [0, 2 ^ 32 - 2, 2 ^ 32 - 1], let s := running { tallies := [(254, { count := c })] }
    s.uninjected = true ∧ (s.tile 0).spn ≠ 7 ∧ (254 ≠ 255) ∧ (s.tally 0 254).count ≤ 2 ^ 32 - 1 ∧ (s.tile 0).canFail = true := by decide

theorem witness_VectorOperationsIssueAndWrite_ports : let s := running { vs1 := [1] }
    aRes.arith = false ∧ aRes.vd ∈ (s.tile 0).vs1 ∧ ({ aRes with vd := 2 } : VRes).vd ∉ (s.tile 0).vs1 ∧ ({ aRes with op := 0x10 } : VRes).arith = true := by decide
def aMove (bs : List Byte) : MovOp := { desc := 0, tally := 3, bytes := bs }
theorem witness_RunAndFabricSlotsQueue : ∀ n ∈ [7, 8], let s := { running { movs := [(0, { q := List.replicate n (aMove []) })] } with img := some (image [(1, 0, [])]) }
    s.alive = true ∧ s.spnRuns 0 = true ∧ s.uninjected = true ∧ s.ok (movBlk 0) = true ∧ s.prog 0 = some ⟨1, 0, []⟩ ∧ (running {}).prog 0 = none ∧
    (n = 7 → (s.mover 0 0).q.length < 8) ∧ (n = 8 → 8 ≤ (s.mover 0 0).q.length) := by decide
theorem witness_RunAndFabricSlotsQueue_expects : (((running { expects := List.replicate 63 anExpect }).tile 0).expects.length < 64) ∧
    (64 ≤ ((running { expects := List.replicate 64 anExpect }).tile 0).expects.length) := by decide
/-- A copy of one row of 64 bytes from stack 0 to the store of tile 0. -/
def aCopy : List Byte := bytes 64 [(8, 8, 0x8000000000), (0x10, 4, 64), (0x14, 4, 1), (0x2A, 2, 1)]
theorem witness_MoverOperations_row : let s := open0 (running { movs := [(0, { q := [aMove aCopy] })] })
    let x := (s.fetch (some 0) (s.tileWho 0) (addrOff (movAddr aCopy 0 0)) (movRowBytes aCopy))
    s.alive = true ∧ s.uninjected = true ∧ s.ok (movBlk 0) = true ∧ (s.mover 0 0).q = [aMove aCopy] ∧ (s.mover 0 0).aborting = false ∧
    0 < movRowCount aCopy ∧ (aMove aCopy).asked.contains 0 = false ∧ (aMove aCopy).issued = 0 ∧ (aMove aCopy).got = [] ∧
    s.rowBehind (aMove aCopy) 0 = false ∧ movKind aCopy = 0 ∧ s.isLocal (movAddr aCopy 0 0) = true ∧ s.isLocal (movAddr aCopy 8 0) = true ∧
    x.1.1 = 0 ∧ (x.2.put_ (some 0) (s.tileWho 0) (addrOff (movAddr aCopy 8 0)) x.1.2).1 = 0 ∧ s.up (movBlk 0) = true := by decide +kernel
/-- The same with its destination, or its source, on chip 1; a row of Y register 0 as the source. -/
def farCopy (kind : Nat) : List Byte := bytes 64 [(0, 8, if kind = 2 then 0 else 2 ^ 50), (8, 8, if kind = 2 then 2 ^ 50 else 0x8000000000), (0x10, 4, 64), (0x14, 4, 1), (0x28, 1, kind), (0x2A, 2, 1)]
theorem witness_MoverOperations_remote : ∀ kind ∈ [0, 1, 2],
    let s := { open0 (running { movs := [(0, { q := [aMove (farCopy kind)] })] }) with hst := { live.hst with plan := some { hash := [], chip := 0, machine := 0, key := 0, expect := [] } } }
    s.alive = true ∧ s.uninjected = true ∧ s.ok (movBlk 0) = true ∧ (s.mover 0 0).q = [aMove (farCopy kind)] ∧ (s.mover 0 0).aborting = false ∧
    0 < movRowCount (farCopy kind) ∧ movKind (farCopy kind) = kind ∧ s.rowBehind (aMove (farCopy kind)) 0 = false ∧
    (kind ≠ 2 → s.isLocal (movAddr (farCopy kind) 0 0) = false) ∧ (kind = 2 → s.isLocal (movAddr (farCopy kind) 8 0) = false) := by decide +kernel
/-- Bytes of memory that a row's read finds. -/
theorem witness_MoverOperations_bytes : let s := { open0 (running {}) with mem := (List.range 64).map fun j => (j, 7) }
    s.upsets = [] ∧ (s.fetch (some 0) (s.tileWho 0) 0 64).1 = (0, List.replicate 64 7) ∧
    (((s.fetch (some 0) (s.tileWho 0) 0 64).2).put_ (some 0) (s.tileWho 0) 0x8000000000 (List.replicate 64 7)).1 = 0 := by decide +kernel
theorem witness_MoverOperations_done : let s := running { movs := [(0, { q := [{ aMove aCopy with written := [0] }] })] }
    s.alive = true ∧ s.uninjected = true ∧ s.ok (movBlk 0) = true ∧ (s.mover 0 0).q = [{ aMove aCopy with written := [0] }] ∧
    movRowCount aCopy ≤ [0].length ∧ movKind (bytes 64 [(0x28, 1, 2)]) = 2 := by decide

/-! ## Witnesses: memory, registers, block windows and the loader -/

theorem witness_WritesStoreTheirBytes : let s := open0 live
    s.memOk 0 8 = true ∧ (∀ w ∈ wordsOf 3 5, s.upsets.find w ≠ some .late) ∧ (∀ w ∈ partWords 3 (bytes 5 []), s.wordOk w = true) ∧
    (s.save 3 (bytes 5 [])).1 ≠ 2 ∧ (s.doms.length = 84) ∧ ({ s with doms := s.doms.set 44 { st := .off } } : State).memOk 0 8 = false := by decide +kernel
theorem witness_MemoryOperationsKeepForm : Memory.wf [(0, 1), (1, 0xFF), (0x3FFFFFFFFFFFF, 2)] = true := by decide

theorem witness_RemoteRequestsAreServed_granted : ∀ kind ∈ [0, 1], ∀ priv : Bool, let s := open0 (tile0 { linkUp := true })
    let k := pktSeal { aReq kind with priv := priv }
    let r := ((s.upset [(0, .corrected)]).fwd.bobTake 4).2.2
    s.alive = true ∧ s.coreOk = true ∧ k.kind = kind ∧ k.dst = s.chip ∧ pktOk k = true ∧ k.seqValid = false ∧
    (s.upset [(0, .corrected)]).fwd.stale k.ctx k.gen = false ∧ ((s.upset [(0, .corrected)]).fwd.bobTake 4).1 = 0 ∧
    r.place_ (addrOff k.address) = .hbm 0 0 ∧ r.place_ 0x8000000000 = .store 0 0 ∧
    (priv = true → (r.fetch none (.ctx k.ctx k.priv) 0 64).1.1 = 0 ∧ (r.put_ none (.ctx k.ctx k.priv) 0 (bytes 64 [])).1 = 0) ∧
    (priv = false → (r.fetch none (.ctx k.ctx k.priv) 0 64).1.1 ≠ 0 ∧ (r.put_ none (.ctx k.ctx k.priv) 0 (bytes 64 [])).1 ≠ 0) := by decide +kernel

/-- An image that gives bobbin class 7 a quota of 64. -/
def bobs : Image := image [(8, noInst, bytes 128 [(0, 4, 7), (16 + 6 * 16 + 4, 4, 64)])]
theorem witness_RemoteRequestsAreServed_sequence : ∀ q ∈ [0, 1, 32, 33, 32767, 32768, 65535], let s := { open0 live with img := some bobs }
    let k := pktSeal { aReq 1 with seqValid := true, seq := q }
    let f := (s.upset []).fwd
    s.alive = true ∧ s.coreOk = true ∧ k.dst = s.chip ∧ pktOk k = true ∧ k.seqValid = true ∧ k.unit < 8 ∧ f.stale k.ctx k.gen = false ∧
    f.swc.early = [] ∧ (k.seq + 65536 - f.swc.exps.get 0 (expKey k)) % 65536 = q ∧ (f.bobTake 7).1 = 0 := by decide +kernel
theorem witness_RemoteRequestsAreServed_early : let s := { open0 live with swc := { early := [⟨{ aReq 1 with seqValid := true, seq := 1 }, 0⟩] } }
    let k := pktSeal { aReq 1 with seqValid := true, seq := 1 }
    (s.fwd.swc.early.any fun e => expKey e.pkt == expKey k && e.pkt.seq == k.seq) = true := by decide +kernel
theorem witness_ScrubAndStackEvents : ∀ bo ∈ [(0, tileBlk 0, 0x098, 0x090, 0x8000000000), (8, 16, 0x068, 0x060, 0)],
    let s := { open0 live with regs := [(blkR bo.2.1 bo.2.2.1, 0), (blkR bo.2.1 bo.2.2.2.1, 1)].foldl (fun (m : Table W64) (x : Nat × W64) => Table.set m x.1 x.2) [] }
    let r := s.setRg (blkR bo.2.1 bo.2.2.1) (put 0 64)
    let bad := (wordsOf bo.2.2.2.2 64).filter fun w => !r.wordOk w
    s.alive = true ∧ s.uninjected = true ∧ s.ok bo.2.1 = true ∧ (s.rg (blkR bo.2.1 bo.2.2.2.1)).bit 0 = true ∧
    (bo.1 = 0 → bad ≠ []) ∧ (bo.1 = 8 → bad = []) := by decide +kernel
theorem witness_ScrubAndStackEvents_stacks : ∀ hot : Bool, let s : State := { live with hbms := [(7, { hot := hot })] }
    s.alive = true ∧ s.uninjected = true ∧ s.up (16 + 7) = true ∧ s.domOn (44 + 7) = true ∧ (s.hbms.get ({} : Hbm) 7).hot = hot := by decide
theorem witness_CxlPorts : let s := live
    let v := putBit 63 true ||| put 32 32768
    s.alive = true ∧ s.domOn (18 + 1) = true ∧ s.quiescent = true ∧ v.fld 32 16 ≠ 0 ∧ v.fld 0 16 + v.fld 32 16 ≤ 32768 ∧ v.bit 63 = true ∧
    (putBit 63 true : W64).fld 32 16 = 0 ∧ (ctx0 { st := 1 }).quiescent = false ∧ (s.cxl 1).st ≠ 2 ∧ ([] : List (Fin 32769)).length ≤ 8 ∧
    (List.replicate 8 (32768 : Fin 32769)).length ≤ 8 := by decide
def aCxl : CxlReq := { off := 0x100000000000, len := 64, data := none }
theorem witness_CxlPorts_completion : let s := { live with cxls := [(0, { st := 2, used := true, reqs := [aCxl, { aCxl with data := some (bytes 64 []) }] })] }
    let r := s.modCxl 0 fun x => { x with reqs := x.reqs.eraseIdx 0 }
    s.alive = true ∧ s.uninjected = true ∧ (s.cxl 0).st = 2 ∧ (s.cxl 0).reqs[0]? = some aCxl ∧ s.quiescent = true ∧ s.bobUps.get .clean aCxl.bob = .clean ∧
    (s.cxl 0).reqs[1]? = some { aCxl with data := some (bytes 64 []) } ∧ (r.load aCxl.off aCxl.len).1.1 ≠ 2 ∧
    (r.save aCxl.off (bytes 64 [])).1 = 0 := by decide +kernel
/-- A register of each access code: its offset, its code, and the state that reaches it for JTAG. -/
def regsOfEach : List (Nat × Acc) := [(0xA0, .rw), (blkR 2 0x80, .w1c), (0x198, .rc), (0x40, .ro)]
def debugged : State := { live with hst := { live.hst with debug := true } }
theorem witness_RegisterWritesFollowTheirCode : ∀ o ∈ regsOfEach,
    debugged.alive = true ∧ debugged.uninjected = true ∧ (∀ src ∈ [Src.osaux, .jtag, .fabric], debugged.srcReaches src = true) ∧
    aligned o.1 false = true ∧ aligned (o.1 + 4) true = true ∧
    ((locate (o.1 / 8 * 8)).any fun x => (rowAt x.1.kind x.2).map (fun row => row.acc) == some o.2 &&
      (rowAt x.1.kind x.2).map (fun row => row.name) != some "MSIX_TABLE" && decide (0x40 ≤ x.2) && debugged.domOn x.1.dom &&
      (debugged.actWrite .osaux x.1 x.2 0 0).isNone) = true := by decide
theorem witness_RegisterWritesFollowTheirCode_off : let s := { live with doms := live.doms.set 2 { st := .off } }
    s.alive = true ∧ s.uninjected = true ∧ s.srcReaches .osaux = true ∧
    ((locate (blkR 10 0x060)).any fun x => (rowAt x.1.kind x.2).isSome && decide (0x40 ≤ x.2) && !s.domOn x.1.dom) = true := by decide
theorem witness_RegisterReadsAnswer_size : live.srcReaches .osaux = true ∧ ¬((4 : Nat) = 4 ∧ 0x42 % 4 = 0) ∧ ¬((4 : Nat) = 8 ∧ 0x42 % 8 = 0) ∧
    (locate 0x42).isSome = true ∧ (locate 0x200000).isNone = true ∧ locate 0xFFFFFF = none := by decide

theorem witness_BlockWindowWrites : let s := live
    let t := { live with doms := live.doms.set 1 { st := .off } }
    let q := ctx0 { st := 1 }
    s.alive = true ∧ s.domOn (blkDom 151) = true ∧ s.quiescent = true ∧ t.alive = true ∧ t.domOn (blkDom 3) = false ∧ q.alive = true ∧
    q.quiescent = false ∧ hasEngine 5 = true ∧ hasEngine 7 = false := by decide
/-- Detectors of each kind: a condition of block 3, an event, and an S4 event with DEV_INJECT_ARM set. -/
theorem witness_BlockWindowWrites_inject : let s := { live with regs := [(devR 0x190, 1)] }
    s.alive = true ∧ s.domOn (blkDom 2) = true ∧ (s.rg (devR 0x190)).bit 0 = true ∧ (live.rg (devR 0x190)).bit 0 = false ∧
    (∃ b ∈ List.range 152, ∃ d ∈ List.range 13, d < detCount b ∧ detBase b d ≠ 4 ∧ isEvent b d = false) ∧
    (∃ b ∈ List.range 152, ∃ d ∈ List.range 13, d < detCount b ∧ detBase b d ≠ 4 ∧ isEvent b d = true) ∧
    (2 < detCount 2 ∧ detBase 2 2 = 4 ∧ isEvent 2 2 = true) := by decide

def osauxUp (x : Loader) : State := { live with ld := x }
theorem witness_LoadBusyRefusesRequests : ∀ st ∈ [0, 1, 2, 3, 4, 5], let s := osauxUp { state := st }
    let v := putBit 0 true ||| putBit 2 true
    s.alive = true ∧ s.loaderRuns = true ∧ (v.bit 0 && v.bit 2) = true ∧ (putBit 3 true).bit 3 = true ∧ s.ld.state = st := by decide
theorem witness_LoadRequestsAct : let s := { osauxUp {} with regs := [(devR 0x070, 0x5FFFFFF000), (devR 0x078, 4096)] }
    let a := (s.rg (devR 0x070)).fld 0 50
    let n := (s.rg (devR 0x078)).fld 0 33
    s.alive = true ∧ s.loaderRuns = true ∧ s.quiescent = true ∧ (a % 4096 = 0 ∧ 256 ≤ n ∧ n ≤ 4294967296 ∧ a + n ≤ 0x6000000000) ∧
    ¬(256 ≤ (live.rg (devR 0x078)).fld 0 33) ∧ (ctx0 { st := 1 }).quiescent = false := by decide
theorem witness_LoadRequestsAct_harvest : ∀ m ∈ [0, 1], let s := { ctx0 { st := 1, tiles := m } with regs := [(devR 0x078, 256)] }
    s.loaderRuns = true ∧ (s.ctx s.loadTarget.1).st = 1 ∧ (s.canHarvest s.loadTarget.1 = true ↔ m = 1) ∧ (live.ctx s.loadTarget.1).st ≠ 1 ∧
    laterHarvest (s.ctx s.loadTarget.1).harvest s.loadTarget.2 = false ∧ live.inForce.isNone = true ∧
    ({ live with img := some {}, ld := { state := 4 } } : State).inForce.isNone = false := by decide
theorem witness_LoadsRunToTheirCommit : ∀ cancel atHarvest : Bool, ∀ stage ∈ [5, 6],
    let s := { osauxUp { state := 1, stage := stage, cancel := cancel, atHarvest := atHarvest, img := some {} } with hst := { live.hst with plan := some aPlan } }
    s.alive = true ∧ s.loaderRuns = true ∧ s.ld.state = 1 ∧ s.stageCheck.1.isNone = true ∧ s.stageCheck.2.ld.cancel = cancel ∧
    s.stageCheck.2.ld.atHarvest = atHarvest ∧ s.stageCheck.2.swc.pend = false := by decide +kernel
theorem witness_LoadsRunToTheirCommit_fails : let s := osauxUp { state := 1, stage := 6 }
    s.alive = true ∧ s.loaderRuns = true ∧ s.ld.state = 1 ∧ s.stageCheck.1.isSome = true := by decide
/-- A request of context 1. -/
def aReqOf : Req := { unit := 0, pkt := { kind := 0, ctx := 1, unit := 0 } }
theorem witness_LoadsRunToTheirCommit_pending : let s := { osauxUp { state := 2, heldAt := some 0 } with ctxs := [(0, { st := 1, tiles := 0 })] }
    s.alive = true ∧ s.ld.state = 2 ∧ s.loaderRuns = true ∧ s.holdsComplete = false ∧ s.ld.heldAt.isSome = true ∧ (s.ctx 0).st = 1 ∧
    (s.ctx 0).held = false ∧ s.canHarvest 0 = false ∧ s.swc.pend = false ∧ tilesOf (s.ctx 0).tiles = [] ∧ live.moversIdle 0 = true ∧
    s.noInsts ((s.ctxGroups 0).map fun x => x.1) = true ∧ s.swc.reqs = [] ∧ aReqOf.pkt.ctx ≠ 0 ∧
    (osauxUp { state := 2 }).holdsComplete = true ∧ (osauxUp { state := 2 }).loaderRuns = true := by decide
theorem witness_LoadsRunToTheirCommit_copy : let s := osauxUp { state := 3, copying := true, img := some {} }
    s.alive = true ∧ s.uninjected = true ∧ s.ld.state = 3 ∧ s.ld.copying = true ∧ s.copyReads.1 = none ∧ s.copyReads.2.ld.img = some {} ∧
    (osauxUp { state := 3 }).ld.copying = false ∧ (osauxUp { gone := true }).ld.gone = true ∧ (osauxUp { gone := true }).allFree = true := by decide

/-! ## Witnesses: ports, frames, the switch core, the scheduler and contexts -/

theorem witness_PortsChangeState : ∀ st ∈ [1, 2, 9], ∀ trained : Bool, ∀ n ∈ [2, 3], let s := { port0 { st := st, trained := trained, attempts := n } with hst := { live.hst with plan := some aPlan } }
    s.alive = true ∧ s.uninjected = true ∧ (s.port 0).st = st ∧ (s.port 0).trained = trained ∧ (s.port 0).hello = none ∧ s.hst.plan.isSome = true ∧
    (s.discExpect 0).bit 63 = false ∧ s.fomMin 0 ≤ (255 : Byte).toNat ∧ s.fomMin 0 ≤ s.fomMin 0 ∧ (0 : Byte).toNat < s.fomMin 0 ∧
    (n = 3 → s.retrainMax 0 ≤ (s.port 0).attempts) ∧ (n = 2 → (s.port 0).attempts < s.retrainMax 0) := by decide
theorem witness_PortsChangeState_expected : let s := { port0 { st := 1 } with hst := { live.hst with plan := some { aPlan with expect := [putBit 63 true] } } }
    s.alive = true ∧ (s.port 0).st = 1 ∧ s.hst.plan.isSome = true ∧ (s.discExpect 0).bit 63 = true ∧ (port0 { st := 1 }).hst.plan = none := by decide
theorem witness_PortsChangeState_moves : ∀ st ∈ [0, 3, 4, 7], ((port0 { st := st }).port 0).st = st := by decide
theorem witness_LaneEventsAndTrims : ∀ st ∈ [1, 3, 4], let s := port0 { st := st }
    s.alive = true ∧ s.uninjected = true ∧ (s.port 0).st = st ∧ (0 : Byte).toNat < s.fomWarn 0 ∧ s.fomWarn 0 ≤ (255 : Byte).toNat ∧
    (5 : Fin 10).val < 6 ∧ 6 ≤ (6 : Fin 10).val ∧ (port0 { st := 9 }).port 0 = { st := 9 } := by decide
theorem witness_LaneEventsAndTrims_range : ∀ m ∈ [(-8 : Int), 0, 8], let s := port0 { lanes := [(0, { trims := List.replicate 10 m })] }
    ∀ j ∈ List.range 10, -8 ≤ ((s.port 0).lane 0).trim j ∧ ((s.port 0).lane 0).trim j ≤ 8 := by decide
theorem witness_IdleAndPortControl : ∀ ex : Bool, let s := port0 { st := 4, exiting := ex }
    s.alive = true ∧ (s.port 0).st = 4 ∧ (s.port 0).exiting = ex ∧ s.fomMin 0 ≤ (255 : Byte).toNat ∧ (0 : Byte).toNat < s.fomMin 0 ∧
    ((port0 { st := 6, cause := 8 }).port 0).cause = 8 ∧ bitOf s.pins.pll (2 + 11) = true := by decide
theorem witness_IdleAndPortControl_idle : let s := { port0 { st := 3 } with regs := [(blkR (portB 0) 0x058, 1)] }
    let r := { s with regs := [(blkR (portB 0) 0x058, 0x101)] }
    s.alive = true ∧ s.mayIdle 0 = true ∧ s.quiet 0 = true ∧ (s.port 0).eiSent = false ∧ (port0 { st := 7 }).mayIdle 0 = false ∧
    r.mayIdle 0 = true ∧ r.quiet 0 = false ∧ ((port0 { st := 3, eiSent := true }).port 0).eiSent = true := by decide +kernel

/-- An idle frame with symbols in error, and one whose position 0 holds no control flit. -/
def aFrame (errs : List Nat) : Frame := { mkFrame 5 .idle [] [] with errs := [errs] }
def noCtl : Frame := { bytes := bytes 1285 [] }
theorem witness_FramesArriveAndLeave : ∀ st ∈ [0, 1, 3, 4], ∀ exiting : Bool, let s := port0 { st := st, exiting := exiting }
    s.alive = true ∧ s.uninjected = true ∧ (s.port 0).st = st ∧ ((s.port 0).sends = true ↔ st = 1 ∨ st = 3 ∨ st = 4 ∧ exiting = true) := by decide
theorem witness_FramesArriveAndLeave_errors : let f := aFrame (List.range 15)
    let g := aFrame (List.range 16)
    (cwErrors f 0).length ≤ 15 ∧ (cwErrors f 1).length ≤ 15 ∧ (List.range 4).map (cwFixed f 0) = [4, 4, 4, 3] ∧ frameCtl f = some .idle ∧ frameSlotNo f = 5 ∧
    15 < (cwErrors g 0).length ∧ frameCtl noCtl = none ∧ f.wf = true ∧ noCtl.wf = true := by decide +kernel
theorem witness_FramesArriveAndLeave_up : let s := port0 { st := 3 }
    let r := s.dueCtls 0
    let w := ({ s with img := some (image [(6, noInst, bytes 64 [(0, 4, 1), (16, 2, 7)])]) } : State).dueCtls 0
    s.alive = true ∧ (s.port 0).st = 3 ∧ r.dev.down = false ∧ r.coreOk = true ∧ (r.traffic 0 (r.wheel 0 (s.port 0).txSlot)).1 = none ∧
    w.coreOk = true ∧ (w.traffic 0 (w.wheel 0 0)).1 = some (.pinned 7 255) ∧
    ({ s with dev := { s.dev with down := true } }.dueCtls 0).dev.down = true := by decide
/-- Ports 0 and 1 are UP and chip 1 has port 1 as its productive port, with this SWC_CFG. -/
def routed (cfg : W64) : State :=
  { live with ports := [(0, { st := 3 }), (1, { st := 3 })], regs := [(blkR 3 0x040, cfg), (blkR 3 0x80008, 0x8000000100000001)] }
theorem witness_LooseHeadsAreForwarded : let s := routed 0x0000006400400040
    s.alive = true ∧ s.uninjected = true ∧ s.coreOk = true ∧ (s.port 0).st = 3 ∧ (0 : Nat) = s.chip ∧ (1 : Nat) ≠ s.chip ∧
    s.choose (some 0) 1 [] 0 = .put 1 1 ∧ s.choose (some 0) 1 [1] 0 = .wait ∧ s.choose (some 0) 2 [] 0 = .noRoute ∧
    (routed 0).choose (some 0) 1 [] 0 = .full := by decide
theorem witness_LooseHeadsAreForwarded_staged : let g : Stage := ⟨some 0, { kind := 0, dst := 1 }, 1, 0⟩
    let s := (routed 0x0000006400400040).stage g
    s.swc.stages[0]? = some g ∧ g.pkt.dst ≠ s.chip := by decide
def aQueued (hops age : Nat) : QPkt := { pkt := { kind := 0, dst := 1, hops := hops, age := age }, frm := some 0, since := 0 }
theorem witness_LooseHeadsAreForwarded_departs : let s := port0 { st := 3, sel := some (aQueued 63 0) }
    s.alive = true ∧ s.uninjected = true ∧ (s.port 0).st = 3 ∧ s.coreOk = true ∧ s.ok 4 = true ∧ (s.egress 0 19).1.isSome = true ∧
    ((port0 { st := 3 }).egress 0 19).1 = none ∧ (s.depart 0 (aQueued 63 0)).1.isSome = true ∧ s.bobUps.get .clean (aQueued 63 0).bob = .clean ∧
    s.tooOld (s.leaving (aQueued 64 0)) = false ∧ s.tooOld (s.leaving (aQueued 0 0xFFFF)) = true := by decide +kernel
/-- Two rings: ring 0 passes from port 0 to port 1, ring 1 ends at the member from port 0; ring 2 crosses the date line. -/
def rings : Image := image [(5, noInst, bytes 112 [(0, 4, 3), (16, 2, 0), (18, 1, 1), (21, 1, 1), (48, 2, 1), (80, 2, 2), (82, 1, 1), (86, 1, 1)])]
/-- Groups 0 to 3: no tree, a tree that delivers here, a tree that only passes, and one that delivers but has this chip as no member. -/
def trees : Image :=
  image [(3, noInst, bytes 16 [(0, 4, 4)] ++ bytes 64 [] ++ bytes 64 [(0x19, 1, 2), (0x2E, 1, 1)] ++ bytes 64 [(0x19, 1, 2)] ++ bytes 64 [(0x19, 1, 10), (0x2E, 1, 1)])]
theorem witness_PinnedAndTreeHeads_trees : let s := { port0 { st := 3 } with img := some trees }
    s.alive = true ∧ s.uninjected = true ∧ s.coreOk = true ∧ (s.port 0).st = 3 ∧ s.grpCfg 4 = none ∧
    (List.range 4).map (fun g => (s.grpCfg g).map fun c => (c.tree, c.deliver, c.treeOnly)) =
      [some (false, false, false), some (true, true, false), some (true, false, false), some (true, true, true)] ∧
    pktOk (pktSeal { kind := 5, group := 1 }) = true ∧ pktOk { kind := 5, group := 1 } = false := by decide +kernel
theorem witness_PinnedAndTreeHeads_heard : ∀ st ∈ [3, 7], let s := port0 { st := st }
    (s.hears (some 0) = true ↔ st = 3) ∧ s.hears none = true ∧ (s.look .clean true).1 = true ∧ (s.look .parity false).1 = false ∧
    (s.look .uncorrectable true).1 = false ∧ (s.look .corrected true).1 = true ∧ (s.look .corrected true).2.uninjected = true := by decide
theorem witness_PinnedAndTreeHeads : let s := { port0 { st := 3 } with img := some rings }
    s.alive = true ∧ s.uninjected = true ∧ s.coreOk = true ∧ (s.port 0).st = 3 ∧ s.ringIn 7 0 = none ∧
    (s.ringIn 0 0).map (fun e => (e.transit, e.dateLine)) = some (true, 0) ∧ (s.ringIn 1 0).map (fun e => (e.transit, e.dateLine)) = some (false, 0) ∧
    (s.ringIn 2 0).map (fun e => (e.transit, e.dateLine)) = some (true, 1) ∧ 1 + 0 < 2 ∧ 0 + 1 < 2 ∧ ¬(1 + 1 < 2) := by decide
def aLoose : Req := { unit := 0, pkt := { kind := 0, dst := 1, unit := 0 } }
theorem witness_RequestsAreSentAndEnd : ∀ tries ∈ [0, 3, 15], let s := { ctx0 { st := 1 } with
      swc := { reqs := [{ aLoose with tries := tries }] }, hst := { live.hst with plan := some aPlan }, regs := [(blkR 3 0x068, 3 <<< 32)] }
    s.alive = true ∧ s.hst.plan.isSome = true ∧ s.coreOk = true ∧ addrChip (2 ^ 50) ≠ s.chip ∧ addrChip 0 = s.chip ∧
    (s.swc.reqs.find? fun r => r.unit == 0 && r.pkt.tag == 0) = some { aLoose with tries := tries } ∧
    (tries < (s.rg (blkR 3 0x068)).fld 32 4 ↔ tries = 0) ∧
    (∀ st ∈ [0, 5, 6], ∀ echo : Bool, ∀ kind ∈ [2, 3], let k := pktSeal { kind := kind, unit := 0, status := st, echo := echo }
      k.kind = kind ∧ k.dst = s.chip ∧ pktOk k = true ∧ k.unit = 0 ∧ k.tag = 0 ∧ k.status = st ∧ k.echo = echo) ∧
    s.fwd.stale 0 0 = false ∧ (s.fwd.swc.reqs.find? fun r => r.unit == 10 && r.pkt.tag == 0) = none ∧ live.hst.plan = none := by decide +kernel
theorem witness_CoreConfiguration : let s := live
    let p := { live with swc := { pend := true, heldAt := some 0 }, ctxs := [(0, { st := 1, tiles := 1 })] }
    s.alive = true ∧ s.up 3 = true ∧ s.domOn 1 = true ∧ s.quiescent = true ∧ s.swc.pend = false ∧ (0 : Nat) = s.swc.bank ∧ p.alive = true ∧ p.up 3 = true ∧ p.swc.pend = true ∧
    p.swc.heldAt.isSome = true ∧ p.holdsComplete = false ∧ p.ld.state ≠ 2 ∧ (p.ctx p.swapTarget.1).st = 1 ∧ p.canHarvest p.swapTarget.1 = true ∧
    p.quiescent = false ∧ ({ live with swc := { pend := true } } : State).holdsComplete = true := by decide
theorem witness_CoreConfiguration_cfg : ∀ q ∈ [64, 16383], let v := put 32 q ||| put 16 q ||| put 0 q
    live.domOn 1 = true ∧ ({ live with doms := live.doms.set 1 { st := .off } } : State).domOn 1 = false ∧ ¬(64 ≤ (0 : W64).fld 32 16) ∧
    64 ≤ v.fld 32 16 ∧ v.fld 32 16 ≤ 16383 ∧ v.fld 16 16 ≤ v.fld 0 16 ∧ v.fld 0 16 ≤ v.fld 32 16 := by decide

/-- An image with context 0 on tile 0, and one node of the scheduler that software may adjust. -/
def ctxImage : Image :=
  image [(0x0E, noInst, bytes 48 [(0, 4, 1), (18, 1, 1), (19, 1, 64)]), (7, noInst, bytes 48 [(0, 4, 1), (20, 2, 100), (24, 4, 1000), (28, 1, 1)])]
theorem witness_ContextsOpen : let s := { live with img := some ctxImage }
    s.alive = true ∧ s.up 4 = true ∧ s.inForce.isSome = true ∧ s.ctxEntry 0 = some (false, 1, 64) ∧ s.ctxEntry 1 = none ∧ (s.ctx 0).st = 0 ∧
    s.loadingBars = false ∧ (∀ t ∈ tilesOf 1, s.tileDown t = false) ∧ live.inForce = none ∧
    s.openStatus 0 (some 32767) = 0 ∧ s.openStatus 0 (some 32768) = 5 ∧ s.openStatus 0 (some 0) = 5 ∧ s.openStatus 0 (some 1) = 0 ∧
    ({ s with ld := { s.ld with state := 3 } } : State).loadingBars = true ∧ ({ s with ctxs := [(0, { st := 1 })] } : State).openStatus 0 none = 3 ∧
    ({ s with doms := s.doms.set 20 { st := .off } } : State).tileDown 0 = true := by decide
theorem witness_ContextsClose : ∀ st ∈ [0, 1, 2, 3], let s := ctx0 { st := st }
    s.alive = true ∧ s.up 4 = true ∧ (s.ctx 0).st = st := by decide
theorem witness_ContextsClose_stages : ∀ n ∈ [1, 2, 3, 4, 5, 6], let s := ctx0 { st := 2, stage := n, tiles := 1 }
    s.alive = true ∧ (s.ctx 0).st = 2 ∧ (s.ctx 0).stage = n ∧
    ((tilesOf 1).foldl (fun s t => s.moversAbort t) (s.setCtx 0 { s.ctx 0 with stage := 3 })).ok 5 = true ∧ s.arraysDown 1 = true ∧
    (∀ t ∈ tilesOf 1, s.ok (movBlk t) = true) ∧ s.ok 5 = true := by decide
theorem witness_ShapersAndCreel : ∀ rb ∈ [(1, 320), (100, 1000)], let s := { live with img := some ctxImage }
    s.alive = true ∧ s.domOn 1 = true ∧ s.nodeCfgs[0]?.map (fun c => (c.adj, c.rate, c.burst)) = some (true, 100, 1000) ∧ s.nodeCfgs[1]? = none ∧ rb.1 ≠ 0 ∧ rb.1 ≤ 100 ∧
    320 ≤ rb.2 ∧ rb.2 ≤ 1000 ∧ s.newShapes = [] ∧ s.up 6 = true ∧ s.up 4 = true ∧ s.uninjected = true ∧ (s.bobTake 0).1 = 0 ∧
    ((s.port 0).nodes.get ({} : Node) 0).used ≤ 1000 := by decide

/-! ## Witnesses: collectives, pans, the crystallizer and harvests -/

/-- Group 0: two members, this chip member 0 and root, context 0, quadrant 0, tree form of no group. -/
def aGroup : List Byte := bytes 64 [(2, 2, 2), (0x1A, 1, 2)]
def aCfg : GrpCfg := grpOf aGroup
/-- live with context 0 OPEN, the group, and one instance of it. -/
def coll (i : Inst) : State :=
  { open0 live with img := some (image [(3, noInst, bytes 16 [(0, 4, 1)] ++ aGroup)]), insts := [(instKey 0 0, i)] }
/-- A start of a crystallizer with its data. -/
def aStart : Start := { tile := 0, kind := 1, bytes := bytes 64 [(0x0C, 4, 2048)], tally := 255, cry := some 0, data := [] }
/-- An instance with that start. -/
def anInst (op : Nat) (slots : List PSlot) : Inst :=
  { op := op, operator := 2, fmt := 0, slots := slots, starts := [aStart] }

theorem witness_CollectivePackets : ∀ h ∈ [0, 1, 2 ^ 31, 2 ^ 32 - 1], let s := coll (anInst 1 [])
    let k : Pkt := pktSeal { kind := 6, harvest := h }
    s.alive = true ∧ s.coreOk = true ∧ k.dst = s.chip ∧ s.grpCfg 0 = some aCfg ∧ aCfg.treeOnly = false ∧ s.fwd.ok 5 = true ∧ pktOk k = true ∧
    pktOk { kind := 6, harvest := h } = false ∧
    s.fwd.stale k.ctx k.gen = false ∧ s.fwd.stale k.ctx 1 = true ∧ harvestOrder k.harvest (s.fwd.ctx k.ctx).harvest = (if h = 0 then 0 else if h = 1 then 1 else 2) ∧
    (s.inst 0 0).isSome = true ∧ aCfg.succ = 1 ∧ aCfg.succ ≠ 0 := by decide +kernel
theorem witness_CollectivePackets_data : let i := { anInst 6 [] with srcDone := [1], starts := (anInst 6 []).starts ++ [{ tile := 0, kind := 2, bytes := [], tally := 255 }] }
    let s := coll i
    s.inst 0 0 = some i ∧ i.op = 6 ∧ (i.startOf 2).isSome = true ∧ i.answered.contains 1 = false ∧ i.dstDone.contains 1 = false ∧
    i.counts.find 1 = none ∧ (0 ≤ aCfg.my ∧ aCfg.my < 0 + (bytes 4 []).length / 4) ∧ i.srcDone.contains 1 = true ∧ i.srcDone.contains 0 = false ∧
    ((s.fwd.progress 5).a2aTake aCfg 0 0 1 0 4 []).inst 0 0 = some i := by decide
def pulls : Inst := anInst 1 [{ st := 2, origin := 1, key := some (0, 0, false) }]
theorem witness_ChunksArePulledAndWritten : let s := { coll pulls with tiles := [(0, { linkUp := true })] }
    let r := (s.upset [(8, .corrected)]).contributions pulls 0 (combineOrder s.deterministic [] [0])
    s.alive = true ∧ s.uninjected = true ∧ s.grpCfg 0 = some aCfg ∧ s.inst 0 0 = some pulls ∧ s.ok 5 = true ∧ s.ok (10 + aCfg.quad) = true ∧ pulls.op < 5 ∧
    s.contributed aCfg 0 pulls = true ∧ s.contributors aCfg 0 pulls = [0] ∧ (s.tile 0).linkUp = true ∧ pulls.nextPull aCfg pulls.chunks = some (0, none) ∧
    (pulls.slots.getD 0 {}).key = some (0, 0, false) ∧ r.1.isSome = true ∧
    (((r.2.enterLocal aCfg 0 0 0 pulls (r.1.getD [])).pulledOne aCfg 0 0 pulls.chunks).panEvent aCfg 0 0 0 .clean).1 = true := by decide +kernel
theorem witness_ChunksArePulledAndWritten_credit : let i := anInst 1 [{ st := 4 }]
    i.emptySlot.isSome = true ∧ 2 ≤ aCfg.n ∧ pulls.emptySlot = none ∧ (anInst 1 []).nextPull aCfg 0 = none := by decide
def written : Inst := anInst 3 [{ st := 4, key := some (0, 0, true), result := some (bytes 64 []) }]
theorem witness_ChunksArePulledAndWritten_expect :
    let e : Expect := { group := 0, seq := 0, desc := 0, bytes := bytes 64 [(0x0C, 4, 16)], left := 1, tally := 255 }
    let s := { coll written with tiles := [(0, { linkUp := true, expects := [e] })] }
    ((s.tile 0).expects.find? fun e => e.group == 0 && e.seq == 0) = some e ∧ (s.tile 0).linkUp = true ∧ written.deliverable 0 = some (0, bytes 64 [], [0]) ∧
    ((written.starts.find? fun st => st.tile == 0 && st.kind == 2).bind fun st => if written.op = 1 then st.cry else none) = none ∧
    (s.tileSave 0 0 (bytes 64 [])).1 = 0 := by decide
theorem witness_InstancesEnd : let i := { anInst 1 [] with starts := [] }
    let s := coll (anInst 8 [])
    s.alive = true ∧ s.grpCfg 0 = some aCfg ∧ (s.inst 0 0).isSome = true ∧ (s.grp 0).base = 0 ∧ (coll i).contributed aCfg 0 i = false ∧
    s.startsMissing aCfg 0 (anInst 8 []) = true ∧ (coll (anInst 8 [])).inst 0 7 = none ∧ s.closing aCfg.ctx = false ∧
    2 ≤ aCfg.n ∧ s.up 5 = true := by decide
/-- A base sequence number that holds no instance while a later one waits; and an instance whose own start is there and that waits for its predecessor. -/
theorem witness_InstancesEnd_timeouts : let s := { coll (anInst 1 []) with insts := [(instKey 0 1, anInst 1 [])] }
    let i : Inst := { anInst 1 [{ st := 2, origin := 1, key := some (0, 0, false), loc := some [] }] with pulled := 1, began := 1, starts := [{ tile := 0, kind := 1, bytes := bytes 64 [], tally := 255, cry := some 0 },
      { tile := 0, kind := 2, bytes := bytes 64 [], tally := 255, cry := some 0 }] }
    s.alive = true ∧ (s.inst 0 1).isSome = true ∧ s.inst 0 (s.grp 0).base = none ∧ s.closing aCfg.ctx = false ∧
    (coll i).startsMissing aCfg 0 i = false ∧ i.nextPull aCfg i.chunks = none := by decide
theorem witness_InstancesEnd_ready : let i : Inst := { anInst 1 [] with starts := [{ tile := 0, kind := 1, bytes := bytes 64 [], tally := 255, cry := some 0 },
      { tile := 0, kind := 2, bytes := bytes 64 [], tally := 255, cry := some 0 }] }
    let s := coll i
    s.contributed aCfg 0 i = true ∧ s.received aCfg 0 0 i = true ∧ i.toFree aCfg i.chunks ≤ i.freed ∧ i.nextPull aCfg i.chunks = none := by decide
theorem witness_InstancesEnd_resends : ∀ n ∈ [0, 15], let i := { anInst 5 [] with resends := n }
    let s := coll i
    let waits := (List.range aCfg.n).filter fun m => m != aCfg.my && !i.fenced.contains m && !i.answered.contains m
    i.op = 5 ∧ aCfg.root = aCfg.my ∧ (i.startOf 1).isSome = true ∧ waits = [1] ∧ (i.resends < s.resendMax ↔ n = 0) := by decide
theorem witness_InstancesEnd_destinations : let i := { anInst 6 [] with moved := true }
    let s := coll i
    i.op = 6 ∧ (i.startOf 1).isSome = true ∧ 1 < aCfg.n ∧ 1 ≠ aCfg.my ∧ i.dstDone.contains 1 = false ∧ i.dstTries.get 0 1 < s.resendMax ∧ i.moved = true ∧
    (((s.sat (blkR 5 0x080) 0 32 1).setInst 0 0 { i with dstTries := i.dstTries.set 1 1 }).sendCounts aCfg i aStart).1.isSome = true := by decide
theorem witness_MaxAndMinInThePans : let nan := (fmtOf 0).nanCode
    ((fmtOf 0).decode 0).isNan = false ∧ ((fmtOf 0).decode nan).isNan = true := by decide
theorem witness_PanPacketsAndTimers : ∀ st ∈ [2, 3, 4, 5], ∀ credited dataOk acked : Bool, ∀ origin ∈ [0, 1],
    let y : PSlot := { st := st, key := some (0, 0, false), ver := 1, ovf := 1, credited := credited, dataOk := dataOk, acked := acked,
                       out := [{ data := [] }], origin := origin }
    let i := { anInst 1 [y] with operator := 0 }
    let s := coll i
    s.alive = true ∧ s.coreOk = true ∧ s.grpCfg 0 = some aCfg ∧ s.fwd.ok 5 = true ∧ s.fwd.stale 0 0 = false ∧ s.inst 0 0 = some i ∧
    i.finished.contains (0, 0, false) = false ∧ i.slotOf (0, 0, false) = some 0 ∧ i.slots.getD 0 {} = y ∧ i.outSlot aCfg 0 0 false = some 0 ∧ i.wide = true ∧
    (y.settled = true ↔ st = 4) ∧ y.out ≠ [] ∧ (aCfg.lastOf y.origin = false ↔ origin = 0) ∧ y.origin = (if origin = 0 then aCfg.my else 1) ∧
    s.up (10 + 3) = true := by decide
/-- A slot that is there no more, and one that is not there yet; the versions that a CONFIRM may name against version 1. -/
theorem witness_PanPacketsAndTimers_absent : let i := { anInst 1 [] with finished := [(0, 0, false)], confirms := [(2, 0, 5)] }
    i.finished.contains (0, 0, false) = true ∧ i.finished.contains (1, 0, false) = false ∧ i.slotOf (1, 0, false) = none ∧
    i.confirms.contains (1, 0, 5) = false ∧ (1 + 256 - 1) % 256 < 128 ∧ (128 + 256 - 1) % 256 < 128 ∧ 128 ≤ (129 + 256 - 1) % 256 ∧ 128 ≤ (0 + 256 - 1) % 256 := by decide
theorem witness_PanPacketsAndTimers_packets : ∀ sub ∈ [6, 7, 8, 9], ∀ part ∈ [0, 1, 128, 129],
    let k := pktSeal { kind := 6, service := 1, sub := sub, part := part }
    k.sub = sub ∧ k.part = part ∧ k.kind = 6 ∧ pktOk k = true ∧ k.dst = live.chip := by decide +kernel
theorem witness_WideAdditionIsExact : ∀ a ∈ [1, 2 ^ 189 - 1], a < 2 ^ 192 ∧ wLegal (signed 192 a) = true ∧ wIsNan a = false := by decide

/-- One crystallizer entry of 49 elements in stack 0. -/
def aCryEntry (mcast : Nat) : List Byte := bytes 64 [(6, 2, mcast), (8, 4, 49), (0x28, 8, 0x1000), (0x30, 8, 0x100000), (0x38, 8, 0x200000)]
/-- live with that entry and its group in state st at element n. -/
def crys (mcast st n : Nat) (res : Option (Nat × Nat × Nat × Nat × Nat)) (steps : Table (Nat × Bool)) : State :=
  { open0 live with img := some (image [(9, 0, bytes 16 [(0, 4, 1)] ++ aCryEntry mcast)]), tiles := [(0, { active := true })],
                    crys := [(0, { active := true, groups := [(0, { st := st, at_ := n, res := res })], steps := steps })] }
theorem witness_CrystallizerVectors : ∀ upd : Bool, ∀ n ∈ [0, 48], ∀ m ∈ [0, 1, 2], let s := crys 0xFFFF (if upd then 4 else 0) n none []
    let w := (s.upset []).cryInputs 0 n (min 48 (49 - n)) (cryEntryOf (aCryEntry 0xFFFF))
    s.alive = true ∧ s.uninjected = true ∧ s.cryPass 0 upd = some (0, { st := if upd then 4 else 0, at_ := n }, cryEntryOf (aCryEntry 0xFFFF)) ∧
    n < (cryEntryOf (aCryEntry 0xFFFF)).n ∧ w.1.isSome = true ∧ w.2.uninjected = true ∧ (w.2.cryResidue 0 m).1 = (m == 2) := by decide +kernel
theorem witness_CrystallizerVectors_unreadable : ({ crys 0xFFFF 0 0 none [] with undef := [] }.cryInputs 0 0 48 (cryEntryOf (aCryEntry 0xFFFF))).1 = none := by
  decide +kernel
theorem witness_CrystallizerVectors_writes : let s := crys 0xFFFF 4 0 none []
    (s.cryWrites 0 [(0x1000, bytes 64 []), (0x200000, bytes 64 [])]).1 = false ∧
    ({ s with doms := s.doms.set 44 { st := .off } }.cryWrites 0 [(0x1000, bytes 64 [])]).1 = true := by decide +kernel
theorem witness_CrystallizerGroupsProceed : ∀ upd : Bool, ∀ mcast ∈ [0, 0xFFFF], let s := crys mcast (if upd then 4 else 0) 49 none []
    s.alive = true ∧ s.uninjected = true ∧ s.cryPass 0 upd = some (0, { st := if upd then 4 else 0, at_ := 49 }, cryEntryOf (aCryEntry mcast)) ∧
    (cryEntryOf (aCryEntry mcast)).n ≤ 49 := by decide
theorem witness_CrystallizerGroupsProceed_decide : ∀ bad ∈ [0, fp32.enc Fp.one], ∀ skew ∈ [0, fp32.enc Fp.one], ∀ tau ∈ [0, 2 ^ 32 - 1], ∀ st ∈ [0, 4],
    let s := crys 0 2 49 (some (st, 0, 0, bad, skew)) [(0, (tau, false))]
    s.alive = true ∧ (s.cry 0).active = true ∧ (s.cry 0).groups.find 0 = some { st := 2, at_ := 49, res := some (st, 0, 0, bad, skew) } ∧
    s.cryEntry 0 0 = some (cryEntryOf (aCryEntry 0)) ∧ s.ok (cryBlk 0) = true ∧ ((fp32.decode bad).isZero = true ↔ bad = 0) ∧
    ((fp32.decode skew).isZero = true ↔ skew = 0) ∧ (s.cryStep 0 0).1 = tau := by decide
theorem witness_CrystallizerAndSpindleFaults : ∀ n ∈ [0, 1, 6], let s := { open0 live with tiles := [(0, { active := true, spn := n })] }
    s.alive = true ∧ s.domOn 36 = true ∧ ({ s with doms := s.doms.set 36 { st := .ret } } : State).domOn 36 = false ∧
    (s.tile 0).active = true ∧ (s.ctx (s.tile 0).ctx).st ≠ 0 ∧ s.up (cryBlk 0) = true ∧ ((s.tile 0).canFail = true ↔ n = 1) ∧
    (s.tile 0).spn = n ∧ (s.ctx (s.tile 0).ctx).st = 1 ∧ s.dev.osaux = true ∧ (live.tile 0).active = false := by decide

theorem witness_HarvestRunsItsPhases : ∀ phase ∈ [0, 1, 2, 3, 5], ∀ failed held : Bool,
    let s := { ctx0 { st := 1, phase := phase, tiles := 1, failedInst := failed, held := held } with crys := [(0, { st := 3 })], tiles := [(0, { spn := 4 })] }
    s.alive = true ∧ s.uninjected = true ∧ (s.ctx 0).phase = phase ∧ s.drained 0 = true ∧ (∀ t ∈ tilesOf (s.ctx 0).tiles, (s.cry t).st = 3) ∧
    s.noInsts (s.cryGroups 0) = true ∧ s.residueOf 0 = false ∧ s.testHolds 0 = false ∧ (s.ctx 0).timedOut = false ∧ (s.tile 0).spn = 4 ∧
    (s.ctx 0).failedInst = failed ∧ (s.ctx 0).held = held := by decide
theorem witness_HarvestRunsItsPhases_holds :
    let s := { ctx0 { st := 1, phase := 3, tiles := 1 } with ld := { state := 2 } }
    let r := { ctx0 { st := 1, phase := 3, tiles := 1 } with dev := { live.dev with test := { state := 1 } } }
    let q := { ctx0 { st := 1, phase := 3, tiles := 1 } with tiles := [(0, { expects := [anExpect] })] }
    s.owesHold 0 = true ∧ s.residueOf 0 = false ∧ r.owesHold 0 = false ∧ r.testHolds 0 = true ∧ q.residueOf 0 = true := by decide

/-! ## Witnesses: power, recovery, the recorder, the host port, the mailbox and boot -/

def dom3 (x : Dom) : State := { live with doms := live.doms.set 3 x }
theorem witness_VotesResolve : ∀ k ∈ [0, 7], ∀ v ∈ [0, 1, 2, 3], k < 8 ∧ v < 4 ∧ (({} : Dom).setVote k v).vote k = v := by decide
theorem witness_VotesResolve_control : let one := put 16 0 ||| put 0 1
    let all := putBit 24 true
    live.alive = true ∧ live.mayVote .osaux (one.fld 16 3) = true ∧ live.mayVote .fabric (one.fld 16 3) = false ∧ one.bit 24 = false ∧
    1 ≤ one.fld 0 7 ∧ one.fld 0 7 ≤ 83 ∧ (put 0 83).fld 0 7 = 83 ∧ 83 < (put 0 84).fld 0 7 ∧ (0 : W64).fld 0 7 = 0 ∧ all.bit 24 = true ∧
    live.mayVote .osaux (all.fld 16 3) = true := by decide
theorem witness_DomainTransitions : ∀ dest ∈ [Lvl.off, .ret], ∀ ab : Bool, let s := dom3 { st := .entering .on dest 0 ab }
    s.alive = true ∧ (s.dom 3).st = .entering .on dest 0 ab ∧ (dest = .ret ∨ dest ≠ .ret) := by decide
theorem witness_DomainTransitions_ramp : let s := dom3 { st := .off, votes := (({} : Dom).setVote 0 3).votes }
    s.alive = true ∧ s.mayRamp 3 = true ∧ (∀ e ∈ List.range 3, s.mayRamp e = false) ∧ live.mayRamp 3 = false := by decide +kernel
theorem witness_DomainTransitions_ramping : ∀ dest ∈ [Lvl.ret, .on], let s := dom3 { st := .ramping .off dest }
    s.alive = true ∧ (s.dom 3).st = .ramping .off dest ∧ s.domOn 3 = false ∧ (∀ b ∈ domBlks 3, (s.blk b).step = .idle) ∧
    (dest = .ret → ((s.arrive 3 .ret .reachedRet).settlePower 0).domOn 3 = false) ∧ (live.dom 3).st = .on := by decide +kernel
theorem witness_DomainTransitions_abort : ∀ t ∈ [11, 12], let s := { dom3 { st := .entering .on .off 0 false, votes := (({} : Dom).setVote 0 3).votes } with cclk := t }
    (s.dom 3).st = .entering .on .off 0 false ∧ Lvl.on.rank ≤ (s.target 3).rank ∧ s.cycling 3 = false ∧ (s.cclk < 0 + 12 ↔ t = 11) := by decide
theorem witness_TemperatureLimits : ∀ w : Bool, let s := { live with pins := { live.pins with tempWarn := w } }
    s.alive = true ∧ s.pins.tempWarn = w ∧ 100 ≤ (100 : Byte).toNat ∧ (99 : Byte).toNat < 100 ∧ (94 : Byte).toNat < 95 ∧ 95 ≤ (95 : Byte).toNat ∧
    105 ≤ (105 : Byte).toNat := by decide
theorem witness_WakesSupplyAndClocks : let s := live
    s.alive = true ∧ s.uninjected = true ∧ s.dev.osaux = true ∧ s.wakeMask 3 = [] ∧ s.pins.refclk = true ∧ bitOf s.pins.pll 0 = true ∧
    bitOf s.pins.pll 1 = true ∧ bitOf s.pins.pll (14 + 1) = true ∧ bitOf s.pins.pll 16 = true ∧ (live.flag 1 4).hostUp = false ∧
    (({ live with regs := [(blkR 8 0x048, 0x100)] } : State).flag 1 4).hostUp = true ∧ ({ live with dev := {} } : State).dev.osaux = false ∧
    bitOf ({ live.pins with pll := 0 } : Pins).pll 16 = false := by decide
theorem witness_PinsPowerAndReset : let s := State.reset
    s.pins.pwrEn = true ∧ s.pins.pwrGood = true ∧ s.pins.rst ≠ 2 ∧ s.alive = true ∧
    (({ s with cclk := 0, pins := { s.pins with rst := 2, rack := 5, refclk := true, pll := 0x1FFFF }, hst := { s.hst with keys := s.hst.keyFlash } } : State).romRun
      true).alive = true ∧ ({ s with pins := { s.pins with pwrEn := false, pwrGood := false } } : State).pins.pwrEn = false := by decide +kernel

theorem witness_LadderSteps : let s := { port0 { st := 3 } with regs := [(blkR 0 0x030, 1), (blkR (portB 0) 0x030, 1)] }
    s.alive = true ∧ (∀ b ∈ [0, portB 0], (s.rg (blkR b 0x030)).fld 0 32 ≠ 0 ∧ s.inReset b = false ∧ s.domOn (blkDom b) = true ∧ s.working b = true ∧
      (s.blk b).hung = false) ∧ s.dev.down = false ∧ (s.blk 5).step = .idle ∧ s.quiescent = true ∧ (ctx0 { st := 1 }).quiescent = false ∧
    s.working 5 = false ∧ ({ live with blks := [(5, { step := .engine 0 })] } : State).blk 5 = { step := .engine 0 } := by decide
/-- A port's step ends alone while its PLL is locked, and with the other three of its group while it is not. -/
theorem witness_LadderSteps_groups : let s := { live with blks := (List.range 4).map fun j => (portB (4 + j), { step := .engine j }) }
    s.stepMates (portB 5) = [portB 5] ∧ s.stepMates 5 = [5] ∧
    ({ s with pins := { s.pins with pll := s.pins.pll - 2 ^ 3 } } : State).stepMates (portB 5) = (List.range 4).map fun j => portB (4 + j) := by decide
theorem witness_DeviceResetPhases : ∀ n ∈ [2, 3, 4, 5], ∀ auto ∈ [0, 1], let s := { live with dev := { live.dev with down := true, phase := n }, regs := [(devR 0x150, auto <<< 32)] }
    s.alive = true ∧ s.dev.down = true ∧ s.dev.phase = n ∧ (s.rg (devR 0x150)).bit 32 = (auto == 1) ∧ s.dev.osaux = true ∧ s.hst.plan = none ∧
    s.dev.romRestart = false := by decide +kernel
theorem witness_DeviceResetPhases_steps : let s := live
    s.alive = true ∧ s.quiescent = true ∧ (s.blk 151).step = .idle ∧ (s.blk 152).step = .idle ∧ blkDom 5 ≠ 0 ∧ blkDom 2 = 0 ∧ s.dev.down = false := by decide
theorem witness_SelfTestsRun : ∀ st ∈ [0, 1, 2, 3], let s := { ctx0 { st := 1 } with dev := { live.dev with test := { code := 5, state := st } } }
    s.alive = true ∧ s.uninjected = true ∧ s.dev.test.state = st ∧ s.dev.test.tagged = false ∧ testBlks 1 31 = [arrBlk 31] ∧ testBlks 1 32 = [] ∧
    s.domOn (blkDom (arrBlk 31)) = true ∧ s.testNow 1 (blkDom (arrBlk 31)) = false ∧ live.testNow 1 (blkDom (arrBlk 31)) = true ∧ testTags 4 = true ∧
    testTags 5 = false ∧ ({ s with doms := s.doms.set 83 { st := .off } } : State).domOn (blkDom (arrBlk 31)) = false := by decide
theorem witness_SelfTestsRun_done : let s := { live with dev := { live.dev with test := { code := 5, state := 2 } } }
    let r := ((testBlks 5 0).foldl (fun s b => s.setBlk b { s.blk b with testing := false }) s).testLeaves 5 0
    s.dev.test.state = 2 ∧ s.dev.test.tagged = false ∧ r.uninjected = true := by decide

def anEvt (sev : Nat) : Evt := { kind := 1, code := 0, blk := 0, inst := 0, sev := sev }
/-- A log with n entries of severity v from slot k on. -/
def logOf (v k n : Nat) : Table Slot := (List.range' k n).map fun j => (j, .entry 1 (anEvt v))
theorem freeSlot_logOf (v n : Nat) : ∀ k, freeSlot (logOf v k n) k = if k + n < 65536 then some (k + n) else none := by
  induction n with
  | zero => intro k; rfl
  | succ n ih =>
    intro k
    have h := ih (k + 1)
    simp only [logOf] at h ⊢
    simp only [List.range'_succ, List.map_cons, freeSlot, Nat.lt_irrefl, if_false, h]
    rw [show k + 1 + n = k + (n + 1) by omega]
theorem victim_kept (sev v : Nat) (h : v ≤ sev) (n : Nat) : ∀ k (b : Nat × Nat × Nat), ((logOf v k n).foldl (fun best c => match c.2 with
    | .entry n e => if e.sev ≤ sev then olderSlot best (c.1, n, e.sev) else best
    | .lost => best) (some b)).isSome = true := by
  induction n with
  | zero => intro k b; rfl
  | succ n ih =>
    intro k b
    simp only [logOf, List.range'_succ, List.map_cons, List.foldl_cons, anEvt, h, if_true, olderSlot]
    have := ih (k + 1)
    simp only [logOf, anEvt] at this
    split <;> exact this _
theorem logOf_succ (v k n : Nat) : logOf v k (n + 1) = (k, .entry 1 (anEvt v)) :: logOf v (k + 1) n := by
  simp [logOf, List.range'_succ]
theorem victim_some (n : Nat) : (victim (logOf 1 0 (n + 1)) 1).isSome = true := by
  rw [logOf_succ]
  exact victim_kept 1 1 (Nat.le_refl 1) n 1 (0, 1, 1)
theorem victim_none (n : Nat) : ∀ k, victim (logOf 1 k n) 0 = none := by
  induction n with
  | zero => intro k; rfl
  | succ n ih =>
    intro k
    rw [logOf_succ]
    have h := ih (k + 1)
    unfold victim at h ⊢
    rw [List.foldl_cons]
    exact h
theorem witness_RecorderPlacesEvents : let s := { live with rcd := { q := [anEvt 2], head := 2 ^ 48 - 1 } }
    s.alive = true ∧ s.uninjected = true ∧ s.rcd.q = [anEvt 2] ∧ live.alive = true ∧ live.rcd.q = [] ∧ freeSlot s.rcd.log 0 = some 0 ∧ Table.rising s.rcd.log = true ∧
    (∀ x ∈ s.rcd.log, x.1 < 65536) := by decide
/-- Where every slot is taken by an entry of severity 1, an event of severity 1 has a place, and one of severity 0 has none. -/
theorem witness_RecorderPlacesEvents_full : ∀ n, n = 65535 →
    freeSlot (logOf 1 0 (n + 1)) 0 = none ∧ (victim (logOf 1 0 (n + 1)) 1).isSome = true ∧ victim (logOf 1 0 (n + 1)) 0 = none := by
  intro n hn
  refine ⟨by rw [freeSlot_logOf, if_neg (by omega)], victim_some n, victim_none (n + 1) 0⟩

/-- 48 bytes, big-endian; a public key; and a signature. -/
def be48 (n : Nat) : List Byte := (leBytes 48 n).reverse
def keyOf (x y : Nat) : List Byte := [4] ++ be48 x ++ be48 y
def sigOf (r s : Nat) : List Byte := be48 r ++ be48 s

/-- An owner key, whose private key is 7, and its identifier; and another key. -/
def ownerKey : List Byte :=
  keyOf 0x6460F955EFDCBF3BF7393081DDF04A64747781BC8956C1E5FF47BE522F7F758244AE054E91E8AA160C76DC7302BCF181
    0x7A30D2AF9219E43D33BE0B515A36F3C95C17B17DCAD568EF85F51EAE54657C72ED3CA9972DD90DA5FC54207824DB4187
def ownerId : Nat := 0xEB501D0E993DBBC2
def otherKey : List Byte :=
  keyOf 0x318CCBF708397F07ABA57E45A1B99B3DA92B638FAB9B5123CB8050CB12FF55D02CA04884153F3CA5BE9A6FA4D102FDCC
    0x06C64153906E5540A6F5562626E4CF07A0A7709206E67FCD6519B9CB144A5AF68A892DF80129727A5F0C4D7C799BDD7A
/-- Signatures of the owner key: of an enrolment of otherKey, of the owner key's own removal and of a token for 60 seconds under nonce 0, each for the part whose
identity key has identifier 7. -/
def enrolSig : List Byte := sigOf 0x7B63205BF00DDAE73B17452B6A27EBF53DF581348C6949F83EE1B6FCC7463BBE3C11EF6596A3B8897D7CC85B3035F11F
  0x3B653753593F6888596958A5A53C7AD9A3328986674000B440D97577ECE22E95AD23BD7F89C5D7A546ABAE54C6FCE9E6
def removeSig : List Byte := sigOf 0x0D3EC4DFCE2647725100DABEA7B5F59F465848A4B4FBB6080AC96DDF237F84F4FBC1247651C2770D2CEBAB9FD2412DFB
  0x0A4925F01847340B19B992585315A36BC5EE14DAD58F221D7F27BFD26362ABAF595E7539FE7EF51528F08AC685FB8BF9
def tokenSig : List Byte := sigOf 0x29D17C36E8FAC6BE8222A33A24CFCC959504EE698D6CE046F650CDCE31A1F42A019ED5E75838A2E1E1EBFA3EBD501097
  0x400AF03AD9AB03B4DC207076ED08C107D6D09C2A07206EDD192337FAB8EB50476C71A3E18EF44B217C03EE86949365E8

/-- live with a mailbox command of this code and payload, one owner key, and n staged bytes in stack 0. -/
def mail (code : Nat) (payload : List Byte) (n : Nat) (mem : List Byte) : State :=
  { live with
    regs := (blkR 8 0x088, BitVec.ofNat 64 code) :: (List.range (ceilDiv payload.length 8)).map fun i => (blkR 8 (0x1000 + 8 * i), BitVec.ofNat 64 (u payload (8 * i) 8)),
    hst := { live.hst with keys := [(0, ownerKey)], fwKey := sha384 ownerKey, mbRange := some (0, n) }, tiles := [(0, { linkUp := true })],
    mem := (List.range mem.length).zip mem, undef := [(0, 1)] }
theorem test_owner_id : keyId ownerKey = ownerId ∧ (ecPoint ownerKey).isSome = true ∧ (ecPoint otherKey).isSome = true ∧ (ecPoint (keyOf 1 1)).isNone = true := by
  decide +kernel
theorem witness_MailboxCommandsAnswer : ∀ k ∈ [0, 1, 2, 3, 4, 5, 6, 7, 8, 9, 10, 11, 12], let s := mail k [] 0 []
    s.alive = true ∧ s.mbBusy k = true ∧ s.mbBusy s.mbCode = true ∧ s.mbBusy (k + 1) = false ∧ s.quiescent = true ∧ s.noKeys = false ∧ live.noKeys = true ∧
    s.secOk = true ∧ s.ld.state ≠ 3 ∧ s.freeKeySlot = some 1 ∧ s.inForce = none ∧ u (s.mbPayload 2) 0 2 ≤ s.hst.fw.elim 0 Fw.svn := by decide +kernel
theorem witness_MailboxCommandsAnswer_refused : let r := { mail 4 [] 0 [] with ctxs := [(0, { st := 1 })], blks := [(9, { step := .engine 0 })], ld := { state := 3 } }
    r.quiescent = false ∧ r.secOk = false ∧ r.ld.state = 3 ∧ (mail 7 (leBytes 2 1) 0 []).hst.fw.elim 0 Fw.svn < u ((mail 7 (leBytes 2 1) 0 []).mbPayload 2) 0 2 := by
  decide +kernel
/-- OWNER_ENROL without a key in the part, with a payload that is no key, and with a signature that does not verify. -/
theorem witness_MailboxCommandsAnswer_enrol : let s := mail 2 (otherKey ++ bytes 96 []) 0 []
    s.mbBusy 2 = true ∧ s.quiescent = true ∧ (ecPoint (s.mbPayload 97)).isNone = false ∧ (ecPoint ((mail 2 [] 0 []).mbPayload 97)).isNone = true ∧
    ({ s with hst := { s.hst with keys := [] } } : State).noKeys = true ∧ s.noKeys = false ∧
    (s.secOk && s.signedByAny (s.mbSigned 97) (s.mbSig 97)) = false := by decide +kernel
/-- OWNER_ENROL with the signature that authorises it, in a store with a free slot and in a full one. -/
theorem witness_MailboxCommandsAnswer_enrolled (h : Config.idKeyId = 7) : ∀ full : Bool,
    let s := { mail 2 (otherKey ++ enrolSig) 0 [] with hst := { (mail 2 [] 0 []).hst with keys := if full then (List.range 4).map fun k => (k, ownerKey) else [(0, ownerKey)] } }
    s.mbBusy 2 = true ∧ s.quiescent = true ∧ (ecPoint (s.mbPayload 97)).isNone = false ∧ s.noKeys = false ∧
    (s.secOk && s.signedByAny (s.mbSigned 97) (s.mbSig 97)) = true ∧ s.freeKeySlot = if full then none else some 1 := by
  unfold State.mbSigned
  rw [h]
  decide +kernel
/-- OWNER_REMOVE of a key that is not there, of one that is with a signature that does not verify, and with one that does. -/
theorem witness_MailboxCommandsAnswer_remove : let s := mail 3 (leBytes 8 ownerId) 0 []
    s.mbBusy 3 = true ∧ s.quiescent = true ∧ (mail 3 [] 0 []).keySlot (u ((mail 3 [] 0 []).mbPayload 8) 0 8) = none ∧ s.keySlot (u (s.mbPayload 8) 0 8) = some 0 ∧
    (s.secOk && s.signedByAny (s.mbSigned 8) (s.mbSig 8)) = false := by decide +kernel
theorem witness_MailboxCommandsAnswer_removed (h : Config.idKeyId = 7) : let s := mail 3 (leBytes 8 ownerId ++ removeSig) 0 []
    let r := { s with img := some { hdr := bytes 128 [(0x50, 8, ownerId)] } }
    s.mbBusy 3 = true ∧ s.quiescent = true ∧ s.keySlot (u (s.mbPayload 8) 0 8) = some 0 ∧ (s.secOk && s.signedByAny (s.mbSigned 8) (s.mbSig 8)) = true ∧
    s.inForce = none ∧ r.inForce.isSome = true ∧ r.imgKey = ownerId ∧ r.quiescent = true := by
  unfold State.mbSigned
  rw [h]
  decide +kernel
/-- DEBUG_ENABLE with a token that does not verify, and with one that does. -/
theorem witness_MailboxCommandsAnswer_debug : let s := mail 10 (leBytes 4 60) 0 []
    s.mbBusy 10 = true ∧ s.noKeys = false ∧ (s.secOk && s.signedByAny (s.tokenMsg (u (s.mbPayload 4) 0 4)) (s.mbSig 4)) = false := by decide +kernel
theorem witness_MailboxCommandsAnswer_debugging (h : Config.idKeyId = 7) : let s := mail 10 (leBytes 4 60 ++ tokenSig) 0 []
    s.mbBusy 10 = true ∧ s.noKeys = false ∧ (s.secOk && s.signedByAny (s.tokenMsg (u (s.mbPayload 4) 0 4)) (s.mbSig 4)) = true := by
  unfold State.tokenMsg
  rw [h]
  decide +kernel

theorem mail_reads (code : Nat) (p : List Byte) (n : Nat) (bs : List Byte) (o : Nat) (h : o < 0x1000) : ((mail code p n bs).byteAt o).isSome = true := by
  have hp : (mail code p n bs).place_ o = .hbm 0 o := by
    simp only [State.place_, mail, live, State.reset, stackOf, stackSize]
    rw [if_pos (by omega)]
    simp
    omega
  simp only [State.byteAt, State.rawByte, hp]
  simp only [mail, live, State.reset, Table.find]
  split
  · rfl
  · simp [Table.get]
theorem mail_wordOk (code : Nat) (p : List Byte) (n : Nat) (bs : List Byte) (o : Nat) (h : o < 0xFF0) : (mail code p n bs).wordOk o = true := by
  have hr : ∀ k o, o + k < 0x1000 → ((mail code p n bs).rd o k).isSome = true := by
    intro k
    induction k with
    | zero => exact fun _ _ => rfl
    | succ k ih =>
      intro o h
      obtain ⟨b, hb⟩ := Option.isSome_iff_exists.1 (mail_reads code p n bs o (by omega))
      obtain ⟨c, hc⟩ := Option.isSome_iff_exists.1 (ih (o + 1) (by omega))
      simp [State.rd, hb, hc]
  exact hr 8 _ (by omega)
theorem get_of_find {α : Type} (d : α) (m : Table α) (k : Nat) (v : α) (h : Table.find m k = some v) : m.get d k = v := by
  induction m with
  | nil => cases h
  | cons x m ih =>
    simp only [Table.find, Table.get] at h ⊢
    split
    · rename_i e; rw [if_pos e] at h; exact Option.some.inj h
    · rename_i e; rw [if_neg e] at h; exact ih h
theorem find_zip (bs : List Byte) : ∀ k i (h : i < bs.length), Table.find ((List.range' k bs.length).zip bs) (k + i) = some bs[i] := by
  induction bs with
  | nil => exact fun _ i h => absurd h (Nat.not_lt_zero i)
  | cons b bs ih =>
    intro k i h
    simp only [List.length_cons, List.range'_succ, List.zip_cons_cons, Table.find]
    cases i with
    | zero => simp
    | succ i =>
      rw [if_neg (by omega), show k + (i + 1) = k + 1 + i by omega, ih (k + 1) i (Nat.lt_of_succ_lt_succ h)]
      rfl
/-- Staged bytes are what the mailbox command reads, and reading them only counts. -/
theorem mail_staged (code : Nat) (p : List Byte) (bs : List Byte) (n : Nat) (hn : bs.length = n) (h : n = 512 ∨ n = 552) :
    (mail code p n bs).mbStaged = (some bs, (mail code p n bs).volume 0 n false) := by
  have hw : (mail code p n bs).way none .sys 0 n false = (0, mail code p n bs) := by
    rcases h with rfl | rfl <;> rfl
  have hl := (mail code p n bs).load_whole 0 n rfl rfl (by
    have e : (mail code p n bs).memOk 0 n = live.memOk 0 n := rfl
    rw [e]
    rcases h with rfl | rfl <;> decide +kernel) fun w m => mail_wordOk _ _ _ _ _ (by
    have : w < n + 8 := by
      rcases h with rfl | rfl <;> simp [wordsOf] at m <;> omega
    omega)
  have hr : (mail code p n bs).rd 0 n = some bs := by
    have := (mail code p n bs).rd_listed rfl bs 0 fun i hi => by
      have := find_zip bs 0 i hi
      rw [← List.range_eq_range'] at this
      exact this
    rw [hn] at this
    exact this
  show (match some (0, n) with
    | none => (none, mail code p n bs)
    | some (o, n) => let ((st, bs), s) := (mail code p n bs).fetch none .sys o n; (if st = 0 then some bs else none, s)) = _
  simp only [State.fetch, hw, hl, hr]
  rfl

/-- A deployment extract signed under the owner key. -/
def planBytes : List Byte :=
  ascii "MBPLAN" ++ bytes 450 [(0x3C - 6, 4, 1), (0x40 - 6, 8, ownerId)] ++
  sigOf 0x746F20945A91D52BA4AC0D1499008C7B4F4FE2951E9B2FC9EE6435AABFCE8519E866314F4CFCDECC68724BA7654B8A97
  0x60E1A94D25BFA4D9CF5BEA39CB015A5E046C27CF9F13AE459652596F7C8458C7E4BA6D45E2D8B5D6A9D160BBA2D54817
theorem witness_StagedObjectsAreChecked : let s := mail 1 [] 552 planBytes
    let r := s.volume 0 552 false
    s.mbStaged = (some planBytes, r) ∧ s.alive = true ∧ s.mbBusy 1 = true ∧ s.quiescent = true ∧ s.mbLength = 552 ∧ (mail 1 [] 551 []).mbLength ≠ 552 ∧
    r.inForce = none ∧ r.secOk = true ∧ planForm planBytes = true ∧ planForm [] = false ∧ (r.keySlot (planOf planBytes).key).isNone = false ∧
    r.signedBy (planOf planBytes).key (planBytes.take 0x1C8) (slice planBytes 0x1C8 96) = true :=
  ⟨mail_staged 1 [] planBytes 552 (by decide +kernel) (.inr rfl), by decide +kernel⟩
theorem witness_StagedObjectsAreChecked_refused : let bad := planBytes.take 0x1C8 ++ bytes 96 []
    let s := mail 1 [] 552 bad
    let r := s.volume 0 552 false
    s.mbStaged = (some bad, r) ∧ r.secOk = true ∧ r.signedBy (planOf bad).key (bad.take 0x1C8) (slice bad 0x1C8 96) = false ∧
    live.keySlot (planOf bad).key = none ∧ ({ r with blks := [(9, { step := .engine 0 })] } : State).secOk = false ∧
    ({ s with tiles := [] } : State).mbStaged.1 = none :=
  ⟨mail_staged 1 [] _ 552 (by decide +kernel) (.inr rfl), by decide +kernel⟩
/-- A firmware image of the least length and the highest security version, signed under the owner key. -/
def fwNew : List Byte :=
  fwMagic ++ bytes 24 [(0, 4, 512), (16, 2, 0xFFFF)] ++ ownerKey ++ bytes 287 [] ++
  sigOf 0x4D0BFEAC9BFD1564268C0A910C4F9601388F576AC92467F7CA9D72EDC36CE5B387E9B66563D3AF2F4B857EAB44FAA702
  0x1BA2CEBF06EE2945A25714E1A57DB65640C6C75622E3A6F549D4238AE20498511015281040EB4575C96D9A663534753C
theorem test_fwNew : fwNew.length = 512 ∧ u fwNew 8 4 = 512 ∧ u fwNew 0x18 2 = 0xFFFF ∧ fwNew.take 8 = fwMagic ∧ fwSigner fwNew = ownerKey ∧ fwSigned fwNew = true := by
  decide +kernel
/-- It passes whatever the fuses of the part hold. -/
theorem fwNew_passes (m : Nat) (h : m ≤ 0xFFFF) : fwCheck fwNew 512 m (sha384 ownerKey) true = 0 := by
  obtain ⟨_, h1, h2, h3, h4, h5⟩ := test_fwNew
  have h6 : (fwNew.isEmpty || allZero fwMagic) = false := by decide +kernel
  unfold fwCheck
  rw [h1, h2, h3, h4, h5, h6]
  simp [Nat.not_lt.mpr h]
theorem svnMin_le (s : State) (h : s.hst.svnMin = 0) : s.svnMin ≤ 0xFFFF := by
  unfold State.svnMin
  have := Config.svnFused.isLt
  omega
theorem fwNew_ok (s : State) (len : Nat) (hl : len = 512) (hk : s.hst.fwKey = sha384 ownerKey) (hv : s.hst.svnMin = 0) :
    fwCheck fwNew len s.svnMin s.hst.fwKey true = 0 := by
  rw [hl, hk]
  exact fwNew_passes _ (svnMin_le s hv)
theorem witness_StagedObjectsAreChecked_firmware : let s := mail 6 [] 512 fwNew
    let r := s.volume 0 512 false
    s.mbStaged = (some fwNew, r) ∧ s.mbBusy 6 = true ∧ s.quiescent = true ∧ s.mbLength ≤ 6291456 ∧ r.secOk = true ∧ r.hst.fwKey = sha384 ownerKey ∧
    (mail 6 [] 6291456 []).mbLength ≤ 6291456 ∧ 6291456 < (mail 6 [] 6291457 []).mbLength ∧ 524288 < (mail 8 [] 524289 []).mbLength ∧
    laneTableOk (ascii "MBLT" ++ bytes 28 [(0, 2, 1)]) = true ∧ laneTableOk [] = false :=
  ⟨mail_staged 6 [] fwNew 512 (by decide +kernel) (.inl rfl), by decide +kernel⟩
theorem witness_StagedObjectsAreChecked_accepted : let r := (mail 6 [] 512 fwNew).volume 0 512 false
    fwCheck fwNew fwNew.length r.svnMin r.hst.fwKey r.secOk = 0 := by
  have h : ((mail 6 [] 512 fwNew).volume 0 512 false).hst.fwKey = sha384 ownerKey ∧ ((mail 6 [] 512 fwNew).volume 0 512 false).hst.svnMin = 0 ∧
    ((mail 6 [] 512 fwNew).volume 0 512 false).secOk = true := by decide +kernel
  show fwCheck _ _ _ _ _ = 0
  rw [h.1, h.2.2, test_fwNew.1]
  exact fwNew_passes _ (svnMin_le _ h.2.1)
/-- One image for each reason of R367. -/
theorem witness_StagedObjectsAreChecked_reasons : let k := sha384 ownerKey
    let old := fwNew.take 0x18 ++ bytes 2 [] ++ fwNew.drop 0x1A
    fwCheck [] 0 0 k true = 1 ∧ fwCheck (ascii "X" ++ fwNew) 513 0 k true = 2 ∧ fwCheck fwNew 511 0 k true = 6 ∧ fwCheck fwNew 512 0 [] true = 3 ∧
    fwCheck old 512 0 k true = 4 ∧ fwCheck fwNew 512 0x10000 k true = 5 := by decide +kernel
/-- The ROM waits with the image staged, or has it in flash. -/
def rom (boot : Nat) : State :=
  { live with hst := { boot := boot, fwKey := sha384 ownerKey, flash := { fw := fwNew }, staging := (List.range 512).zip fwNew }, dev := {},
              regs := [(blkR 8 0x070, 512)] }
theorem stagingWrite_keeps (s : State) (off : Nat) (bs : List Byte) :
    (s.stagingWrite off bs).hst.fwKey = s.hst.fwKey ∧ (s.stagingWrite off bs).hst.svnMin = s.hst.svnMin ∧ (s.stagingWrite off bs).hst.boot = s.hst.boot := by
  unfold State.stagingWrite
  generalize bs.zip (List.range bs.length) = l
  induction l generalizing s with
  | nil => exact ⟨rfl, rfl, rfl⟩
  | cons x l ih =>
    rw [List.foldl_cons]
    split <;> exact ih _
theorem bootState_keeps (s : State) (n : Nat) : (s.bootState n).hst.fwKey = s.hst.fwKey ∧ (s.bootState n).hst.svnMin = s.hst.svnMin := by
  unfold State.bootState
  split
  · exact ⟨rfl, rfl⟩
  · rw [State.msix_hst]; exact ⟨rfl, rfl⟩
theorem rom_hst (b : Nat) : (rom b).hst.fwKey = sha384 ownerKey ∧ (rom b).hst.svnMin = 0 ∧ (rom b).hst.staging = (List.range 512).zip fwNew := by
  simp only [rom, and_self]
theorem witness_BootDebugAndLinks_rom : let s := rom 0
    let x := (s.stagingWrite 0 fwNew).bootState 1
    s.alive = true ∧ s.uninjected = true ∧ s.hst.boot = 0 ∧ s.dev.osaux = false ∧ (s.rg (blkR 8 0x068)).bit 0 = false ∧ s.hst.flash.fw = fwNew ∧
    fwCheck fwNew (u fwNew 8 4) x.svnMin x.hst.fwKey true = 0 := by
  refine ⟨by decide, by decide, rfl, rfl, by decide, rfl, ?_⟩
  obtain ⟨k, v⟩ := bootState_keeps ((rom 0).stagingWrite 0 fwNew) 1
  obtain ⟨k2, v2, _⟩ := stagingWrite_keeps (rom 0) 0 fwNew
  exact fwNew_ok _ _ test_fwNew.2.1 (k.trans (k2.trans (rom_hst 0).1)) (v.trans (v2.trans (rom_hst 0).2.1))
theorem witness_BootDebugAndLinks_go : let s := rom 2
    let len := (s.rg (blkR 8 0x070)).fld 0 23
    let v := s.bootState 1
    s.alive = true ∧ s.uninjected = true ∧ s.hst.boot = 2 ∧ len = 512 ∧ s.staged (min len 6291456) = fwNew ∧
    fwCheck fwNew len v.svnMin v.hst.fwKey true = 0 := by
  have hl : ((rom 2).rg (blkR 8 0x070)).fld 0 23 = 512 := by decide
  refine ⟨by decide, by decide, rfl, hl, ?_, ?_⟩
  · rw [hl]
    refine List.ext_getElem (by simp [State.staged, test_fwNew.1]) fun i h1 h2 => ?_
    have := find_zip fwNew 0 i h2
    rw [← List.range_eq_range', test_fwNew.1, Nat.zero_add] at this
    simp only [State.staged, List.getElem_map, List.getElem_range]
    rw [(rom_hst 2).2.2]
    exact get_of_find _ _ _ _ this
  · obtain ⟨k, v⟩ := bootState_keeps (rom 2) 1
    exact fwNew_ok _ _ hl (k.trans (rom_hst 2).1) (v.trans (rom_hst 2).2.1)
theorem witness_BootDebugAndLinks_rejected : let s : State := { live with hst := { boot := 2 } }
    (let v := s.bootState 1; fwCheck (s.staged 0) 0 v.svnMin v.hst.fwKey true = 0 + 1) ∧
    (let x := (s.stagingWrite 0 []).bootState 1; fwCheck [] (u [] 8 4) x.svnMin x.hst.fwKey true = 0 + 1) := by decide +kernel
theorem witness_BootDebugAndLinks : let s := { live with hst := { boot := 2, debug := true, mbPlaced := true } }
    s.alive = true ∧ s.uninjected = true ∧ s.hst.debug = true ∧ s.hst.mbPlaced = true ∧ live.hst.debug = false ∧ live.hst.mbPlaced = false ∧ s.quiescent = true ∧
    (ctx0 { st := 1 }).quiescent = false ∧ s.ld.state ≠ 4 ∧
    s.dropImage.ld.state ≠ 4 ∧ s.hostUp = false ∧ (s.tile 0).linkUp = false ∧ ((tile0 { linkUp := true }).tile 0).linkUp = true ∧ s.domOn 20 = true ∧
    s.up 9 = true ∧ s.dev.osaux = true ∧ ({ live with regs := [(blkR 8 0x048, 0x100)] } : State).hostUp = true ∧
    (∀ w ∈ [1, 2, 4], (w : Fin 8) ∈ [1, 2, 4]) ∧ ((3 : Fin 8) ∉ [1, 2, 4]) ∧ 1 ≤ (1 : Fin 16).val ∧ (7 : Fin 16).val ≤ 7 ∧ 7 < (8 : Fin 16).val := by decide +kernel
def linked (boot : Nat) : State := { live with regs := [(blkR 8 0x048, 0x100)], hst := { boot := boot } }
theorem witness_HostWindowAccesses : ∀ boot ∈ [2, 3], let s := linked boot
    s.alive = true ∧ s.hostReaches = true ∧ (s.upset [(0, .uncorrectable)]).hostTlp.1 = true ∧ (s.upset [(0, .uncorrectable)]).hostTlp.2.hst.boot = boot ∧ live.hostReaches = false ∧
    ({ s with blks := [(8, { inject := [(1, 1)] })] } : State).hostTlp.1 = false := by decide
theorem witness_EveryStepEmptiesTheCycle : let s := State.reset
    s.newEvts = [] ∧ s.newVecs = [] ∧ (s.hst.mbPlaced = true ∨ s.hst.mbOut = []) ∧ step s = .next s.tick ∧ s.tick.alive = true :=
  ⟨rfl, rfl, Or.inr rfl, rfl, rfl⟩
theorem witness_StepRunsTheFrontCommand : State.reset.pending = [] := rfl

/-! ## The spec's worked numbers -/

/-- The state after a command; the state before it where it does not answer one. -/
def after (c : Instr) (s : State) : State :=
  match step { s with pending := [c] } with
  | .next t => t
  | _ => s

/-- A decimal number n / d that no binary format need hold exactly, as the nearest FP32 value. -/
def dec (neg : Bool) (n d : Nat) : Fp := let x := fp32.rnd ((Fp.ofNat n).div (Fp.ofNat d)); if neg then x.neg else x

/-- Table 5-3. -/
theorem test_conversions_of_table_5_3 : ∀ r ∈ [((false, 1, 10), [0x1D, 0x2E, 0x0]), ((false, 1, 1), [0x38, 0x3C, 0x2]), ((false, 5, 1), [0x4A, 0x45, 0x6]),
      ((false, 7, 1), [0x4E, 0x47, 0x7]), ((true, 300, 1), [0xF9, 0xDD, 0xF]), ((false, 70000, 1), [0x7F, 0x7B, 0x7])],
    [3, 4, 5].map (fun f => ((fmtOf f).round false (dec r.1.1 r.1.2.1 r.1.2.2)).code) = r.2 := by decide +kernel
/-- Table 5-3 with nan_on_overflow. -/
theorem test_nan_on_overflow : [3, 4, 5].map (fun f => (fmtOf f).round true (dec false 70000 1)) = [⟨0x80, true, false⟩, ⟨0x7E, true, false⟩, ⟨0x8, true, false⟩] := by
  decide +kernel
/-- The INT8 expansion of chapter 05. -/
theorem test_int8_expansion : [(0x11, 0x00FD3E80), (0xFD, 0x00FD3E80), (0x64, 0x00FD3E80), (0x80, 0x00FD3E80), (0x7F, 0x00804000)].map
    (fun p => (expandZp 6 3 false p.1 p.2).code) = [0x4A, 0x00, 0x5D, 0xE0, 0x7F] := by decide +kernel
/-- Table 5-6: one group of class K. -/
theorem test_group_alignment : let row := fun l : List Nat => (l ++ List.replicate 9 0).map fun c => operand 3 c 127
    (entrySum 2 (row [0x54, 0xCD, 0x2E, 0x1C, 0xBA, 0x40, 0x88]) (row [0x57, 0x44, 0x31, 0x32, 0x36, 0x40, 0x46])).apply 0 = 0x4323A000 := by decide +kernel
/-- Table 5-7: the two blocks of ENCODE that are not zero. -/
theorem test_encoded_blocks : let b := fun xs => let e := encBlock (fmtOf 3) false xs; (e.scale, e.codes, e.flushed)
    b [dec false 1 1, dec true 5 2, dec false 3 4, dec false 3 1, dec true 1 10, .zero, dec false 5 1, dec false 29 4] =
      (0x79, [0x68, 0xF2, 0x64, 0x74, 0xCD, 0x00, 0x7A, 0x7E], 0) ∧
    b [dec false 1000 1, dec false 1 1000, dec true 1 500, dec false 1 2, .zero, .zero, .zero, .zero] =
      (0x81, [0x78, 0x00, 0x00, 0x20, 0x00, 0x00, 0x00, 0x00], 2) := by decide +kernel
/-- The addresses of chapter 06. -/
theorem test_addresses : addrChip 0x4130008280001000 = 4172 ∧ live.place_ (addrOff 0x4130008280001000) = .store 5 0x1000 ∧
    live.place_ 0x1234567000 = .hbm 1 0x634567000 ∧ ({ live with striped := true } : State).place_ 0x1234567000 = .hbm 7 0x2468AC000 := by decide +kernel
/-- The shards of chapter 10. -/
theorem test_shards : colChunks 1 0 1000000 = 977 ∧ shard 8 977 7 = (861, 977) := by decide +kernel
/-- Table 11-5: limb 5 at each hop, and the result. -/
theorem test_wide_sum : let c := fun code => (enter false (-69) 0 code).code
    let a := c 0x4B800000
    let b := (wAdd a (c 0x3F800000)).1
    let d := (wAdd b (c 0x3F800000)).1
    let e := (wAdd d (c 0xCB800000)).1
    [a, b, d, e].map (wLimb · 5) = [0x20000000, 0x20000020, 0x20000040, 0x40] ∧ (List.range 5).all (fun j => wLimb d j == 0) = true ∧
    wRound 0 (-69) e = (0x40000000, false) := by decide +kernel
/-- The update of Table 12-6 for elements 0 and 3 of chip 4,172, given s. -/
theorem test_crystallizer_update : [(0x3F000000, 1005, 1000), (0x3F800000, 101, 100)].map (fun x =>
    bf16.enc (cryW1 (dec false 133273 100000000) (fp32.decode x.1) (dec false x.2.1 x.2.2))) = [0x3EFF, 0x3F80] := by decide +kernel
/-- The power cap of chapter 14. -/
theorem test_power_cap : nextDuty 0 63 2450 2200 48 false = 10 ∧ nextDuty 10 63 2240 2200 48 false = 12 ∧ nextDuty 12 63 2180 2200 48 false = 12 := by decide
/-- The deflection of chapter 08: P27 and P40 tie, P01 left out as its wheel is; with P26 at 1,000 flits step 2 takes it. -/
def crowded (p26 : Nat) : State :=
  let q := fun n : Nat => ({ st := 3, nodes := [(0, { q := [{ pkt := { kind := 0, flits := n }, frm := none, since := 0 }] })] } : Port)
  { live with ports := [(9, q 40), (12, { st := 3 }), (25, q 1310), (26, q p26), (27, q 35), (40, q 35)], regs := [(blkR 3 (0x80000 + 8 * 9030), 0x8000230300001A19)] }
theorem test_deflection : (crowded 1180).choose (some 12) 9030 [] 0 = .put 27 3 ∧ (crowded 1000).choose (some 12) 9030 [] 0 = .put 26 2 ∧
    tenthsToNs (608 + 10 * 36) = 61 := by decide +kernel
/-- The standard check value of CRC-32C. -/
theorem test_crc32c : crc32c (ascii "123456789") = 0xE3069283 := by decide +kernel

/-- The published digest of "abc". -/
theorem test_sha384 : beNat (sha384 (ascii "abc")) =
    0xCB00753F45A35E8BB5A03D699AC65007272C32AB0EDED1631A8B605A43FF5BED8086072BA1E7CC2358BAECA134C825A7 := by decide +kernel

/-! ## One step of some commands -/

theorem test_take_subtracts : let t := after (.take 0 3 5) (running (tallied {}))
    (t.tally 0 3).count = 0 ∧ (t.tile 0).pc = 1 ∧ (t.tile 0).spn = 1 := by decide +kernel
theorem test_wait_holds : let t := after (.wait 0 3 6) (running (tallied {}))
    (t.tally 0 3).count = 5 ∧ (t.tile 0).pc = 0 ∧ (t.tile 0).spn = 2 := by decide +kernel
theorem test_endloop : ((after (.endloop 0) (running { pc := 9, loops := [(4, 2)] })).tile 0).pc = 4 ∧
    ((after (.endloop 0) (running { pc := 9, loops := [(4, 1)] })).tile 0).pc = 10 := by decide +kernel
theorem test_load_without_image : ((after (.ctxOpen 0 none) live).rg (blkR 4 0x060)).fld 24 8 = 1 := by decide +kernel
theorem test_temp_warn : let t := after (.tempWarn 3 100) live
    t.pins.tempWarn = true ∧ (t.blk 2).fault.bit 5 = true ∧ (after (.tempWarn 3 99) live).pins.tempWarn = false := by decide +kernel
theorem test_vote_ret : let t := after (.pwrVoteCtrl .osaux (put 8 2 ||| put 0 49)) live
    (t.dom 49).vote 0 = 2 ∧ (t.dom 48).vote 0 = (live.dom 48).vote 0 := by decide +kernel
theorem test_misaligned : (after (.misalignedAccess .osaux 0x42 4) live).out = [.readData .osaux 0x42 0] := by decide +kernel
theorem test_retired_step_counts : ((after (.stepEnd 0) (running {})).tile 0).spn = 4 := by decide +kernel
theorem test_remote_write_lands : let s := open0 (tile0 { linkUp := true })
    let t := after (.remoteRequestArrival (pktSeal { aReq 1 with priv := true, length := 2, data := [0x12, 0x34] }) []) s
    (Table.find t.mem 0, Table.find t.mem 1, Table.find t.mem 2) = (some 0x12, some 0x34, none) := by decide +kernel
theorem test_empty_queue_counts_a_cycle : (match step live with | .next t => t.cclk | _ => 7) = 1 := by decide +kernel


end Sys2Proof.Tests
end

section
/-!
SUPPORT. Writes of memory and accesses of registers (chapters 00, 01 and 06): what an access of each kind does once it is delivered, and from it the statements that a
write stores its bytes, that a register is written as its access code says, and what a read answers.
-/
namespace Sys2Proof.Machine

/-! ## Writes of memory (R5, R130, R137) -/

/-- Nothing is stored where a controller of the memory does not work (R336). -/
theorem State.save_of_not_memOk (s : State) (o : Nat) (bs : List Byte) (h : s.memOk o bs.length = false) : s.save o bs = (3, s) := by
  simp [State.save, h]

/-- Settles O12: before the bytes are stored the memory reads as it did, and the store changes the bytes written alone. -/
theorem writesStoreTheirBytes : Obligations.WritesStoreTheirBytes := by
  intro s o bs
  exact ⟨fun hl => (s.save_reads o bs hl).1, fun hl => (s.save_reads o bs hl).2, s.save_of_not_memOk o bs⟩

/-! ## What each register command acts with -/

theorem exec_regWrite_eq (src : Src) (off : Nat) (half : Bool) (v : W64) (s : State) :
    exec (.regWrite src off half v) s = act s fun s => s.regWrite src off half v := rfl

theorem exec_rcRead_eq (src : Src) (off : Nat) (half : Bool) (s : State) :
    exec (.rcRead src off half) s = act s fun s => s.regRead src off half := rfl

theorem exec_misalignedAccess_eq (src : Src) (off size : Nat) (s : State) :
    exec (.misalignedAccess src off size) s = act s fun s => s.misaligned src off size := rfl

theorem exec_fabricRegAccess_eq (c : Fin 64) (off : Nat) (half : Bool) (w : Option W64) (s : State) :
    exec (.fabricRegAccess c off half w) s = act s fun s => s.fabricAccess c off half w := rfl

/-! ## The delivery of an access (R6, R21, R361) -/

/-- The state in which a delivered access acts: one of the host is a unit of work of the host port. -/
def State.delivered (s : State) (src : Src) : State := if src = .host then s.progress 8 else s

@[simp] theorem State.delivered_regs (s : State) (src : Src) : (s.delivered src).regs = s.regs := by
  unfold State.delivered; split <;> rfl

@[simp] theorem State.delivered_cyc (s : State) (src : Src) : (s.delivered src).cyc = s.cyc := by
  unfold State.delivered; split <;> rfl

@[simp] theorem State.delivered_newBits (s : State) (src : Src) : (s.delivered src).newBits = s.newBits := by
  unfold State.delivered; split <;> rfl

@[simp] theorem State.delivered_rg (s : State) (src : Src) (o : Nat) : (s.delivered src).rg o = s.rg o := by
  simp [State.rg]

@[simp] theorem State.delivered_domOn (s : State) (src : Src) (d : Nat) : (s.delivered src).domOn d = s.domOn d := by
  unfold State.delivered; split <;> rfl

section Delivery
variable {s t : State} {src : Src} {off : Nat} {half : Bool} (hr : s.srcReaches src = true) (hu : s.uninjected = true)
include hr hu

/-- An aligned write of a source that reaches the registers. -/
theorem State.regWrite_delivered (x : W64) (ha : aligned off half = true) :
    s.regWrite src off half x = (s.delivered src).writeReg src off half x := by
  simp [State.regWrite, s.admit_uninjected src hr hu, ha, State.delivered]

/-- An aligned read of a source that reaches the registers. -/
theorem State.regRead_delivered (ha : aligned off half = true) :
    s.regRead src off half = ((s.delivered src).takeReg off half).2.emit (.readData src off ((s.delivered src).takeReg off half).1) := by
  simp [State.regRead, hr, s.admit_uninjected src hr hu, ha, State.delivered]

/-- An access of a wrong size or alignment reads zero, and its fault is recorded where a page owns the offset. -/
theorem State.misaligned_delivered (size : Nat) (h4 : ¬(size = 4 ∧ off % 4 = 0)) (h8 : ¬(size = 8 ∧ off % 8 = 0)) :
    s.misaligned src off size = ((s.delivered src).badSize src off).emit (.readData src off 0) := by
  have hs : ((size = 4 && off % 4 = 0) || (size = 8 && off % 8 = 0)) = false := by simp_all
  simp [State.misaligned, hs, s.admit_uninjected src hr hu, State.delivered]

variable (halive : s.alive = true)
include halive

theorem answers_regWrite (x : W64) (ha : aligned off half = true) (h : (s.delivered src).writeReg src off half x = t) :
    Answers (.regWrite src off half x) s t :=
  answers_of (exec_regWrite_eq src off half x s) halive ((State.regWrite_delivered hr hu x ha).trans h)

theorem answers_rcRead {v : W64} (ha : aligned off half = true) (h : (s.delivered src).takeReg off half = (v, t)) :
    Answers (.rcRead src off half) s (t.emit (.readData src off v)) :=
  answers_of (exec_rcRead_eq src off half s) halive (by rw [State.regRead_delivered hr hu ha, h])

theorem answers_misalignedAccess {size : Nat} (h4 : ¬(size = 4 ∧ off % 4 = 0)) (h8 : ¬(size = 8 ∧ off % 8 = 0))
    (h : (s.delivered src).badSize src off = t) : Answers (.misalignedAccess src off size) s (t.emit (.readData src off 0)) :=
  answers_of (exec_misalignedAccess_eq src off size s) halive (by rw [State.misaligned_delivered hr hu size h4 h8, h])

end Delivery

theorem State.badSize_outside (s : State) (src : Src) (off : Nat) (h : locate off = none) : s.badSize src off = s := by
  simp [State.badSize, h]

/-- A fault of size is recorded for the block that owns the page (R6, R329). -/
theorem State.badSize_page (s : State) (src : Src) (off : Nat) {p : Page} {r : Nat} (h : locate off = some (p, r)) :
    s.badSize src off = s.sizeFault p.blk off (src == .fabric) := by
  simp [State.badSize, h]

/-! ## A write of a stored register, by its access code (R7, R8, R9) -/

section Store
variable (s : State) (o r : Nat) {row : RegRow} (v m : W64)

theorem State.storeReg_rw (h : row.acc = .rw) (hn : row.name ≠ "MSIX_TABLE") :
    s.storeReg o row r v m = s.setRg o ((s.rg o &&& ~~~m) ||| (v &&& m &&& BitVec.ofNat 64 row.mask)) := by
  simp [State.storeReg, h, hn]

theorem State.storeReg_w1c (h : row.acc = .w1c) :
    s.storeReg o row r v m = s.setRg o (s.rg o &&& ~~~(v &&& m &&& ~~~(s.newBits.get 0 o))) := by
  simp only [State.storeReg, h, State.clearable]

theorem State.storeReg_unwritable (h : row.acc = .ro ∨ row.acc = .wo ∨ row.acc = .rc) : s.storeReg o row r v m = s := by
  rcases h with h | h | h <;> simp only [State.storeReg, h]

end Store

/-! ## An aligned access of a register that is not in the common window -/

section Register
variable {s : State} {off r : Nat} {half : Bool} {p : Page} {row : RegRow} (hl : locate (off / 8 * 8) = some (p, r))
include hl

/-- A write of a page whose domain is not ON is ignored (R18). -/
theorem State.writeReg_off (src : Src) (x : W64) (hd : s.domOn p.dom = false) : s.writeReg src off half x = s := by
  simp [State.writeReg, hl, hd]

/-- A page whose domain is not ON reads zero (R18). -/
theorem State.readReg_off (hd : s.domOn p.dom = false) : s.readReg (off / 8 * 8) = 0 := by
  simp [State.readReg, hl, hd]

variable (hw : rowAt p.kind r = some row) (h40 : 0x40 ≤ r)
include hw h40

/-- A register without an effect of its own is stored as its access code says. -/
theorem State.writeReg_stored (src : Src) (x : W64) (hn : row.name ≠ "MSIX_TABLE") (hd : s.domOn p.dom = true)
    (hact : s.actWrite src p r (placed off half x) ((s.readReg (off / 8 * 8) &&& ~~~(halfMask off half)) ||| placed off half x) = none) :
    s.writeReg src off half x = s.storeReg (off / 8 * 8) row r (placed off half x) (halfMask off half) := by
  simp [State.writeReg, hl, hd, Nat.not_lt.2 h40, hact, hw, hn]

theorem State.clearsOnRead_eq : s.clearsOnRead (off / 8 * 8) = (row.acc == .rc && s.domOn p.dom) := by
  simp [State.clearsOnRead, rowOf, hl, hw, h40]

end Register

/-- The bits of a register that a read of it, or of its half, answers (R21). -/
def readBits (off : Nat) (half : Bool) (v : W64) : W64 := if half then put 0 (v.fld (if off % 8 = 4 then 32 else 0) 32) else v

theorem readBits_zero (off : Nat) (half : Bool) : readBits off half 0 = 0 := by
  cases half <;> simp [readBits, put, BitVec.fld]

/-- A read that clears answers what the register held before the cycle counted in it (R9). -/
theorem State.takeReg_clears (s : State) (off : Nat) (half : Bool) (h : s.clearsOnRead (off / 8 * 8) = true) :
    s.takeReg off half = (readBits off half (s.cyc.get (s.rg (off / 8 * 8), 0) (off / 8 * 8)).1, s.clearRead (off / 8 * 8) (halfMask off half)) := by
  cases half <;> simp [State.takeReg, h, readBits]

/-- Any other read changes nothing. -/
theorem State.takeReg_keeps (s : State) (off : Nat) (half : Bool) (h : s.clearsOnRead (off / 8 * 8) = false) :
    s.takeReg off half = (readBits off half (s.readReg (off / 8 * 8)), s) := by
  cases half <;> simp [State.takeReg, h, readBits]

/-! ## Accesses over the fabric (R20) -/

theorem State.privileged_iff (s : State) (c : Nat) : s.privileged c = true ↔ (s.ctx c).st ≠ 0 ∧ (s.ctx c).priv = true := by
  simp [State.privileged]

/-- A context that is free or lacks the privileged attribute is denied, and PRIV_ACCESS reports. -/
theorem State.fabricAccess_denied (s : State) (c off : Nat) (half : Bool) (w : Option W64) (h : (s.ctx c).st = 0 ∨ (s.ctx c).priv = false) :
    s.fabricAccess c off half w = (s.flag 0 0 { ctx := some c }).emit (.regDone c off stDenied 0) := by
  have hp : s.privileged c = false := by rcases h with h | h <;> simp [State.privileged, h]
  simp [State.fabricAccess, hp, State.privFault]

theorem State.fabricAccess_read (s : State) (c off : Nat) (half : Bool) (hp : s.privileged c = true) (ha : aligned off half = true) :
    s.fabricAccess c off half none = (s.takeReg off half).2.emit (.regDone c off stOk (s.takeReg off half).1) := by
  simp [State.fabricAccess, hp, State.fabricReg, ha]

theorem State.fabricAccess_write (s : State) (c off : Nat) (half : Bool) (v : W64) (hp : s.privileged c = true) (ha : aligned off half = true) :
    s.fabricAccess c off half (some v) = (s.writeReg .fabric off half v).emit (.regDone c off stOk 0) := by
  simp [State.fabricAccess, hp, State.fabricReg, ha]

/-! ## The statements -/

/-- Settles O17: the write is delivered, and the register is stored under its access code unless its domain is not ON. -/
theorem registerWritesFollowTheirCode : Obligations.RegisterWritesFollowTheirCode := by
  intro s src off r half x p row halive hu hr ha hl hw h40 hn s1 o m v
  have answers {t : State} (h : s1.writeReg src off half x = t) := answers_regWrite hr hu halive x ha h
  have hdom : s1.domOn p.dom = s.domOn p.dom := s.delivered_domOn src _
  have hrg : s1.rg o = s.rg o := s.delivered_rg src o
  have hbits : s1.newBits = s.newBits := s.delivered_newBits src
  refine ⟨fun hd => answers (State.writeReg_off hl src x (hdom.trans hd)), fun hd hact => ?_⟩
  have hstore := State.writeReg_stored hl hw h40 src x hn (hdom.trans hd) hact
  refine ⟨fun h => answers ?_, fun h => answers ?_, fun h => answers ?_⟩
  · rw [hstore, State.storeReg_rw _ _ _ _ _ h hn, hrg]
  · rw [hstore, State.storeReg_w1c _ _ _ _ _ h, hrg, hbits]
  · rw [hstore, State.storeReg_unwritable _ _ _ _ _ h]

/-- Settles O18: each access is delivered, and a read clears the register where its code is RC and its domain is ON; an access of a wrong size only records its
fault. -/
theorem registerReadsAnswer : Obligations.RegisterReadsAnswer := by
  constructor
  · intro s src off r half p row halive hu hr ha hl hw h40 s1 o got m c0
    have answers {t : State} {v : W64} (h : s1.takeReg off half = (v, t)) := answers_rcRead hr hu halive ha h
    have fabricAnswers {c : Fin 64} {w : Option W64} {t : State} (h : s.fabricAccess c off half w = t) :=
      answers_of (exec_fabricRegAccess_eq c off half w s) halive h
    have hdom : s1.domOn p.dom = s.domOn p.dom := s.delivered_domOn src _
    have clears (t : State) : t.clearsOnRead o = (row.acc == .rc && t.domOn p.dom) := State.clearsOnRead_eq hl hw h40
    have keeps (t : State) (h : row.acc ≠ .rc) : t.takeReg off half = (got (t.readReg o), t) :=
      t.takeReg_keeps off half (by rw [clears]; simp [h])
    refine ⟨fun h hd => answers ?_, fun h => answers (keeps s1 h), fun hd => answers ?_,
      fun c w h => fabricAnswers (s.fabricAccess_denied c off half w h), fun c hst hp h => fabricAnswers ?_, fun c v hst hp => fabricAnswers ?_⟩
    · have hc : s1.clearsOnRead o = true := by rw [clears, h, hdom, hd]; rfl
      have hrg : s1.rg (off / 8 * 8) = s.rg (off / 8 * 8) := s.delivered_rg src _
      have hcyc : s1.cyc = s.cyc := s.delivered_cyc src
      rw [State.takeReg_clears _ _ _ hc, State.clearRead, hrg, hcyc]
      rfl
    · have hc : s1.clearsOnRead o = false := by rw [clears, hdom, hd, Bool.and_false]
      rw [State.takeReg_keeps _ _ _ hc, State.readReg_off hl (hdom.trans hd), readBits_zero]
    · rw [s.fabricAccess_read c off half ((s.privileged_iff c).2 ⟨hst, hp⟩) ha, keeps s h]
    · exact s.fabricAccess_write c off half v ((s.privileged_iff c).2 ⟨hst, hp⟩) ha
  · intro s src off size halive hu hr h4 h8 s1
    have answers {t : State} (h : s1.badSize src off = t) := answers_misalignedAccess hr hu halive h4 h8 h
    exact ⟨fun h => answers (s1.badSize_outside src off h), fun p r h => answers (s1.badSize_page src off h)⟩

end Sys2Proof.Machine
end

section
/-!
SUPPORT. The common block window and DEV_MODE (chapters 01 and 15): what a write of BLK_FAULT, BLK_SEV_ACK, BLK_PROGRESS_WIN, BLK_INJECT or DEV_MODE does in each
of its cases, and from it the statement about these writes.
-/
namespace Sys2Proof.Machine

/-! ## What each window command acts with -/

theorem exec_blkFaultW1c_eq (b : Fin 152) (v : W64) (s : State) : exec (.blkFaultW1c b v) s = act s fun s => s.faultW1c b v := rfl

theorem exec_blkSevAckWrite_eq (b : Fin 152) (v : W64) (s : State) : exec (.blkSevAckWrite b v) s = act s fun s => s.sevAck b v := rfl

theorem exec_blkProgressWinWrite_eq (b : Fin 152) (v : W64) (s : State) :
    exec (.blkProgressWinWrite b v) s = act s fun s => s.progressWin b v := rfl

theorem exec_blkInject_eq (b : Fin 152) (v : W64) (s : State) : exec (.blkInject b v) s = act s fun s => s.injectWrite b v := rfl

theorem exec_devModeWrite_eq (v : W64) (s : State) : exec (.devModeWrite v) s = act s fun s => s.modeWrite v := rfl

/-! ## BLK_FAULT (R9, R334) -/

/-- A fault bit written 1 may clear, were hardware not setting it in the same cycle: it is set, and its effective severity is S0 to S2, or S3 with its cause ended. -/
def State.faultClears (s : State) (b : Nat) (v : W64) (d : Nat) : Bool :=
  v.bit d && (s.blk b).fault.bit d && (decide ((s.blk b).eff.get 0 d < 3) || decide ((s.blk b).eff.get 0 d = 3) && s.mayClear b d)

/-- The bits of BLK_FAULT that a write clears. -/
def State.faultOff (s : State) (b : Nat) (v : W64) : W64 :=
  s.clearable (blkR b 0x010) ((List.range (detCount b)).foldl (fun (m : W64) d => if s.faultClears b v d then m ||| bitMask d else m) 0)

theorem State.faultW1c_on (s : State) (b : Nat) (v : W64) (h : s.domOn (blkDom b) = true) :
    s.faultW1c b v = s.setBlk b { s.blk b with fault := (s.blk b).fault &&& ~~~(s.faultOff b v), mended := (s.blk b).mended &&& ~~~(s.faultOff b v) } := by
  simp [State.faultW1c, State.faultOff, State.faultClears, h]

theorem State.faultW1c_off (s : State) (b : Nat) (v : W64) (h : s.domOn (blkDom b) = false) : s.faultW1c b v = s := by
  simp [State.faultW1c, h]

/-- A clearable bit is one that hardware has not set in this cycle (R9). -/
theorem State.clearable_bit (s : State) (off : Nat) (v : W64) (d : Nat) : (s.clearable off v).bit d = (v.bit d && !(s.newBits.get 0 off).bit d) := by
  by_cases hd : d < 64
  · simp [State.clearable, BitVec.bit, hd]
  · simp [State.clearable, BitVec.bit, BitVec.getLsbD_of_ge _ _ (Nat.le_of_not_lt hd)]

theorem State.faultOff_bit (s : State) (b : Nat) (v : W64) (d : Nat) :
    (s.faultOff b v).bit d = (decide (d < detCount b) && s.faultClears b v d && !(s.newBits.get 0 (blkR b 0x010)).bit d) := by
  rw [State.faultOff, State.clearable_bit, bit_fold _ _ (detCount_le b)]

/-! ## BLK_SEV_ACK, BLK_PROGRESS_WIN and DEV_MODE (R24, R27, R28) -/

theorem State.sevAck_on (s : State) (b : Nat) (v : W64) (h : s.domOn (blkDom b) = true) :
    s.sevAck b v = s.setBlk b { s.blk b with ack := (s.blk b).ack ||| (v &&& ~~~(s.newBits.get 0 (blkR b 0x010)) &&& maskLow (detCount b)) } := by
  simp [State.sevAck, State.clearable, h]

theorem State.sevAck_off (s : State) (b : Nat) (v : W64) (h : s.domOn (blkDom b) = false) : s.sevAck b v = s := by
  simp [State.sevAck, h]

theorem State.progressWin_engine (s : State) (b : Nat) (v : W64) (he : hasEngine b = true) (h : s.domOn (blkDom b) = true) :
    s.progressWin b v = s.setRg (blkR b 0x030) (v &&& 0xFFFFFFFF) := by
  simp [State.progressWin, he, h]

theorem State.progressWin_fixed (s : State) (b : Nat) (v : W64) (h : hasEngine b = false ∨ s.domOn (blkDom b) = false) :
    s.progressWin b v = s := by
  rcases h with h | h <;> simp [State.progressWin, h]

theorem State.modeWrite_quiescent (s : State) (v : W64) (h : s.quiescent = true) : s.modeWrite v = s.setRg (devR 0x050) (v &&& 1) := by
  simp [State.modeWrite, h]

theorem State.modeWrite_busy (s : State) (v : W64) (h : s.quiescent = false) : s.modeWrite v = s.flag 0 1 := by
  simp [State.modeWrite, h]

/-! ## BLK_INJECT (R26, R344) -/

theorem State.injectWrite_off (s : State) (b : Nat) (v : W64) (h : s.domOn (blkDom b) = false) : s.injectWrite b v = s := by
  simp [State.injectWrite, h]

/-- Discarded: a detector that the block does not have, a count of zero, or base severity S4 that DEV_INJECT_ARM does not allow. -/
theorem State.injectWrite_discarded (s : State) (b : Nat) (v : W64)
    (h : detCount b ≤ v.fld 0 6 ∨ v.fld 8 8 = 0 ∨ detBase b (v.fld 0 6) = 4 ∧ (s.rg (devR 0x190)).bit 0 = false) : s.injectWrite b v = s := by
  rcases h with h | h | ⟨h4, harm⟩
  · simp [State.injectWrite, h]
  · simp [State.injectWrite, h]
  · simp [State.injectWrite, h4, harm]

section Taken
variable (s : State) (b : Nat) (v : W64) (hon : s.domOn (blkDom b) = true) (hd : v.fld 0 6 < detCount b) (hn : v.fld 8 8 ≠ 0)
include hon hd hn

/-- A detector below S4 that is no event waits with the count, in place of one still pending. -/
theorem State.injectWrite_condition (h4 : detBase b (v.fld 0 6) ≠ 4) (he : isEvent b (v.fld 0 6) = false) :
    s.injectWrite b v = s.setBlk b { s.blk b with inject := (s.blk b).inject.set (v.fld 0 6) (v.fld 8 8) } := by
  simp [State.injectWrite, hon, Nat.not_le.2 hd, hn, h4, he]

/-- An event below S4 acts with the write. -/
theorem State.injectWrite_event (h4 : detBase b (v.fld 0 6) ≠ 4) (he : isEvent b (v.fld 0 6) = true) :
    s.injectWrite b v = s.injectEvent b (v.fld 0 6) (v.fld 8 8) := by
  simp [State.injectWrite, hon, Nat.not_le.2 hd, hn, h4, he]

/-- An allowed event of base severity S4 takes the allowance with it. -/
theorem State.injectWrite_s4_event (h4 : detBase b (v.fld 0 6) = 4) (harm : (s.rg (devR 0x190)).bit 0 = true) (he : isEvent b (v.fld 0 6) = true) :
    s.injectWrite b v = (s.setRg (devR 0x190) 0).injectEvent b (v.fld 0 6) (v.fld 8 8) := by
  simp [State.injectWrite, hon, Nat.not_le.2 hd, hn, h4, harm, he]

end Taken

/-! ## The statement -/

/-- Settles O19: a write of BLK_FAULT clears the bits of `State.faultOff`, and each other write acts as its case says. -/
theorem blockWindowWrites : Obligations.BlockWindowWrites := by
  refine ⟨fun s b v halive hon => ?_, fun s b v halive => ?_, fun s b v halive hon => ?_⟩
  · refine ⟨s.faultOff b v, answers_of (exec_blkFaultW1c_eq b v s) halive (s.faultW1c_on b v hon), fun d => ?_⟩
    rw [s.faultOff_bit, State.faultClears]
    ac_rfl
  · have answersAck {t : State} (h : s.sevAck b v = t) := answers_of (exec_blkSevAckWrite_eq b v s) halive h
    have answersWin {t : State} (h : s.progressWin b v = t) := answers_of (exec_blkProgressWinWrite_eq b v s) halive h
    have answersMode {t : State} (h : s.modeWrite v = t) := answers_of (exec_devModeWrite_eq v s) halive h
    refine ⟨fun hon => ⟨answersAck (s.sevAck_on b v hon), fun he => answersWin (s.progressWin_engine b v he hon),
      fun he => answersWin (s.progressWin_fixed b v (.inl he))⟩, fun hoff => ?_,
      fun hq => answersMode (s.modeWrite_quiescent v hq), fun hq => answersMode (s.modeWrite_busy v hq)⟩
    simp only [List.forall_mem_cons]
    exact ⟨answersAck (s.sevAck_off b v hoff), answersWin (s.progressWin_fixed b v (.inr hoff)),
      answers_of (exec_blkFaultW1c_eq b v s) halive (s.faultW1c_off b v hoff),
      answers_of (exec_blkInject_eq b v s) halive (s.injectWrite_off b v hoff), List.forall_mem_nil _⟩
  · intro d n armed
    have answers {t : State} (h : s.injectWrite b v = t) := answers_of (exec_blkInject_eq b v s) halive h
    exact ⟨fun h => answers (s.injectWrite_discarded b v h), fun hd hn h4 he => answers (s.injectWrite_condition b v hon hd hn h4 he),
      fun hd hn h4 he => answers (s.injectWrite_event b v hon hd hn h4 he),
      fun hd hn h4 harm he => answers (s.injectWrite_s4_event b v hon hd hn h4 harm he)⟩

end Sys2Proof.Machine
end

section
/-!
SUPPORT. The loader of structure images (chapter 02): what a write of DEV_LOAD_CTRL does in each of its cases, how a check stage, a hold and a commit end, and from it
the statements about load requests and about the way of a load to its commit.
-/
namespace Sys2Proof.Machine

/-! ## What each command of the loader acts with -/

/-- A write of DEV_LOAD_CTRL is one operation, whichever of the four requests it makes. -/
theorem answers_loadCtrl {s t : State} {v : W64} (ha : s.alive = true) (h : s.loadCtrl v = t) :
    ∀ i ∈ [Instr.loadStart v, .harvestLoadStart v, .loadCancel v, .loadUnload v], Answers i s t := by
  simp only [List.forall_mem_cons]
  exact ⟨answers_of (f := fun s => s.loadCtrl v) rfl ha h, answers_of (f := fun s => s.loadCtrl v) rfl ha h,
    answers_of (f := fun s => s.loadCtrl v) rfl ha h, answers_of (f := fun s => s.loadCtrl v) rfl ha h, List.forall_mem_nil _⟩

theorem exec_loadStageEnd_eq (s : State) : exec .loadStageEnd s = act s fun s => s.loadStageEnd := rfl

theorem exec_loadHoldComplete_eq (s : State) : exec .loadHoldComplete s = act s fun s => s.loadHoldComplete := rfl

theorem exec_loadHoldTimeout_eq (s : State) : exec .loadHoldTimeout s = act s fun s => s.loadHoldTimeout := rfl

theorem exec_noHarvestCtxHold_eq (c : Fin 64) (s : State) : exec (.noHarvestCtxHold c) s = act s fun s => s.holdIdle c := rfl

theorem exec_commitDomainsOn_eq (s : State) : exec .commitDomainsOn s = act s fun s => s.commitDomainsOn := rfl

theorem exec_commitCopyDone_eq (bad : Option (Fin 256)) (s : State) :
    exec (.commitCopyDone bad) s = act s fun s => s.commitCopyDone (bad.map Fin.val) := rfl

theorem exec_structureReset_eq (s : State) : exec .structureReset s = act s fun s => s.structureReset := rfl

/-! ## DEV_LOAD_CTRL, by the requests it makes (R38) -/

/-- CHECKING, PENDING_HARVEST or COMMITTING. -/
def State.loadBusy (s : State) : Bool := 1 ≤ s.ld.state && s.ld.state ≤ 3

theorem State.loadBusy_of_state {s : State} (h : s.ld.state = 1 ∨ s.ld.state = 2 ∨ s.ld.state = 3) : s.loadBusy = true := by
  simp only [State.loadBusy, Bool.and_eq_true, decide_eq_true_eq]; omega

theorem State.not_loadBusy_of_state {s : State} (h : s.ld.state = 0 ∨ 4 ≤ s.ld.state) : s.loadBusy = false := by
  simp only [State.loadBusy, Bool.and_eq_false_iff, decide_eq_false_iff_not]; omega

section Requests
variable {s : State} {v : W64}

/-- More than one request at once reports LOAD_BUSY. -/
theorem State.loadCtrl_several (h : ((v.bit 0 && v.bit 2) || (v.bit 0 && v.bit 3) || (v.bit 2 && v.bit 3)) = true) :
    s.loadCtrl v = s.flag 0 2 := by
  unfold State.loadCtrl
  generalize v.bit 0 = start, v.bit 2 = cancel, v.bit 3 = unload at h
  match start, cancel, unload, h with
  | true, true, _, _ => rfl
  | true, false, true, _ => rfl
  | false, true, true, _ => rfl

/-- A start or an unload while a load is under way reports LOAD_BUSY. -/
theorem State.loadCtrl_busy (hb : s.loadBusy = true) (h : (v.bit 0 || v.bit 3) = true) : s.loadCtrl v = s.flag 0 2 := by
  unfold State.loadBusy at hb
  unfold State.loadCtrl
  generalize v.bit 0 = start, v.bit 2 = cancel, v.bit 3 = unload at h
  match start, cancel, unload, h with
  | true, true, _, _ => rfl
  | true, false, true, _ => rfl
  | false, true, true, _ => rfl
  | true, false, false, _ => simp [hb]
  | false, false, true, _ => simp [hb]

theorem State.loadCtrl_start (hr : s.loaderRuns = true) (h0 : v.bit 0 = true) (h2 : v.bit 2 = false) (h3 : v.bit 3 = false)
    (hb : s.loadBusy = false) : s.loadCtrl v = s.loadStart (v.bit 1) := by
  unfold State.loadBusy at hb
  simp [State.loadCtrl, h0, h2, h3, hb, hr]

theorem State.loadCtrl_cancel (hr : s.loaderRuns = true) (h0 : v.bit 0 = false) (h2 : v.bit 2 = true) (h3 : v.bit 3 = false) :
    s.loadCtrl v = s.loadCancel := by
  simp [State.loadCtrl, h0, h2, h3, hr]

theorem State.loadCtrl_unload (hr : s.loaderRuns = true) (h0 : v.bit 0 = false) (h2 : v.bit 2 = false) (h3 : v.bit 3 = true)
    (hb : s.loadBusy = false) : s.loadCtrl v = s.loadUnload := by
  unfold State.loadBusy at hb
  simp [State.loadCtrl, h0, h2, h3, hb, hr]

end Requests

/-- Settles O20: several requests at once, or a start or an unload of a busy loader, report LOAD_BUSY and do nothing else. -/
theorem loadBusyRefusesRequests : Obligations.LoadBusyRefusesRequests := by
  refine ⟨by decide, fun s v halive _ h => answers_loadCtrl halive ?_⟩
  rcases h with hseveral | ⟨hreq, hst⟩
  · exact State.loadCtrl_several hseveral
  · exact State.loadCtrl_busy (State.loadBusy_of_state hst) hreq

/-! ## A start (R36, R44, Table 2-6 stage 0) -/

/-- The state in which the checks of a start find the loader: whatever an earlier load left is gone. -/
def State.startFresh (s : State) (atHarvest : Bool) : State :=
  { s with ld := { s.ld with atHarvest := atHarvest, cancel := false, img := none, raw := [], v0 := [], heldAt := none, met := false } }

/-- The staged range that DEV_LOAD_ADDR and DEV_LOAD_LEN give is aligned, of a legal length, and inside HBM. -/
def State.rangeFits (s : State) : Prop :=
  let a := (s.rg (devR 0x070)).fld 0 50
  let n := (s.rg (devR 0x078)).fld 0 33
  a % 4096 = 0 ∧ 256 ≤ n ∧ n ≤ 4294967296 ∧ a + n ≤ 0x6000000000

/-- The range check of stage 0 finds a fault. -/
def State.rangeBad (s : State) : Bool :=
  let a := (s.rg (devR 0x070)).fld 0 50
  let n := (s.rg (devR 0x078)).fld 0 33
  a % 4096 ≠ 0 || 0x6000000000 < a + n || n < 256 || 4294967296 < n

/-- The checks of stage 0, in their order. -/
def State.startChecks (s : State) (atHarvest : Bool) : List (Option LdFail) :=
  let c := s.loadTarget.1
  [failIf (!atHarvest && !s.quiescent) { reason := 0x01 },
   failIf s.rangeBad { reason := 0x02 },
   failIf (atHarvest && (s.ctx c).st ≠ 1) { reason := 0x03, index := c },
   failIf (atHarvest && !s.canHarvest c) { reason := 0x05, index := c },
   failIf (atHarvest && laterHarvest (s.ctx c).harvest s.loadTarget.2) { reason := 0x04, index := c }]

@[simp] theorem firstFail_failIf_true (f : LdFail) (xs : List (Option LdFail)) : firstFail (failIf true f :: xs) = some f := rfl

@[simp] theorem firstFail_failIf_false (f : LdFail) (xs : List (Option LdFail)) : firstFail (failIf false f :: xs) = firstFail xs := rfl

@[simp] theorem firstFail_nil : firstFail [] = none := rfl

theorem State.rangeBad_iff (s : State) : s.rangeBad = true ↔ ¬s.rangeFits := by
  simp only [State.rangeBad, State.rangeFits, Bool.or_eq_true, decide_eq_true_eq]
  omega

theorem State.rangeBad_of_fits {s : State} (h : s.rangeFits) : s.rangeBad = false :=
  Bool.eq_false_iff.2 fun hb => s.rangeBad_iff.1 hb h

section Start
variable {s : State} {atHarvest : Bool}

/-- A start is refused by the first check that fails, and begins stage 1 where none does. -/
theorem State.loadStart_eq (s : State) (atHarvest : Bool) :
    s.loadStart atHarvest =
      (firstFail (s.startChecks atHarvest)).elim ((s.startFresh atHarvest).loadTo 1 1) fun f => (s.startFresh atHarvest).refuse f 0 := by
  show (match firstFail (s.startChecks atHarvest) with
    | some f => (s.startFresh atHarvest).refuse f 0
    | none => (s.startFresh atHarvest).loadTo 1 1) = _
  cases firstFail (s.startChecks atHarvest) <;> rfl

/-- A quiescent load outside quiescence. -/
theorem State.loadStart_notPermitted (hm : atHarvest = false) (hq : s.quiescent = false) :
    s.loadStart atHarvest = (s.startFresh atHarvest).refuse { reason := 0x01 } 0 := by
  simp [State.loadStart_eq, State.startChecks, hm, hq]

/-- A range that does not fit, for a load that may start. -/
theorem State.loadStart_badRange (hm : atHarvest = true ∨ s.quiescent = true) (hf : ¬s.rangeFits) :
    s.loadStart atHarvest = (s.startFresh atHarvest).refuse { reason := 0x02 } 0 := by
  have hmay : (!atHarvest && !s.quiescent) = false := by rcases hm with h | h <;> simp [h]
  simp [State.loadStart_eq, State.startChecks, hmay, s.rangeBad_iff.2 hf]

section Fits
variable (hf : s.rangeBad = false)
include hf

theorem State.loadStart_quiescent (hm : atHarvest = false) (hq : s.quiescent = true) :
    s.loadStart atHarvest = (s.startFresh atHarvest).loadTo 1 1 := by
  simp [State.loadStart_eq, State.startChecks, hm, hq, hf]

variable (hm : atHarvest = true)
include hm

theorem State.loadStart_notOpen (hc : (s.ctx s.loadTarget.1).st ≠ 1) :
    s.loadStart atHarvest = (s.startFresh atHarvest).refuse { reason := 0x03, index := s.loadTarget.1 } 0 := by
  simp [State.loadStart_eq, State.startChecks, hm, hf, hc]

theorem State.loadStart_cannotHarvest (hc : (s.ctx s.loadTarget.1).st = 1) (hh : s.canHarvest s.loadTarget.1 = false) :
    s.loadStart atHarvest = (s.startFresh atHarvest).refuse { reason := 0x05, index := s.loadTarget.1 } 0 := by
  simp [State.loadStart_eq, State.startChecks, hm, hf, hc, hh]

/-- The context named can harvest: the load begins unless it has passed the harvest named. -/
theorem State.loadStart_harvest (hc : (s.ctx s.loadTarget.1).st = 1) (hh : s.canHarvest s.loadTarget.1 = true) :
    s.loadStart atHarvest =
      if laterHarvest (s.ctx s.loadTarget.1).harvest s.loadTarget.2 then
        (s.startFresh atHarvest).refuse { reason := 0x04, index := s.loadTarget.1 } 0
      else (s.startFresh atHarvest).loadTo 1 1 := by
  by_cases hl : laterHarvest (s.ctx s.loadTarget.1).harvest s.loadTarget.2 = true
  · simp [State.loadStart_eq, State.startChecks, hm, hf, hc, hh, hl]
  · simp [State.loadStart_eq, State.startChecks, hm, hf, hc, hh, hl]

end Fits
end Start

/-! ## A cancel and an unload (Table 2-5, R399) -/

section CancelUnload
variable {s : State}

theorem State.loadCancel_checking (h : s.ld.state = 1) : s.loadCancel = { s with ld := { s.ld with cancel := true } } := by
  simp [State.loadCancel, h]

theorem State.loadCancel_pending (h : s.ld.state = 2) : s.loadCancel = s.refuse { reason := 0x72 } s.ld.stage := by
  simp [State.loadCancel, h]

theorem State.loadCancel_idle (h1 : s.ld.state ≠ 1) (h2 : s.ld.state ≠ 2) : s.loadCancel = s := by
  simp [State.loadCancel, h1, h2]

theorem State.loadUnload_refused (hq : s.quiescent = false) : s.loadUnload = s.refuse { reason := 0x01 } 0 := by
  simp [State.loadUnload, hq]

theorem State.loadUnload_none (hq : s.quiescent = true) (hi : s.inForce.isNone = true) :
    s.loadUnload = s.loadTo 0 0 { reason := 0, value := s.ld.value, limit := s.ld.limit } := by
  simp only [State.loadUnload, hq, hi, Bool.not_true, Bool.false_eq_true, if_false, if_true]

theorem State.loadUnload_inForce (hq : s.quiescent = true) (hi : s.inForce.isNone = false) :
    s.loadUnload = s.dropImage.loadTo 0 0 := by
  simp only [State.loadUnload, hq, hi, Bool.not_true, Bool.false_eq_true, if_false]

end CancelUnload

/-- Settles O21: each request that is not busy is a start, a cancel or an unload, which acts as its case says. -/
theorem loadRequestsAct : Obligations.LoadRequestsAct := by
  intro s v halive hr a n c q fits
  refine ⟨fun h0 h2 h3 hst i hi => ?_, fun h0 h2 h3 => ?_, fun h0 h2 h3 hst => ?_⟩
  · have inRange (h : fits) : s.rangeBad = false := State.rangeBad_of_fits h
    have answers {t : State} (h : s.loadStart (v.bit 1) = t) : Answers i s t :=
      answers_loadCtrl halive ((State.loadCtrl_start hr h0 h2 h3 (State.not_loadBusy_of_state hst)).trans h) i
        (List.mem_append_left [Instr.loadCancel v, Instr.loadUnload v] hi)
    exact ⟨fun hm hq => answers (State.loadStart_notPermitted hm hq), fun hm hq hf => answers (State.loadStart_quiescent (inRange hf) hm hq),
      fun hm hf => answers (State.loadStart_badRange hm hf), fun hm hf hc => answers (State.loadStart_notOpen (inRange hf) hm hc),
      fun hm hf hc hh => answers (State.loadStart_cannotHarvest (inRange hf) hm hc hh), fun hm hf hc hh => answers (State.loadStart_harvest (inRange hf) hm hc hh)⟩
  · have answers {t : State} (h : s.loadCancel = t) : Answers (.loadCancel v) s t :=
      answers_loadCtrl halive ((State.loadCtrl_cancel hr h0 h2 h3).trans h) _ (by simp)
    exact ⟨fun h => answers (State.loadCancel_checking h), fun h => answers (State.loadCancel_pending h),
      fun h1 h2 => answers (State.loadCancel_idle h1 h2)⟩
  · have answers {t : State} (h : s.loadUnload = t) : Answers (.loadUnload v) s t :=
      answers_loadCtrl halive ((State.loadCtrl_unload hr h0 h2 h3 (State.not_loadBusy_of_state hst)).trans h) _ (by simp)
    exact ⟨fun hq hi => answers (State.loadUnload_none hq hi), fun hq hi => answers (State.loadUnload_inForce hq hi),
      fun hq => answers (State.loadUnload_refused hq)⟩

/-! ## The end of a check stage (R37, R40, Table 2-5) -/

section StageEnd
variable {s r : State} (hst : s.ld.state = 1) (hr : s.loaderRuns = true)
include hst hr

/-- A check that fails refuses the image, and names its stage. -/
theorem State.loadStageEnd_fails {f : LdFail} (h : s.stageCheck = (some f, r)) : s.loadStageEnd = r.refuse f s.ld.stage := by
  simp [State.loadStageEnd, hst, hr, h]

variable (h : s.stageCheck = (none, r))
include h

/-- A cancel that waits acts where the stage ends. -/
theorem State.loadStageEnd_cancelled (hc : r.ld.cancel = true) : s.loadStageEnd = r.refuse { reason := 0x72 } s.ld.stage := by
  simp [State.loadStageEnd, hst, hr, h, hc]

variable (hc : r.ld.cancel = false)
include hc

theorem State.loadStageEnd_next (h6 : s.ld.stage < 6) : s.loadStageEnd = { r with ld := { r.ld with stage := s.ld.stage + 1 } } := by
  simp [State.loadStageEnd, hst, hr, h, hc, h6]

/-- After the last stage a harvest load waits, unless a swap is pending with which it has to agree. -/
theorem State.loadStageEnd_pends (h6 : 6 ≤ s.ld.stage) (hm : r.ld.atHarvest = true) (hp : r.swc.pend = false) :
    s.loadStageEnd = r.loadTo 2 6 := by
  simp [State.loadStageEnd, hst, hr, h, hc, Nat.not_lt.2 h6, hm, State.loadPend, State.loadTo_swc, hp]

theorem State.loadStageEnd_commits (h6 : 6 ≤ s.ld.stage) (hm : r.ld.atHarvest = false) : s.loadStageEnd = r.commitStart := by
  simp [State.loadStageEnd, hst, hr, h, hc, Nat.not_lt.2 h6, hm]

end StageEnd

/-! ## The holds of a pending load (R44, R45) -/

/-- Nothing of the context is under way: its movers, its expect entries, the collectives of its groups, and its requests. -/
def State.workDrained (s : State) (c : Nat) : Prop :=
  (∀ t ∈ tilesOf (s.ctx c).tiles, s.moversIdle t = true ∧ (s.tile t).expects.isEmpty = true) ∧
  s.noInsts ((s.ctxGroups c).map fun x => x.1) = true ∧ ∀ r ∈ s.swc.reqs, r.pkt.ctx ≠ c

section Hold
variable {s : State} (hst : s.ld.state = 2)
include hst

theorem State.loadHoldComplete_commits (hr : s.loaderRuns = true) (h : s.holdsComplete = true) : s.loadHoldComplete = s.commitStart := by
  simp [State.loadHoldComplete, hst, hr, h]

theorem State.loadHoldTimeout_refused (ha : s.ld.heldAt.isSome = true) (h : s.holdsComplete = false) :
    s.loadHoldTimeout = s.refuse { reason := 0x71, index := s.firstUnheld } 7 := by
  simp [State.loadHoldTimeout, hst, ha, h]

/-- A hold under a pending load alone starts the load's limit, where none of its holds has, and tells whether it was the context named. -/
theorem State.holdClock_load (c : Nat) (hp : s.swc.pend = false) :
    s.holdClock c =
      { s with ld := { s.ld with heldAt := s.ld.heldAt.or (some s.cclk), met := s.ld.met || decide (s.loadTarget.1 = c) } } := by
  simp [State.holdClock, hst, hp, ← beq_eq_decide]

/-- An open context that cannot harvest is held once it has drained. -/
theorem State.holdIdle_holds {c : Nat} (ho : (s.ctx c).st = 1) (hh : (s.ctx c).held = false) (hn : s.canHarvest c = false)
    (hd : s.workDrained c) : s.holdIdle c = (s.setCtx c { s.ctx c with held := true }).holdClock c := by
  obtain ⟨htiles, hinsts, hreqs⟩ := hd
  have hmov : ((tilesOf (s.ctx c).tiles).all fun t => s.moversIdle t && (s.tile t).expects.isEmpty) = true := by
    simpa only [List.all_eq_true, Bool.and_eq_true] using htiles
  have hreq : (s.swc.reqs.any fun r => r.pkt.ctx == c) = false := by simpa using hreqs
  simp [State.holdIdle, ho, hh, hn, hst, hmov, hinsts, hreq]

end Hold

theorem State.loadHoldComplete_waits {s : State} (h : s.holdsComplete = false) : s.loadHoldComplete = s := by
  simp [State.loadHoldComplete, h]

/-! ## The commit (R43, R316, R399) -/

section Commit
variable {s r : State}

theorem State.commitDomainsOn_copies (hst : s.ld.state = 3) (hc : s.ld.copying = false) (hd : ∀ d ∈ s.ld.v0, s.domOn d.1 = true) :
    s.commitDomainsOn = { s with ld := { s.ld with copying := true } } := by
  have hall : (s.ld.v0.all fun d => s.domOn d.1) = true := List.all_eq_true.2 hd
  simp [State.commitDomainsOn, hst, hc, hall]

section Copy
variable (hu : s.uninjected = true) (hst : s.ld.state = 3) (hc : s.ld.copying = true)
include hu hst hc

/-- Every section has been read: the image comes into force. -/
theorem State.commitCopyDone_commits {i : Image} (h : s.copyReads = (none, r)) (hi : r.ld.img = some i) :
    s.commitCopyDone none = r.commit i := by
  simp [State.commitCopyDone, hst, hc, s.takeInject_uninjected hu, h, hi]

/-- A section that can no longer be read is a COMMIT_FAULT. -/
theorem State.commitCopyDone_faults {bad lost : Option Nat} {k : Nat} (h : s.copyReads = (lost, r)) (hk : bad.or lost = some k) :
    s.commitCopyDone bad = r.commitFault k := by
  simp [State.commitCopyDone, hst, hc, s.takeInject_uninjected hu, h, hk]

end Copy

theorem State.structureReset_resets (hg : s.ld.gone = true) (hf : s.allFree = true) : s.structureReset = s.structReset := by
  simp [State.structureReset, hg, hf]

theorem State.structureReset_waits (h : s.ld.gone = false ∨ s.allFree = false) : s.structureReset = s := by
  rcases h with h | h <;> simp [State.structureReset, h]

end Commit

/-! ## The statement -/

/-- Settles O22: a stage ends, a hold counts and a commit goes on as each case above says. -/
theorem loadsRunToTheirCommit : Obligations.LoadsRunToTheirCommit := by
  refine ⟨fun s r halive hr hst => ?_, fun s c halive hst => ?_, fun s bad halive hu => ?_⟩
  · have answers {t : State} (h : s.loadStageEnd = t) := answers_of (exec_loadStageEnd_eq s) halive h
    exact ⟨fun f h => answers (State.loadStageEnd_fails hst hr h), fun h =>
      ⟨fun hc => answers (State.loadStageEnd_cancelled hst hr h hc), fun hc h6 => answers (State.loadStageEnd_next hst hr h hc h6),
        fun hc h6 hm hp => answers (State.loadStageEnd_pends hst hr h hc h6 hm hp),
        fun hc h6 hm => answers (State.loadStageEnd_commits hst hr h hc h6 hm)⟩⟩
  · have answersComplete {t : State} (h : s.loadHoldComplete = t) := answers_of (exec_loadHoldComplete_eq s) halive h
    refine ⟨fun hr h => answersComplete (State.loadHoldComplete_commits hst hr h), fun h => answersComplete (State.loadHoldComplete_waits h),
      fun ha h => answers_of (exec_loadHoldTimeout_eq s) halive (State.loadHoldTimeout_refused hst ha h), ?_⟩
    intro ho hh hn hp htiles hinsts hreqs r
    exact answers_of (exec_noHarvestCtxHold_eq c s) halive
      ((State.holdIdle_holds hst ho hh hn ⟨htiles, hinsts, hreqs⟩).trans (State.holdClock_load (s := r) hst c hp))
  · have answersCopy {t : State} (h : s.commitCopyDone (bad.map Fin.val) = t) := answers_of (exec_commitCopyDone_eq bad s) halive h
    have answersReset {t : State} (h : s.structureReset = t) := answers_of (exec_structureReset_eq s) halive h
    refine ⟨fun hst hc hd => answers_of (exec_commitDomainsOn_eq s) halive (State.commitDomainsOn_copies hst hc hd), ?_, ?_,
      fun hg hf => answersReset (State.structureReset_resets hg hf), fun h => answersReset (State.structureReset_waits h)⟩
    · intro hst hc hbad r h i hi
      subst hbad
      exact answersCopy (State.commitCopyDone_commits hu hst hc h hi)
    · intro hst hc lost r h k hk
      have hor : (bad.map Fin.val).or lost = some k := by
        rcases hk with hk | ⟨rfl, hk⟩
        · rw [hk]; rfl
        · exact hk
      exact answersCopy (State.commitCopyDone_faults hu hst hc h hor)

end Sys2Proof.Machine
end

section
/-!
SUPPORT. The spindle (chapter 03): what a wait, an issue, a line fill and the end of an operation at its tally do, each in its cases, and from it the statements about
the sync slot, about the issue of bundles and about tallies.
-/
namespace Sys2Proof.Machine

/-! ## The tile's record through the shared updates -/

@[simp] theorem State.modTile_tile_self (s : State) (t : Nat) (f : Tile → Tile) : (s.modTile t f).tile t = f (s.tile t) := by
  simp [State.modTile_tile]

@[simp] theorem State.msix_tile (s : State) (v u : Nat) : (s.msix v).tile u = s.tile u := by
  unfold State.msix; split <;> rfl

@[simp] theorem State.aclk_tally (s : State) (t n u k : Nat) : (s.aclk t n).tally u k = s.tally u k := by
  simp only [State.tally, State.aclk, State.modTile_tile]; split <;> simp_all

@[simp] theorem State.aclk_uninjected (s : State) (t n : Nat) : (s.aclk t n).uninjected = s.uninjected := rfl

@[simp] theorem State.aclk_prog (s : State) (t n u : Nat) : (s.aclk t n).prog u = s.prog u := rfl

@[simp] theorem State.aclk_pc (s : State) (t n : Nat) : ((s.aclk t n).tile t).pc = (s.tile t).pc := by simp [State.aclk]

@[simp] theorem State.aclk_spn (s : State) (t n : Nat) : ((s.aclk t n).tile t).spn = (s.tile t).spn := by simp [State.aclk]

@[simp] theorem State.aclk_hold (s : State) (t n : Nat) : ((s.aclk t n).tile t).hold = (s.tile t).hold := by simp [State.aclk]

@[simp] theorem State.aclk_refill (s : State) (t n : Nat) : ((s.aclk t n).tile t).refill = (s.tile t).refill := by simp [State.aclk]

@[simp] theorem State.setTally_spn (s : State) (t k : Nat) (x : Tally) : ((s.setTally t k x).tile t).spn = (s.tile t).spn := by
  simp [State.setTally]

@[simp] theorem State.setTally_setTally (s : State) (t k : Nat) (x y : Tally) : (s.setTally t k x).setTally t k y = s.setTally t k y := by
  simp [State.setTally, State.modTile, State.setTile, State.tile]

@[simp] theorem State.spnReport_tile (s : State) (t det cause tally u : Nat) (inj : Bool) :
    (s.spnReport t det cause tally inj).tile u = s.tile u := by
  simp [State.spnReport, State.spnCause]

@[simp] theorem State.spnReport_tally (s : State) (t det cause tally u k : Nat) (inj : Bool) :
    (s.spnReport t det cause tally inj).tally u k = s.tally u k := by
  simp [State.tally]

/-- A fault of a spindle in RUN, WAIT, MISS or HARVEST is reported, and sends it to ERROR. -/
theorem State.spnError_canFail {s : State} {t : Nat} (h : (s.tile t).canFail = true) (det cause tally : Nat) (inj : Bool) :
    s.spnError t det cause tally inj =
      ((s.spnReport t det cause tally inj).modTile t fun x => { x with spn := 6 }).msix
        (259 + ((s.spnReport t det cause tally inj).tile t).ctx) := by
  simp [State.spnError, h]

theorem Tile.canFail_of_run {x : Tile} (h : x.spn = 1) : x.canFail = true := by simp [Tile.canFail, h]

/-! ## Waits (R64, R66) -/

section Wait
variable {s : State} {t : Nat} {h : Hold} (hu : s.uninjected = true)
include hu

/-- A tally with its error flag set fails the wait. -/
theorem State.testWait_flagged (he : (s.tally t h.tally).err = true) : s.testWait t h = (.bad false, s) := by
  simp [State.testWait, s.takeInject_uninjected hu, he]

variable (he : (s.tally t h.tally).err = false)
include he

theorem State.testWait_met (hn : h.n ≤ (s.tally t h.tally).count) : s.testWait t h = (.met, s) := by
  simp [State.testWait, s.takeInject_uninjected hu, he, hn]

theorem State.testWait_held (hn : (s.tally t h.tally).count < h.n) : s.testWait t h = (.held, s) := by
  simp [State.testWait, s.takeInject_uninjected hu, he, Nat.not_le.2 hn]

variable (hh : (s.tile t).hold = some h)
include hh

/-- A held wait that is met counts its cycle, and the spindle returns to RUN. -/
theorem State.seeWait_met (hn : h.n ≤ (s.tally t h.tally).count) :
    s.seeWait t = (true, (s.wrap (blkR (spnBlk t) 0x068) 48 1).modTile t fun x =>
      { x with spn := 1, hold := if h.prog then none else some h }) := by
  simp [State.seeWait, hh, State.testWait_met hu he hn]

theorem State.seeWait_held (hn : (s.tally t h.tally).count < h.n) :
    s.seeWait t = (false, s.wrap (blkR (spnBlk t) 0x068) 48 1) := by
  simp [State.seeWait, hh, State.testWait_held hu he hn]

end Wait

/-- TALLY_ERROR is of severity S2 (Table 15-10). -/
theorem detBase_tallyError : ∀ t : Fin 8, detBase (spnBlk t) 5 = 2 := by decide

/-- WAIT and TAKE of their own are one operation. -/
theorem exec_wait_eq (t : Fin 8) (k : Fin 248) (n : Fin 67108864) (take : Bool) (s : State) :
    exec (if take then .take t k n else .wait t k n) s = act s fun s => s.waitCmd t k n take := by
  cases take <;> rfl

section WaitCmd
variable {s : State} {t k n : Nat} (take : Bool) (hr : s.spnRuns t = true) (hu : s.uninjected = true)
include hr hu

theorem State.waitCmd_flagged (he : (s.tally t k).err = true) :
    s.waitCmd t k n take =
      (((s.aclk t 1).spnReport t 5 4 k).modTile t fun x => { x with spn := 6 }).msix (259 + (((s.aclk t 1).spnReport t 5 4 k).tile t).ctx) := by
  have hw : (s.aclk t 1).testWait t { tally := k, n := n, take := take, prog := false } = (.bad false, s.aclk t 1) :=
    State.testWait_flagged hu (by simpa using he)
  have hf : ((s.aclk t 1).tile t).canFail = true := Tile.canFail_of_run (by simpa using State.spnRuns_spn hr)
  simp only [State.waitCmd, hr, hw, Bool.not_true, Bool.false_eq_true, if_false, State.spnError_canFail hf]

variable (he : (s.tally t k).err = false)
include he

theorem State.waitCmd_met (hn : n ≤ (s.tally t k).count) :
    s.waitCmd t k n take =
      ((s.aclk t 1).takeTally t { tally := k, n := n, take := take, prog := false }).spnNext t ((s.tile t).pc + 1) := by
  have hw : (s.aclk t 1).testWait t { tally := k, n := n, take := take, prog := false } = (.met, s.aclk t 1) :=
    State.testWait_met hu (by simpa using he) (by simpa using hn)
  simp [State.waitCmd, hr, hw]

theorem State.waitCmd_held (hn : (s.tally t k).count < n) :
    s.waitCmd t k n take = (s.aclk t 1).spnHold t { tally := k, n := n, take := take, prog := false } := by
  have hw : (s.aclk t 1).testWait t { tally := k, n := n, take := take, prog := false } = (.held, s.aclk t 1) :=
    State.testWait_held hu (by simpa using he) (by simpa using hn)
  simp [State.waitCmd, hr, hw]

end WaitCmd

/-! ## One ACLK cycle of a spindle (R48, R70, R71) -/

section Cycle
variable {s : State} {t j : Nat}

/-- A throttled cycle issues nothing and counts. -/
theorem State.unlessThrottled_late (f : State → State) (h : throttled (s.dutyAt (3 * s.cclk + (s.tile t).ac)) j = true) :
    s.unlessThrottled t j f = (s.aclk t 1).wrap (blkR (spnBlk t) 0x070) 48 1 := by
  simp only [State.unlessThrottled]
  exact if_pos h

theorem State.unlessThrottled_runs (f : State → State) (h : throttled (s.dutyAt (3 * s.cclk + (s.tile t).ac)) j = false) :
    s.unlessThrottled t j f = f (s.aclk t 1) := by
  simp only [State.unlessThrottled]
  exact if_neg (Bool.eq_false_iff.1 h)

/-- A wait of its own that has been seen satisfied closes the bundle. -/
theorem State.issueCached_hold {h : Hold} (hh : (s.tile t).hold = some h) (e y0 y1 : Ecc) :
    s.issueCached t e y0 y1 = (s.takeTally t h).spnNext t ((s.tile t).pc + 1) := by
  simp [State.issueCached, hh]

variable (hu : s.uninjected = true)
include hu

theorem State.readWord_clean : s.readWord t .clean = (true, s) := by
  simp [State.readWord, s.takeInject_uninjected hu]

/-- A word found uncorrectable for the first time is filled again. -/
theorem State.readWord_refills (hr : (s.tile t).refill = false) : s.readWord t .uncorrectable = (false, s.startFill t true) := by
  simp [State.readWord, s.takeInject_uninjected hu, hr]

/-- A word found uncorrectable in its second fill is PROG_UE. -/
theorem State.readWord_fails (hr : (s.tile t).refill = true) : s.readWord t .uncorrectable = (false, s.spnError t 1 5 255) := by
  simp [State.readWord, s.takeInject_uninjected hu, hr]

variable (hh : (s.tile t).hold = none)
include hh

theorem State.issueCached_clean (y0 y1 : Ecc) : s.issueCached t .clean y0 y1 = s.tryIssue t y0 y1 := by
  simp [State.issueCached, hh, State.readWord_clean hu]

theorem State.issueCached_refills (hr : (s.tile t).refill = false) (y0 y1 : Ecc) :
    s.issueCached t .uncorrectable y0 y1 = s.startFill t true := by
  simp [State.issueCached, hh, State.readWord_refills hu hr]

theorem State.issueCached_fails (hr : (s.tile t).refill = true) (y0 y1 : Ecc) :
    s.issueCached t .uncorrectable y0 y1 = s.spnError t 1 5 255 := by
  simp [State.issueCached, hh, State.readWord_fails hu hr]

end Cycle

/-- A bundle without WAIT or TAKE issues every slot it holds. -/
theorem State.tryIssue_unheld {s : State} {t : Nat} {p : Section} (hp : s.prog t = some p)
    (h1 : fld (bunSync (progBundle p (s.tile t).pc)) 34 6 ≠ 1) (h2 : fld (bunSync (progBundle p (s.tile t).pc)) 34 6 ≠ 2) (y0 y1 : Ecc) :
    s.tryIssue t y0 y1 = s.issueSlots t (progBundle p (s.tile t).pc) y0 y1 := by
  simp [State.tryIssue, hp, h1, h2]

/-! ## WAIT_SATISFIED (R64, R71, R72) -/

theorem exec_waitSatisfied_eq (t : Fin 8) (j : Fin 64) (y0 y1 : Ecc) (s : State) :
    exec (.waitSatisfied t j y0 y1) s = act s fun s => s.waitSatisfied t j y0 y1 := rfl

/-- The state after the last held cycle of a wait that is met. -/
def State.waitSeen (s : State) (t : Nat) (h : Hold) : State :=
  ((s.aclk t 1).wrap (blkR (spnBlk t) 0x068) 48 1).modTile t fun x => { x with spn := 1, hold := if h.prog then none else some h }

/-- A wait that is met takes one cycle to be seen, and what it holds issues in the next unless that is throttled. -/
theorem State.waitSatisfied_met {s : State} {t : Nat} {h : Hold} (j : Nat) (y0 y1 : Ecc) (hok : s.ok (spnBlk t) = true) (hu : s.uninjected = true)
    (hspn : (s.tile t).spn = 2) (hh : (s.tile t).hold = some h) (he : (s.tally t h.tally).err = false) (hn : h.n ≤ (s.tally t h.tally).count) :
    s.waitSatisfied t j y0 y1 = (s.waitSeen t h).unlessThrottled t j fun s => s.issueCached t .clean y0 y1 := by
  have hsee : (s.aclk t 1).seeWait t = (true, s.waitSeen t h) :=
    State.seeWait_met hu (by simpa using he) (by simpa using hh) (by simpa using hn)
  simp [State.waitSatisfied, hspn, hok, hh, Nat.not_lt.2 hn, hsee]

section WaitSeen
variable (s : State) (t : Nat) (h : Hold)

theorem State.waitSeen_ac : ((s.waitSeen t h).tile t).ac = (s.tile t).ac + 1 := by simp [State.waitSeen, State.aclk]

theorem State.waitSeen_pc : ((s.waitSeen t h).tile t).pc = (s.tile t).pc := by simp [State.waitSeen]

theorem State.waitSeen_hold : ((s.waitSeen t h).tile t).hold = if h.prog then none else some h := by simp [State.waitSeen]

theorem State.waitSeen_tally (k : Nat) : (s.waitSeen t h).tally t k = s.tally t k := by simp [State.tally, State.waitSeen, State.aclk]

end WaitSeen

/-- Settles O1: the tally is tested once, and the bundle issues, waits or fails as the test says. -/
theorem waitAndTakeFollowTheTally : Obligations.WaitAndTakeFollowTheTally := by
  refine ⟨?_, ?_, ?_⟩
  · intro s t k n halive hr hu he c pc r
    have answers (take : Bool) {u : State} (h : s.waitCmd t k n take = u) := answers_of (exec_wait_eq t k n take s) halive h
    refine ⟨fun hn => ⟨answers false (State.waitCmd_met false hr hu he hn), answers true ?_⟩,
      fun hn take => answers take (State.waitCmd_held take hr hu he hn)⟩
    rw [State.waitCmd_met true hr hu he hn]
    simp [State.takeTally, r, c, pc]
  · intro s t j y0 y1 h halive hok hu hspn hh he hn r late
    have hseen := State.waitSatisfied_met j y0 y1 hok hu hspn hh he hn
    have answers {u : State} (h : s.waitSatisfied t j y0 y1 = u) := answers_of (exec_waitSatisfied_eq t j y0 y1 s) halive h
    have hac : ((s.waitSeen t h).tile t).ac = (s.tile t).ac + 1 := s.waitSeen_ac t h
    have runs (hl : late = false) :
        s.waitSatisfied t j y0 y1 = ((s.waitSeen t h).aclk t 1).issueCached t .clean y0 y1 :=
      hseen.trans (State.unlessThrottled_runs _ (by rw [hac]; exact hl))
    have own (hp : h.prog = false) : (((s.waitSeen t h).aclk t 1).tile t).hold = some h := by simp [State.waitSeen_hold, hp]
    have free (hp : h.prog = true) : (((s.waitSeen t h).aclk t 1).tile t).hold = none := by simp [State.waitSeen_hold, hp]
    refine ⟨fun hl hp => answers ?_, fun hl hp => answers ?_, fun hl => answers ?_⟩
    · rw [runs hl, State.issueCached_hold (own hp)]
      simp only [State.takeTally, State.aclk_tally, State.aclk_pc, State.waitSeen_tally, State.waitSeen_pc]
      rfl
    · exact (runs hl).trans (State.issueCached_clean (s := (s.waitSeen t h).aclk t 1) hu (free hp) y0 y1)
    · exact hseen.trans (State.unlessThrottled_late _ (by rw [hac]; exact hl))
  · intro s t k n take halive hr hu he r
    exact ⟨answers_of (exec_wait_eq t k n take s) halive (State.waitCmd_flagged take hr hu he), detBase_tallyError t⟩

/-! ## ADD, LOOP, ENDLOOP, STEP_END and HALT (R64, R68, R69, R72) -/

theorem exec_syncAdd_eq (t : Fin 8) (k : Fin 248) (n : Fin 67108864) (s : State) :
    exec (.syncAdd t k n) s = act s fun s => s.addCmd t k n := rfl

theorem exec_loop_eq (t : Fin 8) (n : Fin 16777216) (s : State) :
    exec (.loop t n) s = act s fun s => s.slotIssue t fun s => s.loopPush t n := rfl

theorem exec_endloop_eq (t : Fin 8) (s : State) : exec (.endloop t) s = act s fun s => s.slotIssue t fun s => s.loopEnd t := rfl

theorem exec_stepEnd_eq (t : Fin 8) (s : State) : exec (.stepEnd t) s = act s fun s => s.slotIssue t fun s => s.stepEnd t := rfl

theorem exec_halt_eq (t : Fin 8) (s : State) : exec (.halt t) s = act s fun s => s.slotIssue t fun s => s.spnHalt t := rfl

/-- A slot operation of its own acts where the spindle runs. -/
theorem State.slotIssue_runs {s : State} {t : Nat} (h : s.spnRuns t = true) (f : State → State) : s.slotIssue t f = f s := if_pos h

/-- A slot operation answers with its effect on a spindle that runs. -/
theorem answers_slot {c : Instr} {s u : State} {t : Nat} {f : State → State} (h : exec c s = act s fun s => s.slotIssue t f)
    (halive : s.alive = true) (hr : s.spnRuns t = true) (hf : f s = u) : Answers c s u :=
  answers_of h halive ((s.slotIssue_runs hr f).trans hf)

/-! ### The issue of a bundle (R48, Table 3-15) -/

section Next
variable (s : State) (t pc : Nat)

@[simp] theorem State.spnNext_tile (u : Nat) :
    (s.spnNext t pc).tile u = if u = t then { s.tile t with spn := 1, pc := pc, hold := none, refill := false } else s.tile u := by
  simp [State.spnNext, State.modTile_tile]

@[simp] theorem State.spnNext_tally (u k : Nat) : (s.spnNext t pc).tally u k = s.tally u k := by
  simp only [State.tally, State.spnNext_tile]; split <;> simp_all

@[simp] theorem State.spnNext_uninjected (h : s.uninjected = true) : (s.spnNext t pc).uninjected = true :=
  State.uninjected_progress _ _ h

theorem State.spnNext_rg (o : Nat) :
    (s.spnNext t pc).rg o = if o = blkR (spnBlk t) 0x060 then BitVec.ofNat 64 (wrapAdd 48 (s.rg (blkR (spnBlk t) 0x060)).toNat 1) else s.rg o := by
  simp [State.spnNext, State.wrap_rg]

theorem State.spnNext_progress : ((s.spnNext t pc).blk (spnBlk t)).progress = wrapAdd 32 (s.blk (spnBlk t)).progress 1 := by
  simp [State.spnNext, State.progress_blk]

end Next

/-- A 48-bit counter that wraps, as a register holds it. -/
theorem wrapAdd_toNat (x n : Nat) : (BitVec.ofNat 64 (wrapAdd 48 x n)).toNat = (x + n) % 2 ^ 48 := by
  simp only [wrapAdd, BitVec.toNat_ofNat]; omega

/-! ### Tallies and loops (R64, R65, R69) -/

/-- An increment below the largest count adds to the tally. -/
theorem State.tallyAdd_counts {s : State} (hu : s.uninjected = true) {t k n : Nat} (h : (s.tally t k).count + n < 2 ^ 32) :
    s.tallyAdd t k n = s.setTally t k { s.tally t k with count := (s.tally t k).count + n } := by
  simp only [State.tallyAdd, s.takeInject_uninjected hu, h, decide_true, Bool.not_false, Bool.and_self, if_true]

/-- An increment beyond the largest count leaves the largest count, sets the error flag and reports TALLY_SATURATED. -/
theorem State.tallyAdd_saturates {s : State} (hu : s.uninjected = true) {t k n : Nat} (h : 2 ^ 32 ≤ (s.tally t k).count + n) :
    s.tallyAdd t k n = (s.setTally t k { count := 2 ^ 32 - 1, err := true }).spnReport t 4 3 k := by
  have hmin : min ((s.tally t k).count + n) (2 ^ 32 - 1) = 2 ^ 32 - 1 := by omega
  simp only [State.tallyAdd, s.takeInject_uninjected hu, Nat.not_lt.2 h, hmin, decide_false, Bool.false_and, Bool.false_eq_true, if_false]

section Loop
variable {s : State} {t b n : Nat} {rest : List (Nat × Nat)} (h : (s.tile t).loops = (b, n) :: rest)
include h

/-- ENDLOOP branches back while turns are left. -/
theorem State.loopEnd_again (hn : 2 ≤ n) :
    s.loopEnd t = (s.modTile t fun x => { x with loops := (b, n - 1) :: rest }).spnNext t b := by
  obtain ⟨m, rfl⟩ : ∃ m, n = m + 2 := ⟨n - 2, by omega⟩
  simp [State.loopEnd, h]

/-- ENDLOOP pops the loop after its last turn. -/
theorem State.loopEnd_pops (hn : n < 2) :
    s.loopEnd t = (s.modTile t fun x => { x with loops := rest }).spnNext t ((s.tile t).pc + 1) := by
  match n, hn with
  | 0, _ => simp [State.loopEnd, h]
  | 1, _ => simp [State.loopEnd, h]

end Loop

theorem State.loopPush_eq (s : State) (t n : Nat) :
    s.loopPush t n = (s.modTile t fun x => { x with loops := (x.pc + 1, n) :: x.loops }).spnNext t ((s.tile t).pc + 1) := by
  simp [State.loopPush]

/-- A spindle that halts has just issued its bundle, so that it is not in ERROR. -/
theorem State.spnHalt_eq (s : State) (t : Nat) :
    s.spnHalt t = ((s.spnNext t ((s.tile t).pc + 1)).modTile t fun x => { x with spn := 5 }).msix (259 + (s.tile t).ctx) := by
  simp [State.spnHalt, State.haltEnd]

/-- Settles O2: each command issues its bundle once, and what the issue counts is what the two counters show. -/
theorem syncCommandsIssue : Obligations.SyncCommandsIssue := by
  refine ⟨?_, ?_⟩
  · intro s t halive hr hu x
    refine ⟨fun k n hn => answers_of (exec_syncAdd_eq t k n s) halive ?_, fun n => ?_, fun b n rest hl hn => ?_, fun b n rest hl hn => ?_, ?_, ?_⟩
    · have hadd : s.addCmd t k n = (s.spnNext t (x.pc + 1)).tallyAdd t k n := if_pos hr
      rw [hadd, State.tallyAdd_counts (s.spnNext_uninjected t _ hu) (by simpa using hn), State.spnNext_tally]
    · exact answers_slot (exec_loop_eq t n s) halive hr (s.loopPush_eq t n)
    · exact answers_slot (exec_endloop_eq t s) halive hr (State.loopEnd_again hl hn)
    · exact answers_slot (exec_endloop_eq t s) halive hr (State.loopEnd_pops hl hn)
    · exact answers_slot (exec_stepEnd_eq t s) halive hr rfl
    · exact answers_slot (exec_halt_eq t s) halive hr (s.spnHalt_eq t)
  · intro s t pc r
    have htile : r.tile t = { s.tile t with spn := 1, pc := pc, hold := none, refill := false } := by simp [r]
    refine ⟨?_, s.spnNext_progress t pc, by rw [htile], by rw [htile], by rw [htile], by rw [htile],
      fun u hne => by simp [r, hne], fun o hne => by simp [r, State.spnNext_rg, hne], rfl, rfl, rfl, rfl⟩
    simp only [r, State.spnNext_rg, if_true, wrapAdd_toNat]

/-! ## BUNDLE_ISSUE and CACHE_FILL_DONE (R48, R51, R64, R70, R71) -/

theorem exec_bundleIssue_eq (t : Fin 8) (j : Fin 64) (e y0 y1 : Ecc) (s : State) :
    exec (.bundleIssue t j e y0 y1) s = act s fun s => s.bundleIssue t j e y0 y1 := rfl

theorem exec_cacheFillDone_eq (t : Fin 8) (j : Fin 64) (ue : Bool) (y0 y1 : Ecc) (s : State) :
    exec (.cacheFillDone t j ue y0 y1) s = act s fun s => s.fillDone t j ue y0 y1 := rfl

section Bundle
variable {s : State} {t : Nat} (hok : s.ok (spnBlk t) = true)
include hok

/-- In WAIT a cycle tests the wait. -/
theorem State.bundleIssue_wait (h : (s.tile t).spn = 2) (j : Nat) (e y0 y1 : Ecc) :
    s.bundleIssue t j e y0 y1 = s.unlessThrottled t j fun s => (s.seeWait t).2 := by
  simp [State.bundleIssue, hok, h]

/-- In RUN a cycle issues the bundle at the PC, or starts the fill of its line. -/
theorem State.bundleIssue_run (h : (s.tile t).spn = 1) (j : Nat) (e y0 y1 : Ecc) :
    s.bundleIssue t j e y0 y1 = s.unlessThrottled t j fun u =>
      if (s.tile t).hold.isNone && !(s.tile t).cached then u.startFill t false else u.issueCached t e y0 y1 := by
  simp [State.bundleIssue, hok, h]

theorem State.bundleIssue_throttled {j : Nat} (h : (s.tile t).spn = 1 ∨ (s.tile t).spn = 2)
    (hl : throttled (s.dutyAt (3 * s.cclk + (s.tile t).ac)) j = true) (e y0 y1 : Ecc) :
    s.bundleIssue t j e y0 y1 = (s.aclk t 1).wrap (blkR (spnBlk t) 0x070) 48 1 := by
  rcases h with h | h
  · rw [State.bundleIssue_run hok h, State.unlessThrottled_late _ hl]
  · rw [State.bundleIssue_wait hok h, State.unlessThrottled_late _ hl]

end Bundle

/-- The line of the bundle at the PC is in the cache, and the spindle is in RUN. -/
def State.lineFilled (s : State) (t : Nat) : State :=
  s.modTile t fun x => { x with spn := 1, cache := x.cache.set (x.pc / 64 % 64) (x.pc / 64 * 64) }

/-- A fill that ends puts the line into the cache, and the missed bundle issues in the next cycle unless that is throttled. -/
theorem State.fillDone_eq {s w : State} {t : Nat} {bad : Bool} (hspn : (s.tile t).spn = 3) (hok : s.ok (spnBlk t) = true)
    (hf : s.fillLine t = (bad, w)) (j : Nat) (ue : Bool) (y0 y1 : Ecc) :
    s.fillDone t j ue y0 y1 =
      (w.lineFilled t).unlessThrottled t j fun s => s.issueCached t (if ue || bad then .uncorrectable else .clean) y0 y1 := by
  have hgo : (decide ((s.tile t).spn ≠ 3) || !s.ok (spnBlk t)) ≠ true := by simp [hspn, hok]
  rw [State.fillDone, if_neg hgo, hf]
  rfl

section Filled
variable (w : State) (t : Nat)

theorem State.lineFilled_cached : ((w.lineFilled t).tile t).cached = true := by
  simp [State.lineFilled, Tile.cached]

theorem State.lineFilled_ac : ((w.lineFilled t).tile t).ac = (w.tile t).ac := by simp [State.lineFilled]

theorem State.lineFilled_spn : ((w.lineFilled t).tile t).spn = 1 := by simp [State.lineFilled]

theorem State.lineFilled_hold : ((w.lineFilled t).tile t).hold = (w.tile t).hold := by simp [State.lineFilled]

theorem State.lineFilled_refill : ((w.lineFilled t).tile t).refill = (w.tile t).refill := by simp [State.lineFilled]

end Filled

/-- Settles O3: a cycle that is not throttled issues, fills or tests as the spindle's state says, and so does the cycle after a fill. -/
theorem bundlesIssueOrWait : Obligations.BundlesIssueOrWait := by
  refine ⟨?_, ?_⟩
  · intro s t j y0 y1 halive hok hu x r late
    have answers {u : State} (h : s.bundleIssue t j .clean y0 y1 = u) := answers_of (exec_bundleIssue_eq t j .clean y0 y1 s) halive h
    have run (hspn : x.spn = 1) (hl : late = false) := (State.bundleIssue_run hok hspn j .clean y0 y1).trans (State.unlessThrottled_runs _ hl)
    have wait (hspn : x.spn = 2) (hl : late = false) := (State.bundleIssue_wait hok hspn j .clean y0 y1).trans (State.unlessThrottled_runs _ hl)
    have hhold (o : Option Hold) (h : x.hold = o) : (r.tile t).hold = o := (s.aclk_hold t 1).trans h
    refine ⟨fun hspn hl => answers (State.bundleIssue_throttled hok hspn hl .clean y0 y1), fun hspn hh hl hc => answers ?_,
      fun p hspn hh hl hc hp h1 h2 => answers ?_, fun h hspn hl hh he hn => answers ?_, fun h hspn hl hh he hn => answers ?_⟩
    · rw [run hspn hl, if_pos (by simp [x] at hh hc; simp [hh, hc])]
      rfl
    · have hpc : (r.tile t).pc = x.pc := s.aclk_pc t 1
      rw [run hspn hl, if_neg (by simp [x] at hc; simp [hc]), State.issueCached_clean (s := r) hu (hhold none hh),
        State.tryIssue_unheld (s := r) hp (by rwa [hpc]) (by rwa [hpc]), hpc]
    · rw [wait hspn hl, State.seeWait_held (s := r) hu (by simpa [r] using he) (hhold (some h) hh) (by simpa [r] using hn)]
    · rw [wait hspn hl, State.seeWait_met (s := r) hu (by simpa [r] using he) (hhold (some h) hh) (by simpa [r] using hn)]
  · intro s w t j y0 y1 bad halive hok hspn hf hu hh v r late
    have answers (ue : Bool) {u : State} (h : s.fillDone t j ue y0 y1 = u) := answers_of (exec_cacheFillDone_eq t j ue y0 y1 s) halive h
    have hac : (v.tile t).ac = (w.tile t).ac := w.lineFilled_ac t
    have filled (ue : Bool) := State.fillDone_eq hspn hok hf j ue y0 y1
    have runs (ue : Bool) (hl : late = false) :
        s.fillDone t j ue y0 y1 = r.issueCached t (if ue || bad then .uncorrectable else .clean) y0 y1 :=
      (filled ue).trans (State.unlessThrottled_runs (s := v) _ (by rw [hac]; exact hl))
    have hhold : (r.tile t).hold = none := (v.aclk_hold t 1).trans ((w.lineFilled_hold t).trans hh)
    have hrefill : (r.tile t).refill = (w.tile t).refill := (v.aclk_refill t 1).trans (w.lineFilled_refill t)
    have hfail : (r.tile t).canFail = true := Tile.canFail_of_run ((v.aclk_spn t 1).trans (w.lineFilled_spn t))
    refine ⟨w.lineFilled_cached t, fun hl ue => answers ue ?_, fun hl hb => answers false ?_, fun hl hr => answers true ?_, fun hl hr => answers true ?_⟩
    · exact (filled ue).trans (State.unlessThrottled_late (s := v) _ (by rw [hac]; exact hl))
    · rw [runs false hl, hb]
      exact State.issueCached_clean (s := r) hu hhold y0 y1
    · rw [runs true hl]
      exact State.issueCached_refills (s := r) hu hhold (hrefill.trans hr) y0 y1
    · rw [runs true hl]
      exact (State.issueCached_fails (s := r) hu hhold (hrefill.trans hr) y0 y1).trans (State.spnError_canFail hfail 1 5 255 false)

/-! ## The end of an operation at its tally (R65, R66) -/

section OpEnds
variable {s : State} {t k : Nat} (hu : s.uninjected = true) (h7 : (s.tile t).spn ≠ 7)
include h7

theorem State.opDone_tallied (hk : k ≠ 255) : s.opDone t k = s.tallyAdd t k 1 := by
  simp [State.opDone, hk, h7]

include hu

/-- A failed operation sets the error flag of its tally, and still counts. -/
theorem State.opFail_tallied (hk : k ≠ 255) : s.opFail t k = (s.setTally t k { s.tally t k with err := true }).tallyAdd t k 1 := by
  simp [State.opFail, h7, s.takeInject_uninjected hu, hk]

theorem State.opFail_untallied : s.opFail t 255 = s.spnError t 6 6 255 := by
  simp [State.opFail, h7, s.takeInject_uninjected hu]

end OpEnds

theorem State.opDone_untallied (s : State) (t : Nat) : s.opDone t 255 = s := by simp [State.opDone]

/-- A fault leaves the spindle in ERROR. -/
theorem State.spnError_spn {s : State} {t : Nat} (h : (s.tile t).canFail = true) (det cause tally : Nat) (inj : Bool) :
    ((s.spnError t det cause tally inj).tile t).spn = 6 := by
  simp [State.spnError_canFail h]

/-- Settles O9: an operation that ends outside STOPPING increments its tally, which saturates at its largest count, or has none. -/
theorem talliesCountOperations : Obligations.TalliesCountOperations := by
  intro s t k hu h7 x
  refine ⟨fun hk hc => ?_, fun hk hc => ?_, fun hk hc => ?_, fun hf => ?_, s.opDone_untallied t⟩
  · exact (State.opDone_tallied h7 hk).trans (State.tallyAdd_counts hu (Nat.add_lt_of_lt_sub hc))
  · have hmax : (s.tally t k).count = 2 ^ 32 - 1 := hc
    have hsat : s.opDone t k = (s.setTally t k { count := 2 ^ 32 - 1, err := true }).spnReport t 4 3 k :=
      (State.opDone_tallied h7 hk).trans (State.tallyAdd_saturates hu (by omega))
    exact ⟨hsat, by rw [hsat]; simp⟩
  · have hcount : ((s.setTally t k { x with err := true }).tally t k).count + 1 < 2 ^ 32 := by
      rw [State.setTally_tally_self]; exact Nat.add_lt_of_lt_sub hc
    rw [State.opFail_tallied hu h7 hk, State.tallyAdd_counts (s := s.setTally t k { x with err := true }) hu hcount]
    simp [x]
  · rw [State.opFail_untallied hu h7]
    exact State.spnError_spn hf 6 6 255 false

end Sys2Proof.Machine
end

section
/-!
SUPPORT. The array slots and the vector unit (chapters 03, 04 and 05): how an operation enters its queue or its pipe, how a result leaves its pipe, and what the lane-wise
and row operations compute, and from it the statements about them.
-/
namespace Sys2Proof.Machine

/-! ## Array slots (R52, R85, R94) -/

/-- Each command of an array slot issues the operation of its code. -/
theorem exec_arrSlot_eq (t : Fin 8) (a : Fin 4) (half : Fin 3) (desc : Fin 65536) (tally : Fin 256) (s : State) :
    ∀ kc ∈ [(1, Instr.wload t a half desc tally), (2, .stream t a half desc tally), (3, .streamClr t a half desc tally), (4, .drain t a half desc tally)],
      exec kc.2 s = act s fun s => s.slotIssue t fun s => s.arrIssue t a kc.1 half desc tally := by
  simp only [List.forall_mem_cons]
  exact ⟨rfl, rfl, rfl, rfl, List.forall_mem_nil _⟩

/-- A detector whose condition does not hold finds nothing where no injected failure waits. -/
theorem State.detect_quiet {s : State} (hu : s.uninjected = true) (b d : Nat) (r : Rpt) : s.detect b d false r = (false, s) := by
  simp [State.detect, s.takeInject_uninjected hu]

/-- A detector whose condition holds reports. -/
theorem State.detect_real {s : State} (hu : s.uninjected = true) (b d : Nat) (r : Rpt) :
    s.detect b d true r = (true, s.flag b d { r with injected := false }) := by
  simp [State.detect, s.takeInject_uninjected hu]

/-- The operation that an array slot issues. -/
def State.slotOp (s : State) (t a kind desc tally : Nat) : ArrOp :=
  { kind := kind, desc := desc, tally := tally, bytes := (match s.prog t with | some p => progArr p desc | none => []),
    seq := (s.arr (4 * t + a)).seq, epoch := (s.arr (4 * t + a)).epoch + (s.arr (4 * t + a)).next.length }

section ArrIssue
variable {s : State} {t a h : Nat} (kind desc tally : Nat)

/-- A half that the shape does not have issues nothing. -/
theorem State.arrIssue_absent (hs : h ∉ shapeHalves (s.arr (4 * t + a)).newest) : s.arrIssue t a kind h desc tally = s := by
  simp [State.arrIssue, hs]

variable (hs : h ∈ shapeHalves (s.arr (4 * t + a)).newest) (hok : s.ok (arrBlk (4 * t + a)) = true)
include hs hok

/-- An operation for a stopped half fails at once. -/
theorem State.arrIssue_stopped (hst : ((s.arr (4 * t + a)).half h).stopped = true) :
    s.arrIssue t a kind h desc tally =
      (s.modArr (4 * t + a) fun x => { x with seq := x.seq + 1, empty := false }).arrFail (4 * t + a) (s.slotOp t a kind desc tally) := by
  cases hp : s.prog t <;> simp [State.arrIssue, hs, hok, hst, State.slotOp, hp]

/-- An operation enters the queue of its half behind those that wait there. -/
theorem State.arrIssue_queues (hu : s.uninjected = true) (hst : ((s.arr (4 * t + a)).half h).stopped = false)
    (hq : ((s.arr (4 * t + a)).half h).q.length < 4) :
    s.arrIssue t a kind h desc tally = s.modArr (4 * t + a) fun x =>
      { x with seq := x.seq + 1, empty := false,
               halves := x.halves.set h { x.half h with q := (x.half h).q ++ [s.slotOp t a kind desc tally] } } := by
  have hd (r : Rpt) := State.detect_quiet (s := s.modArr (4 * t + a) fun x => { x with seq := x.seq + 1, empty := false }) hu (arrBlk (4 * t + a)) 5 r
  have hissue : s.arrIssue t a kind h desc tally =
      (s.modArr (4 * t + a) fun x => { x with seq := x.seq + 1, empty := false }).modHalf (4 * t + a) h fun y =>
        { y with q := y.q ++ [s.slotOp t a kind desc tally] } := by
    cases hp : s.prog t <;> simp [State.arrIssue, hs, hok, hst, hd, Nat.not_le.2 hq, State.slotOp, hp]
  exact hissue.trans (State.modArr_modArr _ _ _ _)

end ArrIssue

/-- Settles O4: an operation of an array slot issues nothing, waits in its queue, or fails. -/
theorem arraySlotsQueue : Obligations.ArraySlotsQueue := by
  intro s t a half desc tally halive hr hu i x kc hkc op
  have answers {u : State} (h : s.arrIssue t a kc.1 half desc tally = u) : Answers kc.2 s u :=
    answers_slot (exec_arrSlot_eq t a half desc tally s kc hkc) halive hr h
  exact ⟨fun hs => answers (State.arrIssue_absent kc.1 desc tally hs),
    fun hs hok hst hq => answers (State.arrIssue_queues kc.1 desc tally hs hok hu hst hq),
    fun hs hok hst => answers (State.arrIssue_stopped kc.1 desc tally hs hok hst)⟩

/-! ## The issue of a vector operation (R54, R55, R58, R66, R121, R336) -/

/-- The command of each opcode. -/
def vecInstr (t : Fin 8) (o : VOp) (e : Ecc) : VCode → Instr
  | .mov => .vuMov t o e
  | .cvt => .vuCvt t o e
  | .add => .vuAdd t o e
  | .sub => .vuSub t o e
  | .mul => .vuMul t o e
  | .fma => .vuFma t o e
  | .max => .vuMax t o e
  | .min => .vuMin t o e
  | .abs => .vuAbs t o e
  | .neg => .vuNeg t o e
  | .sel => .vuSel t o e
  | .cmpgt => .vuCmpgt t o e
  | .exp => .vuExp t o e
  | .log => .vuLog t o e
  | .rsqrt => .vuRsqrt t o e
  | .recip => .vuRecip t o e
  | .rowsum => .vuRowsum t o e
  | .rowmax => .vuRowmax t o e
  | .rowmin => .vuRowmin t o e
  | .smaxExp => .vuSmaxExp t o e
  | .lnStats => .vuLnStats t o e
  | .lnApply => .vuLnApply t o e
  | .topk => .vuTopk t o e
  | .encode => .vuEncode t o e

/-- Each command of a vector slot issues the operation of its opcode. -/
theorem exec_vecInstr_eq (t : Fin 8) (o : VOp) (e : Ecc) (c : VCode) (s : State) :
    exec (vecInstr t o e c) s = act s fun s => s.slotIssue t fun s => s.vecIssue t c o e := by
  cases c <;> rfl

section VecIssue
variable {s : State} {t : Nat} {c : VCode}

theorem State.yRead_clean (hu : s.uninjected = true) : s.yRead t .clean = (false, s) := by
  have hce : (Ecc.clean == .corrected) = false := rfl
  have hue : (Ecc.clean == .uncorrectable) = false := rfl
  simp [State.yRead, hce, hue, State.detect_quiet hu]

theorem State.yRead_uncorrectable (hu : s.uninjected = true) :
    s.yRead t .uncorrectable = (true, (s.flag (vuBlk t) 1 { ctx := some (s.tile t).ctx }).sat (blkR (vuBlk t) 0x058) 0 32 1) := by
  have hce : (Ecc.uncorrectable == .corrected) = false := rfl
  simp [State.yRead, hce, State.detect_quiet hu, State.detect_real hu]

/-- A vector unit, or for ENCODE an encoder, that does not work fails the operation. -/
theorem State.vecIssue_broken (h : s.ok (vuBlk t) = false ∨ c = .encode ∧ s.ok (encBlk t) = false) (o : VOp) (e : Ecc) :
    s.vecIssue t c o e = s.vecFail t c o.tally := by
  rcases h with h | ⟨rfl, h⟩ <;> simp [State.vecIssue, h]

variable (hok : s.ok (vuBlk t) = true) (henc : c = .encode → s.ok (encBlk t) = true) (hu : s.uninjected = true)
include hok henc

theorem State.vecIssue_works : (!s.ok (vuBlk t) || (c == .encode && !s.ok (encBlk t))) = false := by
  by_cases hc : c = .encode
  · simp [hok, henc hc]
  · simp [hok, hc]

include hu

/-- The result of an operation on the registers as they stand is in flight. -/
theorem State.vecIssue_clean (o : VOp) :
    s.vecIssue t c o .clean = s.modTile t fun x => { x with vu := x.vu ++ [s.vecResult t c o] } := by
  simp only [State.vecIssue, State.vecIssue_works hok henc, State.yRead_clean hu, Bool.false_eq_true, if_false]

/-- An uncorrectable source word fails the operation. -/
theorem State.vecIssue_uncorrectable (o : VOp) :
    s.vecIssue t c o .uncorrectable =
      ((s.flag (vuBlk t) 1 { ctx := some (s.tile t).ctx }).sat (blkR (vuBlk t) 0x058) 0 32 1).vecFail t c o.tally := by
  simp only [State.vecIssue, State.vecIssue_works hok henc, State.yRead_uncorrectable hu, Bool.false_eq_true, if_false, if_true]

end VecIssue

/-! ## The write of a vector result (R55, R121) -/

theorem exec_vuResultWrite_eq (t : Fin 8) (k : Nat) (s : State) : exec (.vuResultWrite t k) s = act s fun s => s.vecWrite t k := rfl

theorem exec_encodeDone_eq (t : Fin 8) (dataBad profileBad : Bool) (s : State) :
    exec (.encodeDone t dataBad profileBad) s = act s fun s => s.encodeDone t dataBad profileBad := rfl

section VecWrite
variable {s : State} {t k : Nat} {r : VRes} (hk : (s.tile t).vu[k]? = some r)

/-- A result of the arithmetic pipe yields to one that the function pipe wrote to its register in the same cycle. -/
theorem State.vecPut_yields (ha : r.arith = true) (hv : r.vd ∈ (s.tile t).vs1) : s.vecPut t r = s := by
  simp [State.vecPut, ha, hv]

/-- Any other result is written to its register, and what TOPK adds to its second. -/
theorem State.vecPut_y (h : r.arith = false ∨ r.vd ∉ (s.tile t).vs1) :
    ((s.vecPut t r).tile t).y =
      match r.second with
      | some (v, l) => ((s.tile t).y.set r.vd r.val).set v l
      | none => (s.tile t).y.set r.vd r.val := by
  have hw : (r.arith && (s.tile t).vs1.contains r.vd) = false := by rcases h with h | h <;> simp [h]
  simp only [State.vecPut, hw, Bool.false_eq_true, if_false]
  cases r.second <;> cases r.arith <;> simp [State.setY]

include hk

theorem State.vecWrite_writes (he : r.enc = none) :
    s.vecWrite t k = (((((s.modTile t fun x => { x with vu := x.vu.eraseIdx k }).vecPut t r).wrap (blkR (vuBlk t) 0x040) 48 1).sat
      (blkR (vuBlk t) 0x048) 0 32 r.flushed).progress (vuBlk t)).opDone t r.tally := by
  simp [State.vecWrite, hk, he]

/-- The oldest ENCODE in flight writes its register and adds to the four counters of its encoder. -/
theorem State.encodeDone_writes (hu : s.uninjected = true) (hi : findIdxOpt (fun (r : VRes) => r.enc.isSome) (s.tile t).vu 0 = some k)
    {fl ov z n : Nat} (he : r.enc = some (fl, ov, z, n)) (hok : s.ok (encBlk t) = true) :
    s.encodeDone t false false = ((((((((((s.modTile t fun x => { x with vu := x.vu.eraseIdx k }).progress (encBlk t)).vecPut t r).sat
      (blkR (encBlk t) 0x040) 0 32 fl).sat (blkR (encBlk t) 0x048) 0 32 ov).sat (blkR (encBlk t) 0x050) 0 32 z).sat
      (blkR (encBlk t) 0x058) 0 32 n).wrap (blkR (encBlk t) 0x068) 48 1).wrap (blkR (vuBlk t) 0x040) 48 1).progress (vuBlk t)).opDone t r.tally := by
  have hd (d : Nat) (rp : Rpt) := State.detect_quiet (s := s.modTile t fun x => { x with vu := x.vu.eraseIdx k }) hu (encBlk t) d rp
  simp [State.encodeDone, hi, hk, hd, hok, he]

end VecWrite

/-- Settles O7: an operation that issues is in flight or has failed, and one that ends is written. -/
theorem vectorOperationsIssueAndWrite : Obligations.VectorOperationsIssueAndWrite := by
  refine ⟨?_, ?_⟩
  · intro s t o e halive hr hu ci hci
    have hinstr : ci.2 = vecInstr t o e ci.1 := by
      simp only [List.mem_cons, List.not_mem_nil, or_false] at hci
      rcases hci with rfl | rfl | rfl | rfl | rfl | rfl | rfl | rfl | rfl | rfl | rfl | rfl | rfl | rfl | rfl | rfl | rfl | rfl | rfl | rfl | rfl |
        rfl | rfl | rfl <;> rfl
    have answers {u : State} (h : s.vecIssue t ci.1 o e = u) : Answers ci.2 s u :=
      answers_slot (by rw [hinstr]; exact exec_vecInstr_eq t o e ci.1 s) halive hr h
    refine ⟨fun hok henc he => answers ?_, fun hok henc he => answers ?_, fun h => answers (State.vecIssue_broken h o e)⟩
    · rw [he]; exact State.vecIssue_clean hok henc hu o
    · rw [he]; exact State.vecIssue_uncorrectable hok henc hu o
  · intro s t halive hu
    refine ⟨fun k r hk he => answers_of (exec_vuResultWrite_eq t k s) halive (State.vecWrite_writes hk he), fun r w ha hv => State.vecPut_yields ha hv,
      fun r w h => State.vecPut_y h, fun k r fl ov z n hi hk he hok => ?_⟩
    exact answers_of (exec_encodeDone_eq t false false s) halive (State.encodeDone_writes hk hu hi he hok)

/-! ## What the vector opcodes compute (R56, R57, Table 3-4) -/

/-- The lanes of a register that holds results of the format given. -/
def lanesOut (fmt : Nat) (xs : List Fp) : List W32 := (xs.map (laneOut fmt)).map (·.1)

/-- The opcodes that compute lane by lane with one operation of the table. -/
def VCode.laneWise : VCode → Bool
  | .add | .sub | .mul | .fma | .max | .min | .abs | .neg | .sel | .cmpgt | .exp | .log | .rsqrt | .recip => true
  | _ => false

theorem lane_lanesOut (fmt : Nat) (xs : List Fp) (i : Nat) : lane (lanesOut fmt xs) i = (xs[i]?.map fun x => (laneOut fmt x).1).getD 0 := by
  simp [lane, lanesOut, List.getD_eq_getElem?_getD, Function.comp_def]

theorem lane_lanesOut_range (fmt : Nat) (f : Nat → Fp) {i : Nat} (hi : i < 2048) :
    lane (lanesOut fmt ((List.range lanes).map f)) i = (laneOut fmt (f i)).1 := by
  simp [lane_lanesOut, lanes, hi]

section Results
variable (s : State) (t : Nat) (o : VOp)

theorem State.vecResult_laneWise {c : VCode} (hc : c.laneWise = true) :
    (s.vecResult t c o).val = lanesOut o.fmt ((List.range lanes).map fun i =>
      laneOp c (elem o.fmt (lane (s.y t o.va) i)) (elem o.fmt (lane (s.y t o.vb) i)) (elem o.fmt (lane (s.y t o.vc) i))) := by
  cases c <;> simp [VCode.laneWise] at hc <;> simp only [State.vecResult, lanesOut]

theorem State.vecResult_cvt :
    (s.vecResult t .cvt o).val = lanesOut o.fmt ((List.range lanes).map fun i => elem (o.imm.val % 4) (lane (s.y t o.va) i)) := by
  simp only [State.vecResult, lanesOut]

theorem State.vecResult_mov : (s.vecResult t .mov o).val = s.y t o.va := rfl

end Results

/-! ### Rows -/

/-- Blocks of one length, laid one after another. -/
theorem flatMap_range_getElem? {α : Type} (f : Nat → List α) {w : Nat} (hf : ∀ r, (f r).length = w) {r i : Nat} (hi : i < w) :
    ∀ n, r < n → ((List.range n).flatMap f)[r * w + i]? = (f r)[i]? := by
  have hlen : ∀ n, ((List.range n).flatMap f).length = n * w := fun n => by simp [List.length_flatMap, hf]
  intro n
  induction n with
  | zero => exact fun h => absurd h (Nat.not_lt_zero r)
  | succ n ih =>
    intro hr
    rw [List.range_succ, List.flatMap_append, List.flatMap_singleton]
    rcases Nat.lt_succ_iff_lt_or_eq.1 hr with h | rfl
    · have hlt : r * w + i < n * w := by nlinarith
      rw [List.getElem?_append_left (by rw [hlen]; exact hlt), ih h]
    · rw [List.getElem?_append_right (by rw [hlen]; omega), hlen, Nat.add_sub_cancel_left]

theorem rowLead_length (n : Nat) (xs : List Fp) : (rowLead n xs).length = 2 ^ n := by simp [rowLead]

/-- A row's leading results stand in its first lanes, and zero in the others. -/
theorem rowLead_getElem? {n i : Nat} (xs : List Fp) (hi : i < 2 ^ n) : (rowLead n xs)[i]? = some (xs.getD i .zero) := by
  rw [rowLead, List.getElem?_take_of_lt hi, List.getD_eq_getElem?_getD]
  by_cases h : i < xs.length
  · simp [List.getElem?_append_left h, h]
  · have hle := Nat.le_of_not_lt h
    rw [List.getElem?_append_right hle, List.getElem?_eq_none hle, List.getElem?_replicate, if_pos (by omega)]
    rfl

/-- Row r of a register of rows of 2^n values. -/
def rowAtOf (n fmt : Nat) (y : List W32) (r : Nat) : List Fp := (List.range (2 ^ n)).map fun j => elem fmt (lane y (r * 2 ^ n + j))

/-- Where each row leads with its results, lane i of row r holds the result of its number, or zero. -/
theorem lane_rowsOut (n fmt : Nat) (y : List W32) (g : List Fp → List Fp) {r i : Nat} (hr : r < 2048 / 2 ^ n) (hi : i < 2 ^ n) :
    lane (lanesOut fmt ((rowsOf n fmt y).flatMap fun xs => rowLead n (g xs))) (r * 2 ^ n + i) =
      (laneOut fmt ((g (rowAtOf n fmt y r)).getD i .zero)).1 := by
  have hrow : ((rowsOf n fmt y).flatMap fun xs => rowLead n (g xs))[r * 2 ^ n + i]? = some ((g (rowAtOf n fmt y r)).getD i .zero) := by
    rw [rowsOf, List.flatMap_map]
    exact (flatMap_range_getElem? (fun r => rowLead n (g (rowAtOf n fmt y r))) (fun r => rowLead_length n _) hi _ hr).trans (rowLead_getElem? _ hi)
  rw [lane_lanesOut, hrow]
  rfl

theorem getD_singleton (x : Fp) (i : Nat) : [x].getD i .zero = if i = 0 then x else .zero := by
  cases i <;> rfl

/-! ### Maximum and minimum (R56) -/

theorem vMax_nan_right (a : Fp) : vMax a .nan = a := by cases a <;> rfl

theorem vMin_nan_right (a : Fp) : vMin a .nan = a := by cases a <;> rfl

/-- −0 stands below +0. -/
theorem lt_zeros (e f : Int) : Fp.lt true (.fin true 0 e) (.fin false 0 f) = true ∧ Fp.lt true (.fin false 0 f) (.fin true 0 e) = false := by
  simp [Fp.lt, sm]

/-- Settles O8: a result is its lanes' operation lane by lane, or its rows' results with zeros behind them. -/
theorem vectorResultsByLane : Obligations.VectorResultsByLane := by
  refine ⟨?_, ?_, ⟨fun b => ⟨rfl, rfl⟩, fun a => ⟨vMax_nan_right a, vMin_nan_right a⟩, fun e f => ?_⟩⟩
  · intro s t o i hi a b d
    refine ⟨fun cv hcv => ?_, ?_, s.vecResult_mov t o⟩
    · have hop : cv.1.laneWise = true ∧ cv.2 = laneOp cv.1 a b d := by
        simp only [List.mem_cons, List.not_mem_nil, or_false] at hcv
        rcases hcv with rfl | rfl | rfl | rfl | rfl | rfl | rfl | rfl | rfl | rfl | rfl | rfl | rfl | rfl <;> exact ⟨rfl, rfl⟩
      rw [s.vecResult_laneWise t o hop.1, lane_lanesOut_range _ _ hi, hop.2]
    · rw [s.vecResult_cvt t o, lane_lanesOut_range _ _ hi]
  · intro s t o r i n _ _ hr hi xs at_ put
    have lead (g : List Fp → List Fp) := lane_rowsOut n o.fmt (s.y t o.va) g hr hi
    have single (f : List Fp → Fp) : lane (lanesOut o.fmt ((rowsOf n o.fmt (s.y t o.va)).flatMap fun xs => rowLead n [f xs])) (r * 2 ^ n + i) =
        put (f xs) := by
      rw [lead fun xs => [f xs], getD_singleton]
      rfl
    exact ⟨single (treeSum n), single (rowFold vMax), single (rowFold vMin), lead (lnStats n)⟩
  · obtain ⟨hlt, hge⟩ := lt_zeros e f
    simp [vMax, vMin, Fp.isNan, hlt, hge]

end Sys2Proof.Machine
end

section
/-!
SUPPORT. The movers and the fabric slots (chapter 03): how a descriptor is handed over, how a row is read and written or goes to another chip, and how an operation ends or
fails, and from it the statements about them.
-/
namespace Sys2Proof.Machine

/-! ## RUN, SEND, EXPECT and JOIN (R59, R62, R63) -/

theorem exec_run_eq (t m : Fin 8) (desc : Fin 32768) (tally : Fin 256) (s : State) :
    exec (.run t m desc tally) s = act s fun s => s.slotIssue t fun s => s.movRun t m desc tally := rfl

theorem exec_send_eq (t : Fin 8) (desc : Fin 65536) (tally : Fin 256) (s : State) :
    exec (.send t desc tally) s = act s fun s => s.slotIssue t fun s => s.fabIssue t 1 desc tally := rfl

theorem exec_expect_eq (t : Fin 8) (desc : Fin 65536) (tally : Fin 256) (s : State) :
    exec (.expect t desc tally) s = act s fun s => s.slotIssue t fun s => s.fabIssue t 2 desc tally := rfl

theorem exec_join_eq (t : Fin 8) (desc : Fin 65536) (tally : Fin 256) (s : State) :
    exec (.join t desc tally) s = act s fun s => s.slotIssue t fun s => s.fabIssue t 3 desc tally := rfl

/-- The bytes of a descriptor of a tile's program, none where the tile has no program. -/
def State.descBytes (s : State) (t : Nat) (read : Section → List Byte) : List Byte := ((s.prog t).map read).getD []

theorem State.descBytes_of {s : State} {t : Nat} {read : Section → List Byte} {bytes : List Byte}
    (h : (∃ p, s.prog t = some p ∧ bytes = read p) ∨ (s.prog t = none ∧ bytes = [])) : s.descBytes t read = bytes := by
  rcases h with ⟨p, hp, rfl⟩ | ⟨hp, rfl⟩ <;> simp [State.descBytes, hp]

section Run
variable {s : State} {t m : Nat} (hok : s.ok (movBlk t) = true) (hu : s.uninjected = true)
include hok hu

theorem State.movRun_queues (hq : (s.mover t m).q.length < 8) (desc tally : Nat) :
    s.movRun t m desc tally = s.setMover t m { s.mover t m with
      serial := (s.mover t m).serial + 1
      q := (s.mover t m).q ++
        [{ desc := desc, tally := tally, bytes := s.descBytes t fun p => progMov p desc, ser := (s.mover t m).serial }] } := by
  cases hp : s.prog t <;> simp [State.movRun, hok, s.takeInject_uninjected hu, Nat.not_le.2 hq, State.descBytes, hp]

/-- A mover that holds eight descriptors takes no more. -/
theorem State.movRun_overruns (hq : 8 ≤ (s.mover t m).q.length) (desc tally : Nat) : s.movRun t m desc tally = s.spnError t 2 1 tally := by
  simp [State.movRun, hok, s.takeInject_uninjected hu, hq]

end Run

section Fabric
variable (s : State) (t desc tally : Nat)

/-- The start that a fabric slot hands to the collective engine. -/
def State.fabStart (kind : Nat) : Start := { tile := t, kind := kind, bytes := s.descBytes t fun p => progFab p desc, tally := tally }

theorem State.fabIssue_starts {kind : Nat} (hk : kind ≠ 2) : s.fabIssue t kind desc tally = s.startColl (s.fabStart t desc tally kind) := by
  cases hp : s.prog t <;> simp [State.fabIssue, hk, State.fabStart, State.descBytes, hp]

variable {s t} (hu : s.uninjected = true)
include hu

theorem State.fabIssue_expects (he : (s.tile t).expects.length < 64) : s.fabIssue t 2 desc tally = s.startColl (s.fabStart t desc tally 2) := by
  cases hp : s.prog t <;> simp [State.fabIssue, s.takeInject_uninjected hu, Nat.not_le.2 he, State.fabStart, State.descBytes, hp]

/-- A tile with 64 expect entries outstanding takes no more. -/
theorem State.fabIssue_overruns (he : 64 ≤ (s.tile t).expects.length) : s.fabIssue t 2 desc tally = s.spnError t 3 2 tally := by
  simp [State.fabIssue, s.takeInject_uninjected hu, he]

end Fabric

/-- Settles O10: a descriptor is handed over, or the spindle overruns. -/
theorem runAndFabricSlotsQueue : Obligations.RunAndFabricSlotsQueue := by
  refine ⟨?_, ?_⟩
  · intro s t m desc tally halive hr hu hok x bytes hb
    have answers {u : State} (h : s.movRun t m desc tally = u) := answers_slot (exec_run_eq t m desc tally s) halive hr h
    refine ⟨fun hq => answers ?_, fun hq => answers ?_⟩
    · rw [State.movRun_queues hok hu hq, State.descBytes_of hb]
    · exact (State.movRun_overruns hok hu hq desc tally).trans
        (State.spnError_canFail (Tile.canFail_of_run (State.spnRuns_spn hr)) 2 1 tally false)
  · intro s t desc tally halive hr hu bytes hb st
    have hst (kind : Nat) : s.fabStart t desc tally kind = st kind := by rw [State.fabStart, State.descBytes_of hb]
    have starts {kind : Nat} (hk : kind ≠ 2) : s.fabIssue t kind desc tally = s.startColl (st kind) := by
      rw [s.fabIssue_starts t desc tally hk, hst]
    have answers {u : State} (h : s.fabIssue t 2 desc tally = u) := answers_slot (exec_expect_eq t desc tally s) halive hr h
    refine ⟨answers_slot (exec_send_eq t desc tally s) halive hr (starts (by decide)),
      answers_slot (exec_join_eq t desc tally s) halive hr (starts (by decide)), fun he => answers ?_, fun he => answers ?_⟩
    · rw [State.fabIssue_expects desc tally hu he, hst]
    · exact (State.fabIssue_overruns desc tally hu he).trans
        (State.spnError_canFail (Tile.canFail_of_run (State.spnRuns_spn hr)) 3 2 tally false)

/-! ## What each command of a mover acts with -/

theorem exec_moverRowWritten_eq (t m : Fin 8) (row : Nat) (ups : Upsets) (y : Ecc) (s : State) :
    exec (.moverRowWritten t m row ups y) s = act s fun s => (s.upset ups).movRowWritten t m row y := rfl

theorem exec_moverDescDone_eq (t m : Fin 8) (s : State) : exec (.moverDescDone t m) s = act s fun s => s.movDone t m := rfl

theorem exec_moverOpFail_eq (t m : Fin 8) (st : Fin 4) (s : State) : exec (.moverOpFail t m st) s = act s fun s => s.movOpFail t m st := rfl

theorem exec_moverParity_eq (t : Fin 8) (s : State) : exec (.moverParity t) s = act s fun s => s.moverParity t := rfl

/-! ## What leaves a mover's record alone -/

/-- Words that change leave everything but themselves alone. -/
theorem State.upset_keeps {β : Type} (P : State → β) (h : ∀ (s : State) u, P { s with upsets := u } = P s) (s : State) (l : Upsets) :
    P (s.upset l) = P s := by
  obtain ⟨u, e⟩ := s.upset_eq l
  rw [e, h]

section Upset
variable (s : State) (l : Upsets)

@[simp] theorem State.upset_uninjected : (s.upset l).uninjected = s.uninjected := State.upset_keeps (·.uninjected) (fun _ _ => rfl) s l

@[simp] theorem State.upset_ok (b : Nat) : (s.upset l).ok b = s.ok b := State.upset_keeps (·.ok b) (fun _ _ => rfl) s l

@[simp] theorem State.upset_mover (t m : Nat) : (s.upset l).mover t m = s.mover t m := State.upset_keeps (·.mover t m) (fun _ _ => rfl) s l

@[simp] theorem State.upset_tileWho (t : Nat) : (s.upset l).tileWho t = s.tileWho t := State.upset_keeps (·.tileWho t) (fun _ _ => rfl) s l

@[simp] theorem State.upset_isLocal (a : Nat) : (s.upset l).isLocal a = s.isLocal a := State.upset_keeps (·.isLocal a) (fun _ _ => rfl) s l

@[simp] theorem State.upset_y (t r : Nat) : (s.upset l).y t r = s.y t r := State.upset_keeps (·.y t r) (fun _ _ => rfl) s l

end Upset

section SetMover
variable (s : State) (t m : Nat) (x : Mover)

@[simp] theorem State.setMover_uninjected : (s.setMover t m x).uninjected = s.uninjected := rfl

@[simp] theorem State.setMover_isLocal (a : Nat) : (s.setMover t m x).isLocal a = s.isLocal a := rfl

@[simp] theorem State.setMover_y (u r : Nat) : (s.setMover t m x).y u r = s.y u r := by
  simp only [State.y, State.setMover, State.modTile_tile]; split <;> simp_all

end SetMover

@[simp] theorem State.setY_mover (s : State) (t r u m : Nat) (v : List W32) : (s.setY t r v).mover u m = s.mover u m := by
  simp only [State.mover, State.setY, State.modTile_tile]; split <;> simp_all

@[simp] theorem State.flag_mover (s : State) (b d : Nat) (r : Rpt) (t m : Nat) : (s.flag b d r).mover t m = s.mover t m := by
  simp [State.mover]

/-- The read of a Y register leaves the tiles' records alone. -/
theorem State.yRead_tiles (s : State) (t : Nat) (e : Ecc) : (s.yRead t e).2.tiles = s.tiles := by
  have hsat (c : Bool) (r : State) (o : Nat) : (if c then r.sat o 0 32 1 else r).tiles = r.tiles := by split <;> rfl
  have hdet := Spared.tiles.toQuiet.detect
  unfold State.yRead
  dsimp only
  rw [hsat, hdet, hsat, hdet]

/-! ## The running operation of a mover -/

/-- A mover with the operations given: the one that runs, and those behind it. -/
def Mover.withOp (x : Mover) (op : MovOp) (q : List MovOp) : Mover := { x with q := op :: q }

@[simp] theorem Mover.withOp_q (x : Mover) (op : MovOp) (q : List MovOp) : (x.withOp op q).q = op :: q := rfl

@[simp] theorem Mover.withOp_aborting (x : Mover) (op : MovOp) (q : List MovOp) : (x.withOp op q).aborting = x.aborting := rfl

@[simp] theorem Mover.withOp_withOp (x : Mover) (op op' : MovOp) (q q' : List MovOp) : (x.withOp op q).withOp op' q' = x.withOp op' q' := rfl

theorem Mover.eq_withOp {x : Mover} {op : MovOp} {q : List MovOp} (h : x.q = op :: q) : x = x.withOp op q := by
  rw [Mover.withOp, ← h]

theorem State.modOp_withOp {s : State} {t m : Nat} {x : Mover} {op : MovOp} {q : List MovOp} (h : s.mover t m = x.withOp op q)
    (f : MovOp → MovOp) : s.modOp t m f = s.setMover t m (x.withOp (f op) q) := by
  rw [s.modOp_running t m op q (by rw [h]; rfl), h]
  rfl

/-- The operation once a row of it has been commanded. -/
def MovOp.asking (op : MovOp) (row : Nat) : MovOp := { op with asked := op.asked ++ [row] }

/-- The operation once a row of it has issued. -/
def MovOp.issuing (op : MovOp) (row : Nat) : MovOp := { op with asked := op.asked ++ [row], issued := row + 1 }

/-- The operation once the data of a row of it are there. -/
def MovOp.holding (op : MovOp) (row : Nat) (bs : List Byte) : MovOp := { op.issuing row with got := [(row, bs)] }

theorem MovOp.asking_read {op : MovOp} (h : op.got = []) (row : Nat) (bs : List Byte) :
    { op.asking row with issued := row + 1, got := (op.asking row).got.set row bs } = op.holding row bs := by
  simp [MovOp.asking, MovOp.holding, MovOp.issuing, Table.set, h]

theorem MovOp.holding_dropped {op : MovOp} (h : op.got = []) (row : Nat) (bs : List Byte) :
    { op.holding row bs with got := (op.holding row bs).got.drop fun j => j == row } = op.issuing row := by
  simp [MovOp.holding, MovOp.issuing, Table.drop, h]

/-- A row that has been written counts, and its tally takes the rows that have all been written in order. -/
def State.rowCounted (r : State) (t m k : Nat) (x : Mover) (op : MovOp) (q : List MovOp) : State :=
  let ws := op.written ++ [k]
  let n := written ws ws.length op.counted
  let r := (r.setMover t m (x.withOp { op with written := ws, counted := n } q)).wrap (blkR (movBlk t) 0x080) 64 (movRowBytes op.bytes)
  if movPerRow op.bytes && op.tally != 255 && op.counted < n then r.tallyAdd t op.tally (n - op.counted) else r

theorem State.rowBehind_congr {s r : State} {op op' : MovOp} (hb : op'.bytes = op.bytes) (hw : op'.written = op.written)
    (hl : ∀ a, r.isLocal a = s.isLocal a) (k : Nat) : r.rowBehind op' k = s.rowBehind op k := by
  simp only [State.rowBehind, hb, hw, hl]

section Running
variable {s r : State} {t m row : Nat} {x : Mover} {op : MovOp} {q : List MovOp} {bs : List Byte} (hm : s.mover t m = x.withOp op q)
include hm

theorem State.rowDone_eq (k : Nat) : s.rowDone t m k = s.rowCounted t m k x op q := by
  have hq : (s.mover t m).q = op :: q := by rw [hm]; rfl
  simp only [State.rowDone, hq, State.modOp_withOp hm]
  rfl

/-! ### A row is read (R60, R126) -/

/-- A row of this chip's memory is read. -/
theorem State.rowIssue_fetches {o op' : MovOp} (hd : { op with issued := row + 1, got := op.got.set row bs } = op') (hk : movKind o.bytes ≠ 2) (hl : s.isLocal (movAddr o.bytes 0 row) = true)
    (hf : s.fetch (some t) (s.tileWho t) (addrOff (movAddr o.bytes 0 row)) (movRowBytes o.bytes) = ((0, bs), r)) (y : Ecc) :
    s.rowIssue t m y o row = (0, r.setMover t m (x.withOp op' q)) := by
  have hmr : r.mover t m = x.withOp op q := by
    have := s.fetch_mover (some t) (s.tileWho t) (addrOff (movAddr o.bytes 0 row)) (movRowBytes o.bytes) t m
    rw [hf] at this
    exact this.trans hm
  simp only [State.rowIssue, if_neg hk, hl, if_true, hf, State.modOp_withOp hmr, hd]

/-- A row of a Y register is read. -/
theorem State.rowIssue_reads_y {o op' : MovOp} (hd : { op with issued := row + 1, got := op.got.set row bs } = op') (hu : s.uninjected = true)
    (hk : movKind o.bytes = 2) (hbs : laneRow (movLanes16 o.bytes) (s.y t (u o.bytes 0x29 1 + row)) = bs) :
    s.rowIssue t m .clean o row = (0, s.setMover t m (x.withOp op' q)) := by
  simp only [State.rowIssue, if_pos hk, State.yRead_clean hu, State.modOp_withOp hm, hbs, hd]

/-- A row of another chip is asked of it. -/
theorem State.rowIssue_asks {o : MovOp} (hk : movKind o.bytes ≠ 2) (hl : s.isLocal (movAddr o.bytes 0 row) = false) (y : Ecc) :
    s.rowIssue t m y o row = (0, (s.setMover t m (x.withOp
      { op with issued := row + 1, need := op.need.set (2 * row) (movPieces (movRowBytes o.bytes)) } q)).askRow t m o.ser row 0
        (movAddr o.bytes 0 row) (movRowBytes o.bytes) []) := by
  simp only [State.rowIssue, if_neg hk, hl, Bool.false_eq_true, if_false, State.modOp_withOp hm]

/-! ### A row is written (R60, R61, R139) -/

section Write
variable {op' : MovOp} (hd : { op with got := op.got.drop fun j => j == row } = op')
include hd

/-- A row goes to a Y register. -/
theorem State.rowWrite_y (hk : movKind op.bytes = 1) :
    s.rowWrite t m row op bs =
      (0, ((s.setMover t m (x.withOp op' q)).setY t (u op.bytes 0x29 1 + row) (rowLanes (movLanes16 op.bytes) bs)).rowDone t m row) := by
  simp only [State.rowWrite, State.modOp_withOp hm, hd, if_pos hk]

/-- A row goes to this chip's memory. -/
theorem State.rowWrite_puts (hk : movKind op.bytes ≠ 1) (hl : s.isLocal (movAddr op.bytes 8 row) = true)
    (hp : (s.setMover t m (x.withOp op' q)).put_ (some t) (s.tileWho t) (addrOff (movAddr op.bytes 8 row)) bs = (0, r)) :
    s.rowWrite t m row op bs = (0, r.rowDone t m row) := by
  simp only [State.rowWrite, State.modOp_withOp hm, hd, if_neg hk, State.setMover_isLocal, hl, if_true, State.setMover_tileWho, hp]

/-- A row goes to another chip. -/
theorem State.rowWrite_asks (hk : movKind op.bytes ≠ 1) (hl : s.isLocal (movAddr op.bytes 8 row) = false) :
    s.rowWrite t m row op bs = (0, (s.setMover t m (x.withOp
      { op' with need := op'.need.set (2 * row + 1) (movPieces (movRowBytes op.bytes)) } q)).askRow t m op.ser row 1
        (movAddr op.bytes 8 row) (movRowBytes op.bytes) bs) := by
  have hm' : (s.setMover t m (x.withOp op' q)).mover t m = x.withOp op' q := s.setMover_mover t m _
  simp only [State.rowWrite, State.modOp_withOp hm, hd, if_neg hk, State.setMover_isLocal, hl, Bool.false_eq_true, if_false,
    State.modOp_withOp hm', State.setMover_setMover]

end Write

/-- The data of one row wait, and no earlier row has to go first: the row is written. -/
theorem State.rowsFlush_one (hg : op.got = [(row, bs)]) (ha : op.asked.contains row = true) (hb : s.rowBehind op row = false)
    (hw : s.rowWrite t m row op bs = (0, r)) : s.rowsFlush t m op.ser = r := by
  have hq : (s.mover t m).q = op :: q := by rw [hm]; rfl
  simp [State.rowsFlush, hq, hg, hb, hw, List.contains_iff_mem.1 ha]

end Running

/-! ## MOVER_ROW_WRITTEN (R60, R61, R126, R139, R140) -/

/-- Row `row` is the next of the running operation of a mover that works. -/
structure RowDue (s : State) (t m row : Nat) (x : Mover) (op : MovOp) (q : List MovOp) : Prop where
  running : s.mover t m = x.withOp op q
  quiet : s.uninjected = true
  works : s.ok (movBlk t) = true
  within : row < movRowCount op.bytes
  fresh : op.asked.contains row = false
  moves : x.aborting = false
  next : op.issued = row

theorem RowDue.upset {s : State} {t m row : Nat} {x : Mover} {op : MovOp} {q : List MovOp} (h : RowDue s t m row x op q) (ups : Upsets) :
    RowDue (s.upset ups) t m row x op q :=
  { h with
    running := (s.upset_mover ups t m).trans h.running
    quiet := (s.upset_uninjected ups).trans h.quiet
    works := (s.upset_ok ups _).trans h.works }

/-- What a read leaves of which addresses are local, and of the rights of a tile. -/
theorem State.fetch_keeps_way {s r : State} {t m : Nat} {x : Mover} {u : Option Nat} {w : Who} {o n st : Nat} {bs : List Byte}
    (hf : (s.setMover t m x).fetch u w o n = ((st, bs), r)) : (∀ a, r.isLocal a = s.isLocal a) ∧ r.tileWho t = s.tileWho t := by
  have hplan := Spared.plan.fetch (s.setMover t m x) u w o n
  have hwho := (s.setMover t m x).fetch_tileWho u w o n t
  rw [hf] at hplan hwho
  exact ⟨isLocal_of_plan hplan, hwho.trans (s.setMover_tileWho t m x)⟩

section Row
variable {s v r : State} {t m row : Nat} {x : Mover} {op : MovOp} {q : List MovOp} {y : Ecc} {bs : List Byte}

/-! ### A row whose data are there -/

section Held
variable (hgot : op.got = [])
include hgot

/-- A row goes to a Y register, and counts. -/
theorem State.rowWrite_held_y (hk : movKind op.bytes = 1) :
    (v.setMover t m (x.withOp (op.holding row bs) q)).rowWrite t m row (op.holding row bs) bs =
      (0, ((v.setMover t m (x.withOp (op.issuing row) q)).setY t (u op.bytes 0x29 1 + row) (rowLanes (movLanes16 op.bytes) bs)).rowCounted t m row
        x (op.issuing row) q) := by
  rw [State.rowWrite_y (v.setMover_mover t m _) (MovOp.holding_dropped hgot row bs) hk, State.setMover_setMover,
    State.rowDone_eq (x := x) (op := op.issuing row) (q := q) (by simp)]
  rfl

/-- A row goes to this chip's memory, and counts. -/
theorem State.rowWrite_held_local (hk : movKind op.bytes ≠ 1) (hl : v.isLocal (movAddr op.bytes 8 row) = true)
    (hp : (v.setMover t m (x.withOp (op.issuing row) q)).put_ (some t) (v.tileWho t) (addrOff (movAddr op.bytes 8 row)) bs = (0, r)) :
    (v.setMover t m (x.withOp (op.holding row bs) q)).rowWrite t m row (op.holding row bs) bs = (0, r.rowCounted t m row x (op.issuing row) q) := by
  have hmr : r.mover t m = x.withOp (op.issuing row) q := by
    have := State.put_mover (v.setMover t m (x.withOp (op.issuing row) q)) (some t) (v.tileWho t) (addrOff (movAddr op.bytes 8 row)) bs t m
    rw [hp, State.setMover_mover] at this
    exact this
  rw [State.rowWrite_puts (v.setMover_mover t m _) (MovOp.holding_dropped hgot row bs) hk hl
    (by rw [State.setMover_setMover, State.setMover_tileWho]; exact hp), State.rowDone_eq hmr]

/-- A row goes to another chip, and counts when every piece has been answered. -/
theorem State.rowWrite_held_remote (hk : movKind op.bytes ≠ 1) (hl : v.isLocal (movAddr op.bytes 8 row) = false) :
    (v.setMover t m (x.withOp (op.holding row bs) q)).rowWrite t m row (op.holding row bs) bs =
      (0, (v.setMover t m (x.withOp
        { op.issuing row with need := op.need.set (2 * row + 1) (movPieces (movRowBytes op.bytes)) } q)).askRow t m op.ser row 1
          (movAddr op.bytes 8 row) (movRowBytes op.bytes) bs) := by
  rw [State.rowWrite_asks (v.setMover_mover t m _) (MovOp.holding_dropped hgot row bs) hk hl, State.setMover_setMover]
  rfl

end Held

/-! ### The row commanded next -/

variable (h : RowDue s t m row x op q)
include h

/-- The next row in order issues, and the rows whose data are there are written. -/
theorem State.movRowWritten_next (hi : (s.setMover t m (x.withOp (op.asking row) q)).rowIssue t m y op row = (0, r)) :
    s.movRowWritten t m row y = r.rowsFlush t m op.ser := by
  have hq : (s.mover t m).q = op :: q := by rw [h.running]; rfl
  have hnext : (List.range (row + 1)).drop op.issued = [row] := by
    rw [h.next, List.range_succ, List.drop_append_of_le_length (by simp)]
    simp
  have hissue : (s.setMover t m (x.withOp (op.asking row) q)).rowsIssue t m row y op = (0, r) := by
    simp [State.rowsIssue, hnext, hi]
  have hgo : (!s.ok (movBlk t) || decide (movRowCount op.bytes ≤ row) || op.asked.contains row || (s.mover t m).aborting) = false := by
    rw [h.works, h.fresh, h.running, Mover.withOp_aborting, h.moves]
    simpa using h.within
  have hcommanded : (s.modOp t m fun o => { o with asked := o.asked ++ [row] }) = s.setMover t m (x.withOp (op.asking row) q) :=
    State.modOp_withOp h.running _
  simp only [State.movRowWritten, hq, hgo, s.takeInject_uninjected h.quiet, Bool.false_eq_true, if_false, hcommanded, hissue]

/-- A row whose data are there is written, where no earlier row has to go first. -/
theorem State.movRowWritten_held
    (hi : (s.setMover t m (x.withOp (op.asking row) q)).rowIssue t m y op row = (0, v.setMover t m (x.withOp (op.holding row bs) q)))
    (hl : ∀ a, v.isLocal a = s.isLocal a) (hb : s.rowBehind op row = false)
    (hw : (v.setMover t m (x.withOp (op.holding row bs) q)).rowWrite t m row (op.holding row bs) bs = (0, r)) :
    s.movRowWritten t m row y = r := by
  have hbehind : (v.setMover t m (x.withOp (op.holding row bs) q)).rowBehind (op.holding row bs) row = false :=
    (State.rowBehind_congr (s := s) (op := op) rfl rfl hl row).trans hb
  rw [State.movRowWritten_next h hi]
  exact State.rowsFlush_one (op := op.holding row bs) (v.setMover_mover t m _) rfl (by simp [MovOp.holding, MovOp.issuing]) hbehind hw

/-- A row of another chip is asked of it. -/
theorem State.movRowWritten_asks (hk : movKind op.bytes ≠ 2) (hl : s.isLocal (movAddr op.bytes 0 row) = false) :
    s.movRowWritten t m row y = ((s.setMover t m (x.withOp
      { op.issuing row with need := op.need.set (2 * row) (movPieces (movRowBytes op.bytes)) } q)).askRow t m op.ser row 0
        (movAddr op.bytes 0 row) (movRowBytes op.bytes) []).rowsFlush t m op.ser := by
  have hi := State.rowIssue_asks (s.setMover_mover t m (x.withOp (op.asking row) q)) hk hl y
  rw [State.setMover_setMover] at hi
  exact State.movRowWritten_next h hi

variable (hgot : op.got = []) (hb : s.rowBehind op row = false)
include hgot hb

/-- A row read from this chip's memory is written. -/
theorem State.movRowWritten_fetched (hk : movKind op.bytes ≠ 2) (hl : s.isLocal (movAddr op.bytes 0 row) = true)
    (hf : (s.setMover t m (x.withOp (op.asking row) q)).fetch (some t) (s.tileWho t) (addrOff (movAddr op.bytes 0 row)) (movRowBytes op.bytes) =
      ((0, bs), v))
    (hw : (v.setMover t m (x.withOp (op.holding row bs) q)).rowWrite t m row (op.holding row bs) bs = (0, r)) :
    s.movRowWritten t m row y = r :=
  State.movRowWritten_held h (State.rowIssue_fetches (s.setMover_mover t m _) (MovOp.asking_read hgot row bs) hk hl
    (by rw [State.setMover_tileWho]; exact hf) y) (State.fetch_keeps_way hf).1 hb hw

/-- A row read from a Y register is written. -/
theorem State.movRowWritten_from_y (hk : movKind op.bytes = 2) (hbs : laneRow (movLanes16 op.bytes) (s.y t (u op.bytes 0x29 1 + row)) = bs)
    (hw : (s.setMover t m (x.withOp (op.holding row bs) q)).rowWrite t m row (op.holding row bs) bs = (0, r)) :
    s.movRowWritten t m row .clean = r := by
  have hi := State.rowIssue_reads_y (s.setMover_mover t m (x.withOp (op.asking row) q)) (MovOp.asking_read hgot row bs) h.quiet hk
    (by rw [State.setMover_y]; exact hbs)
  rw [State.setMover_setMover] at hi
  exact State.movRowWritten_held h hi (fun _ => rfl) hb hw

end Row

/-! ## The end and the failures of an operation (R61, R66, R217) -/

section Ends
variable {s : State} {t m : Nat} {op : MovOp} {q : List MovOp} (hq : (s.mover t m).q = op :: q)
include hq

/-- An operation whose rows are all written leaves its queue. -/
theorem State.movDone_done (hok : s.ok (movBlk t) = true) (hw : movRowCount op.bytes ≤ op.written.length) :
    s.movDone t m =
      if movPerRow op.bytes then (s.setMover t m { s.mover t m with q := q }).progress (movBlk t)
      else ((s.setMover t m { s.mover t m with q := q }).progress (movBlk t)).opDone t op.tally := by
  simp [State.movDone, hq, hok, Nat.not_lt.2 hw]

/-- An operation that fails leaves its queue, is recorded, and fails at its tally, unless its context closes. -/
theorem State.movFail_eq (st : Nat) :
    s.movFail t m st = if (s.tile t).spn = 7 then s else
      (((s.setMover t m { s.mover t m with q := q }).sat (blkR (movBlk t) 0x088) 0 32 1).setRg (blkR (movBlk t) 0x098)
        (put 16 m ||| put 8 st ||| put 0 op.tally)).opFail t op.tally := by
  simp only [State.movFail, hq]

theorem State.movFlag_eq (det st : Nat) :
    s.movFlag t m det st =
      s.flag (movBlk t) det { ctx := some (s.tile t).ctx, detail := put 16 m ||| put 8 st ||| put 0 op.tally } := by
  simp only [State.movFlag, hq]

/-- A reported operation fails as one that is not. -/
theorem State.movFlag_movFail (det st st' : Nat) :
    (s.movFlag t m det st).movFail t m st' =
      let r := s.flag (movBlk t) det { ctx := some (s.tile t).ctx, detail := put 16 m ||| put 8 st ||| put 0 op.tally }
      if (s.tile t).spn = 7 then r else
        (((r.setMover t m { r.mover t m with q := q }).sat (blkR (movBlk t) 0x088) 0 32 1).setRg (blkR (movBlk t) 0x098)
          (put 16 m ||| put 8 st' ||| put 0 op.tally)).opFail t op.tally := by
  rw [State.movFlag_eq hq, State.movFail_eq (by rw [State.flag_mover]; exact hq), State.flag_tile_same]

theorem State.movOpFail_descriptor : s.movOpFail t m 0 = (s.movFlag t m 0 1).movFail t m 1 := by simp only [State.movOpFail, hq]

theorem State.movOpFail_y (hk : movKind op.bytes = 2) : s.movOpFail t m 1 = (s.yRead t .uncorrectable).2.movFail t m 1 := by
  simp only [State.movOpFail, hq, if_pos hk]

theorem State.movOpFail_denied : s.movOpFail t m 2 = s.movFail t m 2 := by simp only [State.movOpFail, hq]

theorem State.movOpFail_remote : s.movOpFail t m 3 = (s.movFlag t m 1 3).movFail t m 3 := by simp only [State.movOpFail, hq]

/-- An uncorrectable word of a Y register fails the operation as one that is not reported. -/
theorem State.yRead_movFail (e : Ecc) (st : Nat) :
    (s.yRead t e).2.movFail t m st =
      let r := (s.yRead t e).2
      if (s.tile t).spn = 7 then r else
        (((r.setMover t m { r.mover t m with q := q }).sat (blkR (movBlk t) 0x088) 0 32 1).setRg (blkR (movBlk t) 0x098)
          (put 16 m ||| put 8 st ||| put 0 op.tally)).opFail t op.tally := by
  have ht : (s.yRead t e).2.tile t = s.tile t := by simp only [State.tile, State.yRead_tiles]
  have hqr : ((s.yRead t e).2.mover t m).q = op :: q := by rw [State.mover, ht]; exact hq
  rw [State.movFail_eq hqr, ht]

end Ends

/-- Parity of a tile's movers that work is reported, and fails every operation of them. -/
theorem State.moverParity_up {s : State} {t : Nat} (h : s.up (movBlk t) = true) :
    s.moverParity t = (s.flag (movBlk t) 2 { ctx := some (s.tile t).ctx }).moversFail t := by
  simp [State.moverParity, State.parity, h]

/-- A row commanded answers with what it comes to once words of memory have changed. -/
theorem answers_moverRowWritten {s v : State} {t m : Fin 8} {row : Nat} {ups : Upsets} {y : Ecc} (halive : s.alive = true)
    (h : (s.upset ups).movRowWritten t m row y = v) : Answers (.moverRowWritten t m row ups y) s v :=
  answers_of (exec_moverRowWritten_eq t m row ups y s) halive h

theorem State.upset_rowBehind (s : State) (ups : Upsets) (op : MovOp) (row : Nat) : (s.upset ups).rowBehind op row = s.rowBehind op row :=
  State.rowBehind_congr rfl rfl (s.upset_isLocal ups) row

/-- Settles O11: a row is read, written and counted, or asked of another chip; an operation ends, or fails as its status says. -/
theorem moverOperations : Obligations.MoverOperations := by
  refine ⟨?_, ?_, ?_, ?_⟩
  · intro s t m op q halive hu hok hq d n
    refine ⟨?_, ?_⟩
    · intro row ups hrow hask hab hiss hgot hbehind ws k from_ to_ next issued begun done
      have due : RowDue (s.upset ups) t m row (s.mover t m) op q := RowDue.upset ⟨Mover.eq_withOp hq, hu, hok, hrow, hask, hab, hiss⟩ ups
      have hloc := s.upset_isLocal ups
      have hwho := s.upset_tileWho ups t
      have hb : (s.upset ups).rowBehind op row = false := (s.upset_rowBehind ups op row).trans hbehind
      refine ⟨fun bs r hk hl hf => ?_, fun r hk hl hp => answers_moverRowWritten halive ?_⟩
      · obtain ⟨hlocr, hwhor⟩ := State.fetch_keeps_way hf
        have answers {y : Ecc} {u : State} (hw : (r.setMover t m ((s.mover t m).withOp (op.holding row bs) q)).rowWrite t m row (op.holding row bs) bs = (0, u)) :
            Answers (.moverRowWritten t m row ups y) s u :=
          answers_moverRowWritten halive (State.movRowWritten_fetched due hgot hb hk ((hloc _).trans hl) (by rw [hwho]; exact hf) hw)
        refine ⟨fun hk1 y => answers (State.rowWrite_held_y hgot hk1), fun hk1 hl8 u y hp => answers ?_⟩
        exact State.rowWrite_held_local hgot hk1 ((hlocr _).trans ((hloc _).trans hl8)) (by rw [hwhor, hwho]; exact hp)
      · have hk1 : movKind op.bytes ≠ 1 := by rw [show movKind op.bytes = 2 from hk]; decide
        exact State.movRowWritten_from_y due hgot hb hk (by rw [State.upset_y])
          (State.rowWrite_held_local hgot hk1 ((hloc _).trans hl) (by rw [hwho]; exact hp))
    · intro hw r
      exact answers_of (exec_moverDescDone_eq t m s) halive (State.movDone_done hq hok hw)
  · intro s r t w o n bs hl hf
    obtain ⟨hbs, hr⟩ := State.fetch_reads hl hf
    refine ⟨hbs, hr.byte, fun r' w' o' hp => ?_⟩
    obtain ⟨hout, hin⟩ := State.put_reads (fun x => hr.late x (hl x)) hp
    exact ⟨fun a ha => (hout a ha).trans (hr.byte a), fun hw => hin fun x hx => (hr.wordOk x).trans (hw x hx)⟩
  · intro s t m op q row ups halive hu hok hq hrow hask hab hiss hgot d n next asks
    have due : RowDue (s.upset ups) t m row (s.mover t m) op q := RowDue.upset ⟨Mover.eq_withOp hq, hu, hok, hrow, hask, hab, hiss⟩ ups
    have hloc := s.upset_isLocal ups
    refine ⟨fun hk hl y => answers_moverRowWritten halive (State.movRowWritten_asks due hk ((hloc _).trans hl)),
      fun hk hl hb => answers_moverRowWritten halive ?_⟩
    have hk1 : movKind op.bytes ≠ 1 := by rw [show movKind op.bytes = 2 from hk]; decide
    exact State.movRowWritten_from_y due hgot ((s.upset_rowBehind ups op row).trans hb) hk (by rw [State.upset_y])
      (State.rowWrite_held_remote hgot hk1 ((hloc _).trans hl))
  · intro s t m op q halive hq failed told
    have answers {st : Fin 4} {u : State} (h : s.movOpFail t m st = u) := answers_of (exec_moverOpFail_eq t m st s) halive h
    exact ⟨answers ((State.movOpFail_descriptor hq).trans (State.movFlag_movFail hq 0 1 1)),
      fun hk => answers ((State.movOpFail_y hq hk).trans (State.yRead_movFail hq .uncorrectable 1)),
      answers ((State.movOpFail_denied hq).trans (State.movFail_eq hq 2)),
      answers ((State.movOpFail_remote hq).trans (State.movFlag_movFail hq 1 3 3)),
      fun h => answers_of (exec_moverParity_eq t s) halive (State.moverParity_up h)⟩

end Sys2Proof.Machine
end

section
/-!
SUPPORT. The matrix arrays (chapter 04): how an operation starts, ends and writes, and how an array changes its shape, gates, clears, closes and stops, and from it the
statements about them.
-/
namespace Sys2Proof.Machine

/-! ## What each command of an array's operations acts with -/

theorem exec_wloadStart_eq (t : Fin 8) (a : Fin 4) (half : Fin 3) (ups : Upsets) (s : State) :
    exec (.wloadStart t a half ups) s = act s fun s => (s.upset ups).wloadStart t a half := rfl

theorem exec_streamStart_eq (t : Fin 8) (a : Fin 4) (half : Fin 3) (ups : Upsets) (s : State) :
    exec (.streamStart t a half ups) s = act s fun s => (s.upset ups).streamStart t a half := rfl

theorem exec_drainStart_eq (t : Fin 8) (a : Fin 4) (half : Fin 3) (s : State) :
    exec (.drainStart t a half) s = act s fun s => s.drainStart t a half := rfl

theorem exec_wloadDone_eq (t : Fin 8) (a : Fin 4) (half : Fin 3) (s : State) :
    exec (.wloadDone t a half) s = act s fun s => s.wloadDone t a half := rfl

theorem exec_streamDone_eq (t : Fin 8) (a : Fin 4) (half : Fin 3) (ce : Nat) (ue : Bool) (s : State) :
    exec (.streamDone t a half ce ue) s = act s fun s => s.streamDone t a half ce ue := rfl

theorem exec_drainDone_eq (t : Fin 8) (a : Fin 4) (half : Fin 3) (ce : Nat) (ue : Bool) (s : State) :
    exec (.drainDone t a half ce ue) s = act s fun s => s.drainDone t a half ce ue := rfl

/-! ## What the updates of an array leave alone -/

@[simp] theorem State.upset_arr (s : State) (l : Upsets) (i : Nat) : (s.upset l).arr i = s.arr i := State.upset_keeps (·.arr i) (fun _ _ => rfl) s l

@[simp] theorem State.upset_arrHead (s : State) (l : Upsets) (i h : Nat) : (s.upset l).arrHead i h = s.arrHead i h :=
  State.upset_keeps (·.arrHead i h) (fun _ _ => rfl) s l

@[simp] theorem State.arrLaunch_uninjected (s : State) (i h : Nat) (op : ArrOp) : (s.arrLaunch i h op).uninjected = s.uninjected := rfl

@[simp] theorem State.windowOver_uninjected (s : State) (i h : Nat) : (s.windowOver i h).uninjected = s.uninjected := by
  simp only [State.windowOver, State.rowsEnter]
  split <;> simp

/-! ## The start of an operation (R83, R85 to R89) -/

/-- A weight set of no class, or of the class of the rows, is no mismatch (R83). -/
theorem WSet.cls_fits {w : WSet} {c : Nat} (h : w.cls = none ∨ w.cls = some c) : decide (w.cls.getD c ≠ c) = false := by
  rcases h with h | h <;> simp [h]

section Starts
variable {s r : State} {t a h : Nat} {op : ArrOp} {x : Arr} (hop : s.arrHead (4 * t + a) h = some op) (hx : s.arr (4 * t + a) = x)
include hop hx

/-- A DRAIN whose turn it is runs once no DRAIN runs in the array and no STREAM into its bank in the half. -/
theorem State.drainStart_runs (hk : op.kind = 4) (hturn : x.engineTurn op = true)
    (hfree : (x.halves.all fun p => p.2.run.all fun o =>
      !(o.kind == 4 || (p.1 == h && o.isStream && descBank o.bytes == descBank op.bytes))) = true) :
    s.drainStart t a h = s.arrLaunch (4 * t + a) h op := by
  simp only [State.drainStart, hop, hx, hfree]
  simp [hk, hturn]

variable (hu : s.uninjected = true)
include hu

/-- A WLOAD whose turn it is and whose words can be read leaves its weights in the next set of its half. -/
theorem State.wloadStart_loads (hk : op.kind = 1) (hturn : x.engineTurn op = true) {w : WSet} {ovf : Nat}
    (hread : readW op.bytes (shapeKs x.shape) (shapeNs x.shape) (s.arrLaunch (4 * t + a) h op) = (some (w, ovf), r)) :
    s.wloadStart t a h =
      ((r.sat (blkR (encBlk t) 0x060) 0 32 ovf).modArr (4 * t + a) fun z =>
        { z with sets := z.sets.set (Machine.setKey h (x.half h).nextSet) w }).modHalf (4 * t + a) h fun z =>
          { z with nextSet := 1 - (x.half h).nextSet, lastSet := (x.half h).nextSet } := by
  have hu' : (s.arrLaunch (4 * t + a) h op).uninjected = true := hu
  simp [State.wloadStart, hop, hx, hk, hturn, State.takeInject_uninjected _ hu', hread]

/-- A STREAM whose bank no DRAIN reads and whose rows can be read opens its gate ahead of its row window and holds what its rows add. -/
theorem State.streamStart_opens {w : WSet} {cls : Nat} {rows : List (List (Fp × Nat))} (hk : op.isStream = true)
    (hbusy : ((x.half h).run.any fun o => o.kind == 4 && descBank o.bytes == descBank op.bytes) = false)
    (hw : x.sets.get {} (Machine.setKey h (x.half h).lastSet) = w) (hc : fmtClass (u op.bytes 0x40 1) = cls) (hcls : w.cls = none ∨ w.cls = some cls)
    (hread : readX op.bytes (shapeKs x.shape) (s.arrLaunch (4 * t + a) h op) = (some rows, r)) :
    s.streamStart t a h =
      ((r.modArr (4 * t + a) fun z =>
        { z with sets := z.sets.set (Machine.setKey h (x.half h).lastSet) { w with cls := some cls } }).windowOver (4 * t + a) h).modHalf (4 * t + a) h fun z =>
          { z with gate := 1, lead := 9, left := streamCycles (u op.bytes 0x3C 2) (u op.bytes 0x40 1) w.fmt,
                   run := z.run.map fun o => if o.seq = op.seq then
                     { o with sums := rows.flatMap fun q => (w.columns (shapeKs x.shape) (shapeNs x.shape)).map (entrySum cls q) } else o } := by
  have hu' : (s.arrLaunch (4 * t + a) h op).uninjected = true := hu
  simp [State.streamStart, hop, hx, hk, hbusy, hw, hc, WSet.cls_fits hcls, State.detect_quiet hu, State.takeInject_uninjected _ hu', hread,
    -decide_not]

end Starts

/-! ## The end of an operation (R78, R87 to R89, R93, R112 to R118) -/

/-- Banks without a word in error and without an injected failure let an operation pass. -/
theorem State.accEcc_clean {s : State} (hu : s.uninjected = true) (i h : Nat) (op : ArrOp) : s.accEcc i h op 0 false = ((false, false), s) := by
  simp [State.accEcc, State.detect_quiet hu, State.takeInject_uninjected _ hu]

/-- Sums without a scale event count in neither of the two counters. -/
theorem EntrySum.no_events {l : List EntrySum} (h : l.all (fun z => !z.isSat && !z.isFlush) = true) :
    l.filter EntrySum.isSat = [] ∧ l.filter EntrySum.isFlush = [] := by
  simp only [List.all_eq_true, Bool.and_eq_true, Bool.not_eq_true'] at h
  simp only [List.filter_eq_nil_iff, Bool.not_eq_true]
  exact ⟨fun z hz => (h z hz).1, fun z hz => (h z hz).2⟩

theorem State.wloadDone_ends {s : State} {t a h : Nat} {op : ArrOp} (hop : s.arrRunning (4 * t + a) h (·.kind == 1) = some op) :
    s.wloadDone t a h = s.arrDone (4 * t + a) h op := by
  simp [State.wloadDone, hop]

section Ends
variable {s : State} {t a h : Nat} {op : ArrOp} (hu : s.uninjected = true)
include hu

/-- A STREAM without scale events leaves its sums in the accumulator entries once its row window is over. -/
theorem State.streamDone_adds (hop : s.arrRunning (4 * t + a) h ArrOp.isStream = some op)
    (hev : op.sums.all (fun z => !z.isSat && !z.isFlush) = true) :
    s.streamDone t a h 0 false =
      (((((s.windowOver (4 * t + a) h).modArr (4 * t + a) fun x =>
        { x with acc := accStream (op.kind == 3) h (descBank op.bytes) (shapeNs ((s.windowOver (4 * t + a) h).arr (4 * t + a)).shape)
                          (u op.bytes 0x3E 2) ((s.windowOver (4 * t + a) h).arr (4 * t + a)).acc op.sums }).sat
        (blkR (arrBlk (4 * t + a)) 0x0A8) 0 32 0).sat (blkR (arrBlk (4 * t + a)) 0x0B0) 0 32 0)).arrDone (4 * t + a) h op := by
  have hw : (s.windowOver (4 * t + a) h).uninjected = true := (s.windowOver_uninjected _ h).trans hu
  obtain ⟨hsat, hflush⟩ := EntrySum.no_events hev
  simp [State.streamDone, hop, State.accEcc_clean hw, State.takeInject_uninjected _ hw, hsat, hflush]

/-- A DRAIN that ends has written what was still to be written. -/
theorem State.drainDone_writes (hop : s.arrRunning (4 * t + a) h (·.kind == 4) = some op) :
    s.drainDone t a h 0 false =
      (s.drainPut ((drainGrains (s.arr (4 * t + a)) h op.bytes).drop op.wrote)).arrDone (4 * t + a) h op := by
  simp [State.drainDone, hop, State.accEcc_clean hu]

end Ends

/-- Settles O5: an operation at the head of its queue starts, and one that runs ends. -/
theorem arrayOperationsRun : Obligations.ArrayOperationsRun := by
  refine ⟨?_, ?_⟩
  · intro s t a half op ups halive hu i x y go hhead
    have hop : (s.upset ups).arrHead i half = some op := (s.upset_arrHead ups i half).trans hhead
    have hx : (s.upset ups).arr i = x := s.upset_arr ups i
    refine ⟨?_, ?_, ?_⟩
    · intro hk hturn w ovf r hread
      exact answers_of (exec_wloadStart_eq t a half ups s) halive (State.wloadStart_loads hop hx hu hk hturn hread)
    · intro hk hbusy w cls hcls rows r hread
      exact answers_of (exec_streamStart_eq t a half ups s) halive (State.streamStart_opens hop hx hu hk hbusy rfl rfl hcls hread)
    · intro hk hturn hfree
      exact answers_of (exec_drainStart_eq t a half s) halive (State.drainStart_runs hhead rfl hk hturn hfree)
  · intro s t a half op halive hu i x ends
    exact ⟨fun hop => answers_of (exec_wloadDone_eq t a half s) halive (State.wloadDone_ends hop),
      fun hop hev => answers_of (exec_streamDone_eq t a half 0 false s) halive (State.streamDone_adds hu hop hev),
      fun hop => answers_of (exec_drainDone_eq t a half 0 false s) halive (State.drainDone_writes hu hop)⟩

/-! ## What each command of an array's state acts with -/

theorem exec_shapeChange_eq (t : Fin 8) (a : Fin 4) (s : State) : exec (.shapeChange t a) s = act s fun s => s.shapeChange t a := rfl

theorem exec_shapeReconfigDone_eq (t : Fin 8) (a : Fin 4) (s : State) : exec (.shapeReconfigDone t a) s = act s fun s => s.shapeDone t a := rfl

theorem exec_arrayClockGate_eq (t : Fin 8) (a : Fin 4) (half : Fin 3) (s : State) :
    exec (.arrayClockGate t a half) s = act s fun s => s.clockGate t a half := rfl

theorem exec_arrayHarvestClear_eq (t : Fin 8) (a : Fin 4) (s : State) : exec (.arrayHarvestClear t a) s = act s fun s => s.arrHarvest t a := rfl

theorem exec_arrayEmpty_eq (t : Fin 8) (a : Fin 4) (s : State) : exec (.arrayEmpty t a) s = act s fun s => s.arrEmpty t a := rfl

theorem exec_arrayTeardownDone_eq (t : Fin 8) (a : Fin 4) (s : State) : exec (.arrayTeardownDone t a) s = act s fun s => s.arrTornDown t a := rfl

theorem exec_arrayScopeStop_eq (t : Fin 8) (a : Fin 4) (half eng : Fin 3) (det : Fin 5) (k upTo : Nat) (s : State) :
    exec (.arrayScopeStop t a half eng det k upTo) s = act s fun s => s.scopeStop t a half eng det k upTo := rfl

/-! ## The array's record through the shared updates -/

@[simp] theorem State.modArr_arr_self (s : State) (i : Nat) (f : Arr → Arr) : (s.modArr i f).arr i = f (s.arr i) := by simp [State.modArr_arr]

theorem State.modArr_arr_ne (s : State) {i k : Nat} (f : Arr → Arr) (h : k ≠ i) : (s.modArr i f).arr k = s.arr k := by simp [State.modArr_arr, h]

/-- The writes of a DRAIN change no array's record. -/
@[simp] theorem State.drainPut_arr (s : State) (l : List (Nat × List Byte)) (i : Nat) : (s.drainPut l).arr i = s.arr i :=
  State.drainPut_keeps (·.arr i) (fun _ _ _ => rfl) (fun _ _ _ => rfl) (fun _ _ _ => rfl) s l

/-! ## A change of shape (R81, R95) -/

/-- Records set one after another: a number that some of them name, all with one record, holds that record. -/
theorem Table.get_foldl_set {α : Type} (d v : α) (k : Nat) (l : List (Nat × α)) (m : Table α) (hv : ∀ p ∈ l, p.1 = k → p.2 = v)
    (hk : (∃ p ∈ l, p.1 = k) ∨ m.get d k = v) : (l.foldl (fun m p => m.set p.1 p.2) m).get d k = v := by
  induction l generalizing m with
  | nil => simpa using hk
  | cons p l ih =>
    obtain ⟨hp, hl⟩ := List.forall_mem_cons.1 hv
    refine ih (m.set p.1 p.2) hl ?_
    by_cases h : p.1 = k
    · exact .inr (by rw [h, Table.get_set_self, hp h])
    · rw [Table.get_set_ne _ _ _ (Ne.symm h)]
      simpa [h] using hk

/-- The halves of an array whose shape becomes `c`: none is stopped, and what a half had queued waits on, also for a later shape. -/
def Arr.reshaped (x : Arr) (c : Nat) : Table Half :=
  (((shapeHalves c).map fun h => (h, { q := (x.half h).q : Half })) ++
    x.halves.filter fun h => !(shapeHalves c).contains h.1 && !h.2.q.isEmpty).foldl (fun m p => m.set p.1 p.2) []

/-- A half of the new shape keeps its queue and nothing else. -/
theorem Arr.reshaped_half (x : Arr) {c h : Nat} (hh : h ∈ shapeHalves c) : (x.reshaped c).get {} h = { q := (x.half h).q } := by
  refine Table.get_foldl_set {} _ h _ [] (fun p hp hph => ?_) (.inl ⟨(h, ({ q := (x.half h).q } : Half)), ?_, rfl⟩)
  · rcases List.mem_append.1 hp with hp | hp
    · obtain ⟨j, -, rfl⟩ := List.mem_map.1 hp
      rw [← hph]
    · have := (List.mem_filter.1 hp).2
      simp [hph, hh] at this
  · exact List.mem_append.2 (.inl (List.mem_map.2 ⟨h, hh, rfl⟩))

section Shape
variable {s : State} {t a : Nat} {x : Arr} (hx : s.arr (4 * t + a) = x)
include hx

theorem State.shapeChange_starts (hn : x.next ≠ []) (hr : x.reconf = false) (ht : x.tearing = false)
    (hops : x.ops.any (fun o => o.epoch == x.epoch) = false) (hup : s.up (arrBlk (4 * t + a)) = true) :
    s.shapeChange t a = s.modArr (4 * t + a) fun z => { z with reconf := true, halves := z.halves.map fun h => (h.1, { h.2 with gate := 0 }) } := by
  simp [State.shapeChange, hx, hn, hr, ht, hops, hup]

/-- A reconfiguration ends with the oldest of the shapes that wait in force, the array cleared and its halves made anew. -/
theorem State.shapeDone_reshapes {c : Nat} {rest : List Nat} (hr : x.reconf = true) (hn : x.next = c :: rest)
    (hst : x.halves.any (fun h => h.2.stopped) = false) :
    s.shapeDone t a = s.modArr (4 * t + a) fun z =>
      { z.wipe with shape := c, next := rest, reconf := false, epoch := z.epoch + 1, halves := x.reshaped c } := by
  simp [State.shapeDone, hx, hr, hn, hst, Arr.reshaped]

/-! ## Gates, harvests and teardown (R92, R96, R97) -/

/-- A harvest with every operation complete clears the array. -/
theorem State.arrHarvest_clears (hspn : (s.tile t).spn = 4) (hops : x.ops = []) (ht : x.tearing = false) (hc : x.clearing = false)
    (he : x.empty = false) (hn : x.next = []) :
    s.arrHarvest t a = s.modArr (4 * t + a) fun z =>
      { z with sets := [], acc := [], clearing := true, halves := z.halves.map fun h => (h.1, { h.2 with nextSet := 0, lastSet := 0, gate := 0 }) } := by
  simp [State.arrHarvest, hx, hspn, hops, ht, hc, he, hn, Arr.wipe, Function.comp_def]

theorem State.arrEmpty_clears (hc : x.clearing = true) :
    s.arrEmpty t a = s.modArr (4 * t + a) fun z => { z with clearing := false, empty := true } := by
  simp [State.arrEmpty, hx, hc]

theorem State.arrTornDown_resets (ht : x.tearing = true) (hok : s.ok (arrBlk (4 * t + a)) = true) :
    s.arrTornDown t a =
      (s.modArr (4 * t + a) fun z => { shape := z.shape, epoch := z.epoch, seq := z.seq }).setRg (blkR (arrBlk (4 * t + a)) 0x0B8) 0 := by
  simp [State.arrTornDown, hx, ht, hok]

end Shape

/-- A half in free-spin once its row window is over gates. -/
theorem State.clockGate_gates {s : State} {t a h : Nat} (hg : (((s.windowOver (4 * t + a) h).arr (4 * t + a)).half h).gate = 2) :
    s.clockGate t a h = (s.windowOver (4 * t + a) h).modHalf (4 * t + a) h fun y => { y with gate := 0 } := by
  simp [State.clockGate, hg]

/-! ## The stop of a scope (R89, R94, R96) -/

section Stop
variable {s : State} {t a h eng det k upTo : Nat} {op : ArrOp}

/-- A detector that its engine has reports on the operation named and stops the half. -/
theorem State.scopeStop_stops (hop : (((s.arr (4 * t + a)).half h).run.filter (ofEngine eng))[k]? = some op) (hdet : canStop eng det = true) :
    s.scopeStop t a h eng det k upTo = (s.drainTo (4 * t + a) h upTo).arrStop (4 * t + a) det h op := by
  simp [State.scopeStop, hop, hdet]

variable {i : Nat}

theorem State.arrStop_tearing (ht : ((s.arrReport i det h op).arr i).tearing = true) : s.arrStop i det h op = s.arrReport i det h op := by
  simp [State.arrStop, ht]

theorem State.arrStop_stops (ht : ((s.arrReport i det h op).arr i).tearing = false) :
    s.arrStop i det h op = (s.arrReport i det h op).stopScope i h := by
  simp [State.arrStop, ht]

/-- A running DRAIN writes the granules up to `upTo` that it has not written, and remembers how many it has. -/
theorem State.drainTo_writes (hop : s.arrRunning i h (·.kind == 4) = some op) :
    let gs := ((drainGrains (s.arr i) h op.bytes).take upTo).drop op.wrote
    s.drainTo i h upTo = s.drainPut gs ∨
      s.drainTo i h upTo = (s.drainPut gs).modHalf i h fun y =>
        { y with run := y.run.map fun o => if o.seq = op.seq then { o with wrote := op.wrote + gs.length } else o } := by
  intro gs
  simp only [State.drainTo, hop]
  split
  · next hgs => exact .inl (by rw [show gs = [] from List.isEmpty_iff.1 hgs]; rfl)
  · exact .inr rfl

end Stop

/-- Settles O6: an array changes its shape, gates, clears and closes, and the stop of a scope reports and fails what it holds. -/
theorem arrayStateEvents : Obligations.ArrayStateEvents := by
  refine ⟨?_, ?_, ?_⟩
  · intro s t a half halive i x
    refine ⟨fun hn hr ht hops hup => answers_of (exec_shapeChange_eq t a s) halive (State.shapeChange_starts rfl hn hr ht hops hup),
      fun c rest hr hn hst => ?_,
      fun hg => answers_of (exec_arrayClockGate_eq t a half s) halive (State.clockGate_gates hg),
      fun hspn hops ht hc he hn => answers_of (exec_arrayHarvestClear_eq t a s) halive (State.arrHarvest_clears rfl hspn hops ht hc he hn),
      fun hc => answers_of (exec_arrayEmpty_eq t a s) halive (State.arrEmpty_clears rfl hc),
      fun ht hok => answers_of (exec_arrayTeardownDone_eq t a s) halive (State.arrTornDown_resets rfl ht hok)⟩
    refine ⟨_, answers_of (exec_shapeReconfigDone_eq t a s) halive (State.shapeDone_reshapes rfl hr hn hst), ?_⟩
    simp only [i, State.modArr_arr_self, Arr.wipe, Arr.half, true_and]
    exact ⟨rfl, fun h hh => by rw [Arr.reshaped_half _ hh]; exact ⟨rfl, rfl⟩, fun k hk => State.modArr_arr_ne _ _ hk⟩
  · intro s t a half eng det k upTo op halive i hop hdet r
    have answers {v : State} (h : (s.drainTo i half upTo).arrStop i det half op = v) : Answers (.arrayScopeStop t a half eng det k upTo) s v :=
      answers_of (exec_arrayScopeStop_eq t a half eng det k upTo s) halive ((State.scopeStop_stops hop hdet).trans h)
    exact ⟨fun ht => answers (State.arrStop_tearing ht), fun ht => answers (State.arrStop_stops ht)⟩
  · intro s i half upTo op hop gs r
    have keeps {β : Type} (P : State → β) (hm : ∀ (s : State) m v, P { s with mem := m, upsets := v } = P s) (hr : ∀ s o f, P (s.count o f) = P s)
        (hb : ∀ s b x, P (s.setBlk b x) = P s) : P (s.drainPut gs) = P s := State.drainPut_keeps P hm hr hb s gs
    have hctxs := keeps (·.ctxs) (fun _ _ _ => rfl) (fun _ _ _ => rfl) (fun _ _ _ => rfl)
    have hports := keeps (·.ports) (fun _ _ _ => rfl) (fun _ _ _ => rfl) (fun _ _ _ => rfl)
    rcases State.drainTo_writes (upTo := upTo) hop with h | h
    · simp only [r, h]
      exact ⟨rfl, by simp, by simp, hctxs, hports⟩
    · simp only [r, h]
      exact ⟨rfl, by simp [State.modHalf, Arr.setHalf], fun k hk => by simp [State.modHalf, State.modArr_arr_ne _ _ hk], hctxs, hports⟩

end Sys2Proof.Machine
end

section
/-!
SUPPORT. Memory, the patrol scrub and the HBM stacks (chapter 06): what the scrub of a granule and each event of a stack do, and from it the statements that memory
keeps its canonical form and about the scrub and the stacks.
-/
namespace Sys2Proof.Machine

/-! ## The canonical form (R125, R137) -/

@[simp] theorem State.upset_mem (s : State) (l : Upsets) : (s.upset l).mem = s.mem := State.upset_keeps (·.mem) (fun _ _ => rfl) s l

/-- Settles O13: each operation on memory keeps the form, and the memory of reset has it. -/
theorem memoryOperationsKeepForm : Obligations.MemoryOperationsKeepForm := by
  refine ⟨Memory.wf_reset, fun s hwf => ⟨fun o bs => Memory.wf_save s o bs hwf, fun o n => Memory.wf_load s o n hwf, fun l => ?_,
    fun p => Memory.wf_forget s p hwf, fun t => Memory.wf_forget s _ hwf, fun n => Memory.wf_forget _ _ hwf⟩⟩
  rw [State.upset_mem]
  exact hwf

/-! ## The patrol scrub (R138) -/

@[simp] theorem State.upset_rg (s : State) (l : Upsets) (o : Nat) : (s.upset l).rg o = s.rg o := State.upset_keeps (·.rg o) (fun _ _ => rfl) s l

@[simp] theorem State.upset_striped (s : State) (l : Upsets) : (s.upset l).striped = s.striped := State.upset_keeps (·.striped) (fun _ _ => rfl) s l

theorem exec_scrubRead_eq (b : Fin 16) (ups : Upsets) (s : State) : exec (.scrubRead b ups) s = act s fun s => (s.upset ups).scrub b := rfl

/-- The block of the memory that scrub b reads: tile store b, or stack b − 8. -/
def scrubBlk (b : Nat) : Nat := if b < 8 then tileBlk b else 16 + (b - 8)

/-- The register that enables scrub b (Tables 6-8 and 6-10). -/
def scrubCtrlReg (b : Nat) : Nat := blkR (scrubBlk b) (if b < 8 then 0x090 else 0x060)

/-- The register that holds the position and the passes of scrub b. -/
def scrubPosReg (b : Nat) : Nat := blkR (scrubBlk b) (if b < 8 then 0x098 else 0x068)

/-- The position of scrub b in its memory. -/
def State.scrubPos (s : State) (b : Nat) : Nat := (s.rg (scrubPosReg b)).fld 0 (if b < 8 then 31 else 36)

/-- The offset of the granule at the position of scrub b. -/
def State.scrubOffset (s : State) (b : Nat) : Nat :=
  if b < 8 then storeBase b + s.scrubPos b else stackOffset s.striped (b - 8) (s.scrubPos b)

/-- The scrub's register once it has moved on: by one granule, or to the start with one more pass. -/
def State.scrubNext (s : State) (b : Nat) : W64 :=
  let passes := (s.rg (scrubPosReg b)).fld 40 8
  if s.scrubPos b + 64 < (if b < 8 then 0x80000000 else stackSize) then put 40 passes ||| put 0 (s.scrubPos b + 64) else put 40 ((passes + 1) % 256)

/-- The words of the granule at an offset that cannot be read. -/
def State.granuleBad (s : State) (o : Nat) : List Nat := (wordsOf o 64).filter fun w => !s.wordOk w

/-- The words of the granule at an offset that a read puts right. -/
def State.granuleMended (s : State) (o : Nat) : List Nat := (wordsOf o 64).filter fun w => s.wordOk w && (s.upsets.find w).isSome

/-- The words of a granule are read, those put right reported and then those that cannot be read (R138). -/
def State.scrubGranule (s : State) (blk o : Nat) : State :=
  let (ju, s) := s.takeInject blk 2
  let (jc, s) := s.takeInject blk 0
  let bad := s.granuleBad o
  let mended := s.granuleMended o
  let s := if mended.isEmpty && jc then s.memCe [o] true else s.memCe mended
  if bad.isEmpty then (if ju then s.memUe [o] 2 true else s) else s.memUe bad 2

/-- An enabled scrub moves on and reads the granule that it left. -/
theorem State.scrub_enabled {s : State} {b : Nat} (hok : s.ok (scrubBlk b) = true) (hen : (s.rg (scrubCtrlReg b)).bit 0 = true) :
    s.scrub b = (s.setRg (scrubPosReg b) (s.scrubNext b)).scrubGranule (scrubBlk b) (s.scrubOffset b) := by
  have hrun : (!s.ok (scrubBlk b) || !(s.rg (scrubCtrlReg b)).bit 0) = false := by rw [hok, hen]; rfl
  have hscrub : s.scrub b = if !s.ok (scrubBlk b) || !(s.rg (scrubCtrlReg b)).bit 0 then s else
      (s.setRg (scrubPosReg b) (s.scrubNext b)).scrubGranule (scrubBlk b) (s.scrubOffset b) := by
    simp only [State.scrub, decide_eq_true_eq]
    rfl
  rw [hscrub, hrun]
  rfl

section Granule
variable {r : State} {o : Nat} (hu : r.uninjected = true) (blk : Nat)
include hu

theorem State.scrubGranule_readable (hbad : r.granuleBad o = []) : r.scrubGranule blk o = r.memCe (r.granuleMended o) := by
  simp [State.scrubGranule, r.takeInject_uninjected hu, hbad]

theorem State.scrubGranule_unreadable (hbad : r.granuleBad o ≠ []) :
    r.scrubGranule blk o = (r.memCe (r.granuleMended o)).memUe (r.granuleBad o) 2 := by
  simp [State.scrubGranule, r.takeInject_uninjected hu, hbad]

end Granule

/-! ## The events of a stack (R146, Table 6-11) -/

theorem exec_caParity_eq (n : Fin 8) (s : State) : exec (.caParity n) s = act s fun s => s.caParity n := rfl

theorem exec_hbmTrainingDone_eq (n : Fin 8) (s : State) : exec (.hbmTrainingDone n) s = act s fun s => s.hbmTrained n := rfl

theorem exec_hbmTempNormal_eq (n : Fin 8) (temp : Byte) (s : State) : exec (.hbmTempNormal n temp) s = act s fun s => s.hbmTemp n temp.toNat := rfl

theorem exec_tempHigh_eq (n : Fin 8) (temp : Byte) (s : State) : exec (.tempHigh n temp) s = act s fun s => s.hbmTemp n temp.toNat := rfl

section Stack
variable {s : State} {n : Nat}

theorem State.hbmTrained_trains (hon : s.domOn (44 + n) = true) : s.hbmTrained n = s.modHbm n fun x => { x with trained := true } := by
  simp [State.hbmTrained, hon]

variable (hup : s.up (16 + n) = true)
include hup

theorem State.caParity_untrains : s.caParity n = (s.modHbm n fun x => { x with trained := false }).flag (16 + n) 3 := by
  simp [State.caParity, hup]

/-- A stack above 95 °C that was above before reports nothing more. -/
theorem State.hbmTemp_stays_hot {temp : Nat} (ht : 95 < temp) (hhot : (s.hbms.get {} n).hot = true) :
    s.hbmTemp n temp = s.modHbm n fun x => { x with temp := temp, hot := true } := by
  simp [State.hbmTemp, hup, ht, hhot]

variable (hu : s.uninjected = true)
include hu

theorem State.hbmTemp_cools {temp : Nat} (ht : temp ≤ 95) : s.hbmTemp n temp = s.modHbm n fun x => { x with temp := temp, hot := false } := by
  simp [State.hbmTemp, hup, Nat.not_lt.2 ht, State.detect_quiet hu]

/-- A stack that passes 95 °C reports TEMP_HIGH. -/
theorem State.hbmTemp_passes {temp : Nat} (ht : 95 < temp) (hhot : (s.hbms.get {} n).hot = false) :
    s.hbmTemp n temp = (s.flag (16 + n) 4).modHbm n fun x => { x with temp := temp, hot := true } := by
  simp [State.hbmTemp, hup, ht, hhot, State.detect_real hu]

end Stack

/-- Settles O15: an enabled scrub reports the words of the granule at its old position, and each event of a stack acts as its case says. -/
theorem scrubAndStackEvents : Obligations.ScrubAndStackEvents := by
  refine ⟨?_, ?_⟩
  · intro s b ups halive hu tile blk posR size pos passes o r hok hen bad mended
    have hblk : blk = scrubBlk b := by simp only [blk, tile, decide_eq_true_eq, scrubBlk]
    have hpos : posR = scrubPosReg b := by simp only [posR, tile, decide_eq_true_eq, hblk, scrubPosReg]
    have ho : o = (s.upset ups).scrubOffset b := by
      simp only [o, pos, tile, decide_eq_true_eq, hpos, State.scrubOffset, State.scrubPos, State.upset_rg, State.upset_striped]
    have hr : r = (s.upset ups).setRg (scrubPosReg b) ((s.upset ups).scrubNext b) := by
      simp only [r, size, passes, pos, tile, decide_eq_true_eq, hpos, State.scrubNext, State.scrubPos, State.upset_rg]
    have hru : r.uninjected = true := by rw [hr]; exact (s.upset_uninjected ups).trans hu
    have hscrub : (s.upset ups).scrub b = r.scrubGranule blk o := by
      rw [hr, ho, hblk]
      refine State.scrub_enabled ?_ ?_
      · rw [State.upset_ok, ← hblk, hok]
      · rw [State.upset_rg, ← hen]
        simp only [tile, decide_eq_true_eq, hblk, scrubCtrlReg]
    have answers {t : State} (h : r.scrubGranule blk o = t) := answers_of (exec_scrubRead_eq b ups s) halive (hscrub.trans h)
    exact ⟨fun hbad => answers (State.scrubGranule_readable hru blk hbad), fun hbad => answers (State.scrubGranule_unreadable hru blk hbad)⟩
  · intro s n temp halive hu h
    have answersTemp {t : State} (ht : s.hbmTemp n temp.toNat = t) := answers_of (exec_tempHigh_eq n temp s) halive ht
    exact ⟨fun hup => answers_of (exec_caParity_eq n s) halive (State.caParity_untrains hup),
      fun hon => answers_of (exec_hbmTrainingDone_eq n s) halive (State.hbmTrained_trains hon),
      fun hup ht => answers_of (exec_hbmTempNormal_eq n temp s) halive (State.hbmTemp_cools hup hu ht),
      fun hup ht hhot => answersTemp (State.hbmTemp_stays_hot hup ht hhot), fun hup ht hhot => answersTemp (State.hbmTemp_passes hup hu ht hhot)⟩

end Sys2Proof.Machine
end

section
/-!
SUPPORT. Memory requests at their target and the CXL ports (chapters 06 and 08): how a packet is delivered, in which order a request is performed, and how a decoder, a link
and an access of a port change, and from it the statements about them.
-/
namespace Sys2Proof.Machine

/-! ## Local delivery (R176, R177, R214) -/

theorem exec_remoteRequestArrival_eq (k : Pkt) (ups : Upsets) (s : State) :
    exec (.remoteRequestArrival k ups) s = act s fun s => (s.upset ups).arrives k (k.kind == 0 || k.kind == 1) := rfl

theorem exec_completionArrival_eq (k : Pkt) (s : State) :
    exec (.completionArrival k) s = act s fun s => s.arrives k (k.kind == 2 || k.kind == 3) := rfl

@[simp] theorem State.upset_chip (s : State) (l : Upsets) : (s.upset l).chip = s.chip := State.upset_keeps (·.chip) (fun _ _ => rfl) s l

@[simp] theorem State.upset_coreOk (s : State) (l : Upsets) : (s.upset l).coreOk = s.coreOk := s.upset_ok l 3

section Arrival
variable {s : State} {k : Pkt} (hcore : s.coreOk = true) (hdst : k.dst = s.chip) (hpkt : pktOk k = true) (hstale : s.fwd.stale k.ctx k.gen = false)
include hcore hdst hpkt hstale

theorem State.arrives_request (hk : k.kind = 0 ∨ k.kind = 1) : s.arrives k (k.kind == 0 || k.kind == 1) = s.fwd.request k := by
  rcases hk with hk | hk <;> simp [State.arrives, State.deliver, hcore, hdst, hpkt, hstale, hk]

theorem State.arrives_completion (hk : k.kind = 2 ∨ k.kind = 3) : s.arrives k (k.kind == 2 || k.kind == 3) = s.fwd.completion k := by
  rcases hk with hk | hk <;> simp [State.arrives, State.deliver, hcore, hdst, hpkt, hstale, hk]

end Arrival

/-! ## A request is performed (R127, R180, R186) -/

section Perform
variable {s r : State} {k : Pkt} {b : Nat}

theorem State.request_unordered (h : k.seqValid = false) : s.request k = s.perform k := by
  simp [State.request, h]

theorem State.request_ordered (h : k.seqValid = true) (hunit : k.unit < 8) : s.request k = s.ordered k := by
  simp [State.request, h, hunit]

/-- A request that finds a bobbin, for a tile store or a stack. -/
theorem State.perform_memory (hb : s.bobTake 4 = (0, b, r)) {i l : Nat}
    (hp : r.place_ (addrOff k.address) = .store i l ∨ r.place_ (addrOff k.address) = .hbm i l) : s.perform k = r.targetMem k (addrOff k.address) := by
  rcases hp with hp | hp <;> simp [State.perform, hb, hp]

theorem State.targetMem_write {o st : Nat} (hk : k.kind = 1) (hput : s.put_ none (.ctx k.ctx k.priv) o k.data = (st, r)) :
    s.targetMem k o = r.respond k st [] := by
  simp [State.targetMem, hk, hput]

theorem State.targetMem_read {o st : Nat} {bs : List Byte} (hk : k.kind = 0) (hfetch : s.fetch none (.ctx k.ctx k.priv) o k.length = ((st, bs), r)) :
    s.targetMem k o = r.respond k st bs := by
  simp [State.targetMem, hk, hfetch]

end Perform

/-! ## Requests in order (R141, R187) -/

section Ordered
variable {s r : State} {k : Pkt} {d : Nat} (hd : (k.seq + 65536 - s.swc.exps.get 0 (expKey k)) % 65536 = d)
include hd

/-- The expected request is performed, and those held that follow it. -/
theorem State.ordered_expected (h : d = 0) :
    s.ordered k = ((s.modSwc fun x => { x with exps := x.exps.set (expKey k) ((k.seq + 1) % 65536) }).perform k).performHeld (expKey k) 32 := by
  simp [State.ordered, hd, h]

/-- A request ahead of its turn that is held already counts as a duplicate. -/
theorem State.ordered_held (h1 : 1 ≤ d) (h32 : d ≤ 32) (hthere : (s.swc.early.any fun e => expKey e.pkt == expKey k && e.pkt.seq == k.seq) = true) :
    s.ordered k = s.sat (blkR 3 0x0D8) 0 32 1 := by
  simp [State.ordered, hd, Nat.ne_of_gt h1, h32, hthere]

/-- Any other request ahead of its turn is held in the bobbin that it finds. -/
theorem State.ordered_early (h1 : 1 ≤ d) (h32 : d ≤ 32)
    (hthere : (s.swc.early.any fun e => expKey e.pkt == expKey k && e.pkt.seq == k.seq) = false) {b : Nat} (hb : s.bobTake 7 = (0, b, r)) :
    s.ordered k = r.modSwc fun x => { x with early := x.early ++ [⟨k, b⟩] } := by
  simp [State.ordered, hd, Nat.ne_of_gt h1, h32, hthere, hb]

theorem State.ordered_beyond (h33 : 33 ≤ d) (hmax : d ≤ 32767) : s.ordered k = s.sat (blkR 6 0x1F8) 0 32 1 := by
  have h0 : d ≠ 0 := by omega
  have h32 : ¬d ≤ 32 := by omega
  simp [State.ordered, hd, h0, h32, hmax]

/-- A write seen before is answered again. -/
theorem State.ordered_past_write (hmin : 32768 ≤ d) (hk : k.kind = 1) : s.ordered k = (s.sat (blkR 3 0x0D8) 0 32 1).respond k stOk [] := by
  have h0 : d ≠ 0 := by omega
  have h32 : ¬d ≤ 32 := by omega
  have hmax : ¬d ≤ 32767 := by omega
  simp [State.ordered, hd, h0, h32, hmax, hk]

end Ordered

/-- A memory request for this chip whose packet is sound and whose context is the current one acts as `State.request` does. -/
theorem answers_remoteRequest {s t : State} {k : Pkt} {ups : Upsets} (halive : s.alive = true) (hcore : s.coreOk = true) (hk : k.kind = 0 ∨ k.kind = 1)
    (hdst : k.dst = s.chip) (hpkt : pktOk k = true) (hstale : (s.upset ups).fwd.stale k.ctx k.gen = false) (h : (s.upset ups).fwd.request k = t) :
    Answers (.remoteRequestArrival k ups) s t :=
  answers_of (exec_remoteRequestArrival_eq k ups s) halive
    ((State.arrives_request ((s.upset_coreOk ups).trans hcore) (hdst.trans (s.upset_chip ups).symm) hpkt hstale hk).trans h)

/-- Settles O14: a request is delivered; one without a sequence number is performed, and one with it as its distance from the expected number says. -/
theorem remoteRequestsAreServed : Obligations.RemoteRequestsAreServed := by
  refine ⟨?_, ?_⟩
  · intro s r k ups b halive hcore hk hdst hpkt hseq hstale hb o i l hp
    have answers {t : State} (h : r.targetMem k o = t) : Answers (.remoteRequestArrival k ups) s t :=
      answers_remoteRequest halive hcore hk hdst hpkt hstale (((State.request_unordered hseq).trans (State.perform_memory hb hp)).trans h)
    exact ⟨fun hk st q hput => answers (State.targetMem_write hk hput), fun hk st bs q hfetch => answers (State.targetMem_read hk hfetch)⟩
  · intro s k ups halive hcore hk hdst hpkt hseq hunit hstale f d there
    have answers {t : State} (h : f.ordered k = t) : Answers (.remoteRequestArrival k ups) s t :=
      answers_remoteRequest halive hcore hk hdst hpkt hstale ((State.request_ordered hseq hunit).trans h)
    exact ⟨fun h => answers (State.ordered_expected rfl h), fun h1 h32 hthere => answers (State.ordered_held rfl h1 h32 hthere),
      fun h1 h32 hthere b r hb => answers (State.ordered_early rfl h1 h32 hthere hb), fun h33 hmax => answers (State.ordered_beyond rfl h33 hmax),
      fun hmin hk => answers (State.ordered_past_write rfl hmin hk)⟩

/-! ## What each command of a CXL port acts with -/

theorem exec_cxlHdmWrite_eq (c : Fin 2) (h : Fin 8) (v : W64) (s : State) : exec (.cxlHdmWrite c h v) s = act s fun s => s.hdmWrite c h v := rfl

theorem exec_cxlLinkUp_eq (c : Fin 2) (width : Fin 64) (rate : Fin 4) (s : State) :
    exec (.cxlLinkUp c width rate) s = act s fun s => s.cxlUp c width rate := rfl

theorem exec_cxlEnumerate_eq (c : Fin 2) (sizes : List (Fin 32769)) (unsupported : Bool) (s : State) :
    exec (.cxlEnumerate c sizes unsupported) s = act s fun s => s.cxlEnum c (sizes.map Fin.val) unsupported := rfl

theorem exec_cxlCompletion_eq (c : Fin 2) (i : Nat) (e : CxlEnd) (retried : Bool) (s : State) :
    exec (.cxlCompletion c i e retried) s = act s fun s => s.cxlDone c i e retried := rfl

theorem exec_cplTimeout_eq (c : Fin 2) (i : Nat) (s : State) : exec (.cplTimeout c i) s = act s fun s => s.cxlLate c i := rfl

theorem exec_cxlLinkDown_eq (c : Fin 2) (s : State) : exec (.cxlLinkDown c) s = act s fun s => s.cxlLoss c 3 := rfl

theorem exec_viral_eq (c : Fin 2) (s : State) : exec (.viral c) s = act s fun s => s.cxlLoss c 4 := rfl

/-! ## Decoders, links and enumeration (R142, R143) -/

section Port
variable {s : State} {c : Nat} (hon : s.domOn (18 + c) = true)
include hon

section Decoder
variable {h : Nat} {v : W64} {clash : Bool}
  (hclash : ((List.range 8).any fun j => let w := s.hdm c j
    j != h && w.bit 63 && decide (v.fld 0 16 < w.fld 0 16 + w.fld 32 16) && decide (w.fld 0 16 < v.fld 0 16 + v.fld 32 16)) = clash)
include hclash

/-- A decoder that is off, or lies in the half apart from the others, is written while the device is quiescent. -/
theorem State.hdmWrite_writes (hq : s.quiescent = true)
    (hv : v.bit 63 = false ∨ v.fld 32 16 ≠ 0 ∧ v.fld 0 16 + v.fld 32 16 ≤ 32768 ∧ clash = false) :
    s.hdmWrite c h v = s.setRg (blkR (14 + c) (0x100 + 8 * h)) (v &&& 0x8007FFFF0000FFFF) := by
  rcases hv with hv | ⟨h0, hhi, hc⟩
  · simp [State.hdmWrite, hon, hq, hv]
  · simp only [State.hdmWrite, hclash]
    simp [hon, hq, h0, hc, Nat.not_lt.2 hhi]

theorem State.hdmWrite_refused
    (hv : s.quiescent = false ∨ v.bit 63 = true ∧ (v.fld 32 16 = 0 ∨ 32768 < v.fld 0 16 + v.fld 32 16 ∨ clash = true)) :
    s.hdmWrite c h v = s.flag (14 + c) 5 := by
  rcases hv with hq | ⟨h63, h0 | hhi | hc⟩
  · simp [State.hdmWrite, hon, hq]
  · simp [State.hdmWrite, hon, h63, h0]
  · simp [State.hdmWrite, hon, h63, hhi]
  · simp only [State.hdmWrite, hclash]
    simp [hon, h63, hc]

end Decoder

/-- A link of a supported width and rate comes up, and is not used yet. -/
theorem State.cxlUp_comes_up {width rate : Nat} (hst : (s.cxl c).st ≠ 2) (hw : width = 4 ∨ width = 8 ∨ width = 16) (hr : rate = 1 ∨ rate = 2 ∨ rate = 3) :
    s.cxlUp c width rate = (s.modCxl c fun x => { x with st := 2, used := false, width := width, rate := rate }).pllLock (14 + c) := by
  have hw : [4, 8, 16].contains width = true := by simpa using hw
  have hr : [1, 2, 3].contains rate = true := by simpa using hr
  simp only [State.cxlUp, hon, hw, hr]
  simp [hst]

/-- Enumeration of at most eight targets writes every decoder and puts the link to use. -/
theorem State.cxlEnum_enumerates (hq : s.quiescent = true) (hst : (s.cxl c).st = 2) {sizes : List Nat} (hlen : sizes.length ≤ 8) :
    s.cxlEnum c sizes false =
      ((List.range 8).foldl (fun s h => s.setRg (blkR (14 + c) (0x100 + 8 * h)) ((hdmPlan 0 0 (sizes.take 8)).getD h 0)) s).modCxl c
        fun x => { x with used := true } := by
  have hpast : ((List.range sizes.length).filter fun n => decide (8 ≤ n)) = [] := by
    simp only [List.filter_eq_nil_iff, List.mem_range, decide_eq_true_eq]
    omega
  simp only [State.cxlEnum, hq, hst, hon, hpast]
  rfl

end Port

/-! ## The end of an access (R144, R221) -/

/-- A bobbin whose words are clean is read, and is free of what its words held. -/
theorem State.readBob_clean {s : State} {b : Nat} (hu : s.uninjected = true) (h : s.bobUps.get .clean b = .clean) :
    s.readBob b = (true, { s with bobUps := s.bobUps.drop fun j => j == b }) := by
  have hu' : ({ s with bobUps := s.bobUps.drop fun j => j == b } : State).uninjected = true := hu
  simp [State.readBob, h, State.takeInject_uninjected _ hu']

/-- An access that leaves its port's list changes no bobbin. -/
theorem State.cxlTake_readBob {s : State} {b : Nat} (hu : s.uninjected = true) (h : s.bobUps.get .clean b = .clean) (c i : Nat) :
    (s.cxlTake c i).readBob b = (true, { s.cxlTake c i with bobUps := s.bobUps.drop fun j => j == b }) :=
  State.readBob_clean hu h

section Access
variable {s : State} {c i : Nat} {q : CxlReq} (hreq : (s.cxl c).reqs[i]? = some q)
include hreq

/-- A late access is recorded and fails with REMOTE_FAIL. -/
theorem State.cxlLate_fails :
    s.cxlLate c i = (((s.cxlTake c i).cxlTimeout c q.off).progress (14 + c)).cxlEnd q stRemote [] := by
  simp [State.cxlLate, hreq]

variable {w : State} {st : Nat} {bs : List Byte} (hu : s.uninjected = true) (hbob : s.bobUps.get .clean q.bob = .clean)
include hu hbob

theorem State.cxlDone_write (hdata : q.data = some bs)
    (hsave : ({ s.cxlTake c i with bobUps := s.bobUps.drop fun j => j == q.bob } : State).save q.off bs = (st, w)) (e : CxlEnd) :
    s.cxlDone c i e false = w.cxlEnd q st [] := by
  simp [State.cxlDone, hreq, State.cxlTake_readBob hu hbob, hdata, hsave]

variable (hdata : q.data = none)
include hdata

theorem State.cxlDone_read (hload : ({ s.cxlTake c i with bobUps := s.bobUps.drop fun j => j == q.bob } : State).load q.off q.len = ((st, bs), w)) :
    s.cxlDone c i .done false = w.cxlEnd q st bs := by
  have hdone : (CxlEnd.done == CxlEnd.poisoned) = false := rfl
  simp [State.cxlDone, hreq, State.cxlTake_readBob hu hbob, hdata, hload, hdone]

/-- A poisoned read is recorded and fails with READ_UE. -/
theorem State.cxlDone_poisoned :
    s.cxlDone c i .poisoned false =
      ((({ s.cxlTake c i with bobUps := s.bobUps.drop fun j => j == q.bob } : State).volume q.off q.len false).cxlPoison c q.off).cxlEnd q stReadUe [] := by
  simp [State.cxlDone, hreq, State.cxlTake_readBob hu hbob, hdata]

end Access

/-- A link that is up goes down with every access outstanding. -/
theorem State.cxlLoss_fails {s : State} {c : Nat} (hst : (s.cxl c).st = 2) (det : Nat) :
    s.cxlLoss c det = ((s.modCxl c fun x => { x with st := 3, used := false, width := 0, rate := 0 }).flag (14 + c) det).cxlFailAll c := by
  simp [State.cxlLoss, hst]

/-- Settles O16: a decoder, a link and an enumeration act as their cases say, and an access ends by its completion, its timeout or the loss of its link. -/
theorem cxlPorts : Obligations.CxlPorts := by
  refine ⟨?_, ?_⟩
  · intro s c h v halive lo hi clash
    have answers {t : State} (ht : s.hdmWrite c h v = t) := answers_of (exec_cxlHdmWrite_eq c h v s) halive ht
    refine ⟨fun hon hq hv => answers (State.hdmWrite_writes hon rfl hq hv), fun hon hv => answers (State.hdmWrite_refused hon rfl hv),
      fun width rate hon hst hw hr => ?_, fun sizes hlen hq hst hon => ?_⟩
    · exact answers_of (exec_cxlLinkUp_eq c width rate s) halive (State.cxlUp_comes_up hon hst hw (by omega))
    · exact answers_of (exec_cxlEnumerate_eq c sizes false s) halive (State.cxlEnum_enumerates hon hq hst (by simpa using hlen))
  · intro s c i q halive hu hreq b taken r
    have answers {e : CxlEnd} {t : State} (ht : s.cxlDone c i e false = t) := answers_of (exec_cxlCompletion_eq c i e false s) halive ht
    refine ⟨fun hbob => ⟨fun bs st w hdata hsave => answers (State.cxlDone_write hreq hu hbob hdata hsave .done),
        fun bs st w hdata hload => answers (State.cxlDone_read hreq hu hbob hdata hload),
        fun hdata => answers (State.cxlDone_poisoned hreq hu hbob hdata)⟩,
      answers_of (exec_cplTimeout_eq c i s) halive (State.cxlLate_fails hreq), fun hst => ?_⟩
    simp only [List.forall_mem_cons]
    exact ⟨answers_of (exec_cxlLinkDown_eq c s) halive (State.cxlLoss_fails hst 3), answers_of (exec_viral_eq c s) halive (State.cxlLoss_fails hst 4),
      List.forall_mem_nil _⟩

end Sys2Proof.Machine
end

section
/-!
SUPPORT. Loose requests at their source (chapters 06 and 08): how a request is injected, sent again and ended, and how the rates rise at an interval's end, and from it
the statement about them.
-/
namespace Sys2Proof.Machine

/-! ## What each command of a loose request acts with -/

theorem exec_looseRequestInject_eq (u : Fin 10) (r : Option LReq) (s : State) :
    exec (.looseRequestInject u r) s = act s fun s => s.injectReq u r := rfl

theorem exec_rtoExpiry_eq (u : Fin 10) (tag : Nat) (s : State) : exec (.rtoExpiry u tag) s = act s fun s => s.rtoExpiry u tag := rfl

theorem exec_rateInterval_eq (s : State) : exec .rateInterval s = act s fun s => s.rateInterval := rfl

/-! ## Injection (R126, R186) -/

section Inject
variable {s : State} {unit : Nat}

/-- Nothing is injected without a plan. -/
theorem State.injectReq_unplanned (hplan : s.hst.plan = none) (r : Option LReq) : s.injectReq unit r = s := by
  simp [State.injectReq, hplan]

/-- A request of this chip is no loose request. -/
theorem State.injectReq_local {r : LReq} (h : addrChip r.address = s.chip) : s.injectReq unit (some r) = s := by
  simp [State.injectReq, h]

variable (hplan : s.hst.plan.isSome = true) (hcore : s.coreOk = true)
include hplan hcore

theorem State.injectReq_remote {r : LReq} (h : addrChip r.address ≠ s.chip) :
    s.injectReq unit (some r) = (s.enqueueReq unit r .unit).injectNext unit := by
  simp [State.injectReq, Option.isNone_eq_false_iff.2 hplan, hcore, h]

theorem State.injectReq_waiting : s.injectReq unit none = s.injectNext unit := by
  simp [State.injectReq, Option.isNone_eq_false_iff.2 hplan, hcore]

end Inject

/-! ## Rates (R189) -/

/-- The rate of a class in the interval that begins: one that saw no marked echo rises by ai, and none passes r_max. -/
def State.rateAfter (s : State) (c : Nat) : Nat :=
  min ((s.rg (blkR 3 0x058)).fld 16 16)
    (if s.swc.cut.contains c then s.rate c else min (s.swc.rcLim.fld 16 16) (s.rate c + s.swc.rcCfg.fld 8 16))

theorem State.rateInterval_rate (s : State) {c : Nat} (hc : c < 256) : s.rateInterval.rate c = s.rateAfter c :=
  Table.get_listed s.rateAfter ((s.rg (blkR 3 0x058)).fld 16 16) c (List.range 256) (List.mem_range.2 hc)

/-! ## The end of a request (R186, R188) -/

section Expiry
variable {s : State} {unit tag : Nat} {r : Req} (hr : (s.swc.reqs.find? fun r => r.unit == unit && r.pkt.tag == tag) = some r)
include hr

/-- A late request is sent again, marked retransmitted, as long as tries are left. -/
theorem State.rtoExpiry_resends (h : r.tries < (s.rg (blkR 3 0x068)).fld 32 4) :
    s.rtoExpiry unit tag =
      ((s.modSwc fun x => { x with reqs := x.reqs.map fun q => if q = r then { r with tries := r.tries + 1 } else q }).sat
        (blkR 3 0x0C8) 0 32 1).send { r.pkt with retx := true } := by
  simp [State.rtoExpiry, hr, h]

theorem State.rtoExpiry_fails (h : (s.rg (blkR 3 0x068)).fld 32 4 ≤ r.tries) :
    s.rtoExpiry unit tag = ((s.modSwc fun x => { x with reqs := x.reqs.filter (· != r) }).sat (blkR 3 0x0D0) 0 32 1).reqEnd r.use stRemote [] := by
  simp [State.rtoExpiry, hr, Nat.not_lt.2 h]

end Expiry

/-- A completion without a record counts. -/
theorem State.completion_unknown {s : State} {k : Pkt} (h : (s.swc.reqs.find? fun r => r.unit == k.unit && r.pkt.tag == k.tag) = none) :
    s.completion k = s.sat (blkR 3 0x0D8) 0 32 1 := by
  simp [State.completion, h]

section Completion
variable {s : State} {k : Pkt} {r : Req} (hr : (s.swc.reqs.find? fun r => r.unit == k.unit && r.pkt.tag == k.tag) = some r)
include hr

/-- A record whose target had no bobbin stays to be sent again. -/
theorem State.completion_stays (h : k.status = stQuota ∨ k.status = stPool) : s.completion k = if k.echo then s.echo r.pkt.dclass else s := by
  simp only [State.completion, hr, if_pos h]

/-- Any other completion ends its record, after the cut that its echo mark asks for, and answers what waited. -/
theorem State.completion_ends {t : State} (hq : k.status ≠ stQuota) (hp : k.status ≠ stPool) (ht : (if k.echo then s.echo r.pkt.dclass else s) = t) :
    s.completion k = ((t.modSwc fun x => { x with reqs := x.reqs.filter (· != r) }).reqEnd r.use k.status k.data).injectNext k.unit := by
  simp only [State.completion, hr, ht, if_neg (not_or.2 ⟨hq, hp⟩)]

end Completion

/-- Settles O29: a request is injected, a late one is sent again or fails, and a completion ends the record that it finds. -/
theorem requestsAreSentAndEnd : Obligations.RequestsAreSentAndEnd := by
  refine ⟨?_, ?_⟩
  · intro s u r halive cfg lim
    have answers {x : Option LReq} {t : State} (h : s.injectReq u x = t) := answers_of (exec_looseRequestInject_eq u x s) halive h
    exact ⟨fun hplan hcore => ⟨fun h => answers (State.injectReq_remote hplan hcore h), fun h => answers (State.injectReq_local h),
        answers (State.injectReq_waiting hplan hcore)⟩,
      fun hplan => answers (State.injectReq_unplanned hplan _),
      _, answers_of (exec_rateInterval_eq s) halive rfl, rfl, rfl, rfl, fun c hc => s.rateInterval_rate hc⟩
  · intro s u tag r halive hr rest
    have answersLate {t : State} (h : s.rtoExpiry u tag = t) := answers_of (exec_rtoExpiry_eq u tag s) halive h
    refine ⟨fun h => answersLate (State.rtoExpiry_resends hr h), fun h => answersLate (State.rtoExpiry_fails hr h), fun k hk hdst hpkt hstale hcore => ?_⟩
    have answers {t : State} (h : s.fwd.completion k = t) : Answers (.completionArrival k) s t :=
      answers_of (exec_completionArrival_eq k s) halive ((State.arrives_completion hcore hdst hpkt hstale hk).trans h)
    have hfound (hunit : k.unit = u.val) (htag : k.tag = tag) :
        (s.fwd.swc.reqs.find? fun r => r.unit == k.unit && r.pkt.tag == k.tag) = some r := by rw [hunit, htag]; exact hr
    refine ⟨fun h => answers (State.completion_unknown h), fun hunit htag h => answers (State.completion_stays (hfound hunit htag) h),
      fun hunit htag hq hp hecho => answers (State.completion_ends (hfound hunit htag) hq hp ?_),
      fun hunit htag hq hp hecho => answers (State.completion_ends (hfound hunit htag) hq hp ?_)⟩
    · rw [hecho]; rfl
    · rw [hecho]; rfl

end Sys2Proof.Machine
end

section
/-!
SUPPORT. The states of a fabric port (chapter 07): what a change of state brings with it, and what the end of a training and each timeout do, and from it the statement
about them.
-/
namespace Sys2Proof.Machine

/-! ## What each command of a training acts with -/

theorem exec_portTrainingDone_eq (p : Fin 48) (f0 f1 f2 f3 : Byte) (s : State) :
    exec (.portTrainingDone p f0 f1 f2 f3) s = act s fun s => s.trainingDone p [f0, f1, f2, f3] := rfl

theorem exec_trainTimeout_eq (p : Fin 48) (signal : Bool) (s : State) : exec (.trainTimeout p signal) s = act s fun s => s.trainTimeout p signal := rfl

theorem exec_helloTimeout_eq (p : Fin 48) (s : State) : exec (.helloTimeout p) s = act s fun s => s.helloTimeout p := rfl

/-! ## A change of state (R163, R167, R168, R182, R192) -/

section Go
variable (s : State) (p st cause : Nat)

/-- A port with a new state and cause. -/
def State.portSet : State := s.setPort p { s.port p with st := st, cause := cause }

/-- The note and the vector of a state that is new are due. -/
def State.portNoted : State :=
  ((s.portSet p st cause).note (portB p) 2 ((s.portSet p st cause).portState p)).wantVec (portB p)

/-- Quilan hears of a change into or out of UP. -/
def State.portTold : State := (s.portNoted p st cause).tell (.portState s.chip p ((s.portSet p st cause).portState p))

/-- A port that carries traffic no longer gives back what waits in it, and drops what its circuits hold. -/
def State.portLeaves : State :=
  ((s.modPort p fun x => { x with eiSent := false, eiStop := false, exiting := false, reeval := false }).requeue p).vcDrop p

@[simp] theorem State.portNoted_st : ((s.portNoted p st cause).port p).st = st := by
  simp [State.portNoted, State.portSet, State.wantVec_port, State.note_port, State.setPort_port]

@[simp] theorem State.portTold_st : ((s.portTold p st cause).port p).st = st := by
  rw [State.portTold, State.tell_port, State.portNoted_st]

variable {s p st} {cause}

theorem State.portGo_same (h : (s.port p).st = st) : s.portGo p st cause = s.portSet p st cause := by
  simp [State.portGo, State.portSet, h]

/-- A state that is new. -/
theorem State.portGo_new (h : (s.port p).st ≠ st) :
    s.portGo p st cause =
      if ((s.port p).st = 3 ∨ (s.port p).st = 4) ∧ st ≠ 3 ∧ st ≠ 4 then
        (if (s.port p).st = 3 ∨ st = 3 then s.portTold p st cause else s.portNoted p st cause).portLeaves p
      else if (s.port p).st = 3 ∨ st = 3 then s.portTold p st cause else s.portNoted p st cause := by
  have htold : (s.portNoted p st cause).tell (.portState (s.portNoted p st cause).chip p ((s.portNoted p st cause).portState p)) =
      s.portTold p st cause := by
    rw [State.portTold, show (s.portNoted p st cause).chip = s.chip from State.wantVec_chip _ _,
      show (s.portNoted p st cause).portState p = (s.portSet p st cause).portState p from State.wantVec_portState _ _ _]
  have hup : (((s.port p).st == 3) != (st == 3)) = decide ((s.port p).st = 3 ∨ st = 3) := by
    by_cases h3 : (s.port p).st = 3
    · have hst : st ≠ 3 := fun e => h (h3.trans e.symm)
      simp [h3, hst]
    · by_cases hst : st = 3 <;> simp [h3, hst, bne, beq_false_of_ne]
  have hgo : s.portGo p st cause =
      let t := if ((s.port p).st == 3) != (st == 3) then
        (s.portNoted p st cause).tell (.portState (s.portNoted p st cause).chip p ((s.portNoted p st cause).portState p))
        else s.portNoted p st cause
      if (s.port p).carries && !(t.port p).carries then t.portLeaves p else t := if_neg h
  rw [hgo, htold, hup]
  by_cases h3 : (s.port p).st = 3 ∨ st = 3
  · simp [h3, Port.carries]
  · simp [h3, Port.carries]

theorem State.portGo_idle (h : (s.port p).st = 3) (hst : st = 4) : s.portGo p st cause = s.portTold p st cause := by
  rw [State.portGo_new (by omega)]
  simp [h, hst]

theorem State.portGo_up (h : (s.port p).st ≠ 3) (hst : st = 3) : s.portGo p st cause = s.portTold p st cause := by
  rw [State.portGo_new (by omega)]
  simp [hst]

theorem State.portGo_down (h : (s.port p).st = 3) (h3 : st ≠ 3) (h4 : st ≠ 4) : s.portGo p st cause = (s.portTold p st cause).portLeaves p := by
  rw [State.portGo_new (by omega)]
  simp [h, h3, h4]

theorem State.portGo_idle_down (h : (s.port p).st = 4) (h3 : st ≠ 3) (h4 : st ≠ 4) :
    s.portGo p st cause = (s.portNoted p st cause).portLeaves p := by
  rw [State.portGo_new (by omega)]
  simp [h, h3, h4]

/-- A change between states that carry no traffic, or into UP_IDLE from one of them. -/
theorem State.portGo_apart (hne : (s.port p).st ≠ st) (h3 : (s.port p).st ≠ 3) (h4 : (s.port p).st ≠ 4) (hst : st ≠ 3) :
    s.portGo p st cause = s.portNoted p st cause := by
  rw [State.portGo_new hne]
  simp [h3, h4, hst]

end Go

/-! ## The end of a training, and the timeouts (R160, R163, R167, Table 7-7) -/

section Training
variable {s : State} {p : Nat} {fs : List Byte} {signal : Bool}

/-- Every FOM reaches fom_min, which taking the FOMs does not change. -/
theorem State.foms_reach (hfom : ∀ f ∈ fs, s.fomMin p ≤ f.toNat) : (fs.all fun f => decide ((s.setFoms p fs).fomMin p ≤ f.toNat)) = true :=
  List.all_eq_true.2 fun f hf => decide_eq_true (hfom f hf)

theorem State.foms_miss (hfom : ∃ f ∈ fs, f.toNat < s.fomMin p) : (fs.all fun f => decide ((s.setFoms p fs).fomMin p ≤ f.toNat)) = false := by
  obtain ⟨f, hf, hlt⟩ := hfom
  exact List.all_eq_false.2 ⟨f, hf, fun h => Nat.not_le.2 hlt (of_decide_eq_true h)⟩

/-- The lanes of a port that trains have locked to the codeword boundaries. -/
def State.lanesLock (s : State) (p : Nat) : State := s.modPort p fun x => x.mapLanes fun _ y => { y with locked := true }

theorem State.trainingDone_hello (hst : (s.port p).st = 1) (hfom : ∀ f ∈ fs, s.fomMin p ≤ f.toNat) :
    s.trainingDone p fs = ((s.setFoms p fs).lanesLock p).portHello p := by
  simp only [State.trainingDone, hst, State.foms_reach hfom]
  rfl

theorem State.trainingDone_retrain (hst : (s.port p).st = 9) (htr : (s.port p).trained = false) (hfom : ∀ f ∈ fs, s.fomMin p ≤ f.toNat) :
    s.trainingDone p fs = ((s.setFoms p fs).lanesLock p).modPort p fun x => { x with trained := true }.clearEval := by
  simp only [State.trainingDone, hst, htr, State.foms_reach hfom]
  rfl

/-- A lane below fom_min keeps the port training. -/
theorem State.trainingDone_low (hst : (s.port p).st = 1 ∨ (s.port p).st = 9 ∧ (s.port p).trained = false) (hfom : ∃ f ∈ fs, f.toNat < s.fomMin p) :
    s.trainingDone p fs = s.setFoms p fs := by
  rcases hst with hst | ⟨hst, htr⟩
  · simp [State.trainingDone, hst, State.foms_miss hfom]
  · simp [State.trainingDone, hst, htr, State.foms_miss hfom]

/-- An attempt that fails where it is the last that retrain_max allows. -/
theorem State.portFail_ends (hu : s.uninjected = true) (hmax : s.retrainMax p ≤ (s.port p).attempts) :
    s.portFail p = (s.portAway p 7 12).portFlag p 2 := by
  simp [State.portFail, s.takeInject_uninjected hu, hmax]

theorem State.portFail_retries (hu : s.uninjected = true) (hmax : (s.port p).attempts < s.retrainMax p) :
    s.portFail p = (s.modPort p fun x => { x with attempts := x.attempts + 1 }).portTrain p true := by
  simp [State.portFail, s.takeInject_uninjected hu, Nat.not_le.2 hmax]

theorem State.trainTimeout_absent (hst : (s.port p).st = 1) (hplan : s.hst.plan.isSome = true) (hexp : (s.discExpect p).bit 63 = true) :
    s.trainTimeout p signal = s.portAway p 7 (if signal then 10 else 9) := by
  simp [State.trainTimeout, hst, hexp, Option.isNone_eq_false_iff.2 hplan]

theorem State.trainTimeout_unused (hst : (s.port p).st = 1) (hplan : s.hst.plan.isSome = true) (hexp : (s.discExpect p).bit 63 = false) :
    s.trainTimeout p signal = s.portAway p 8 0 := by
  simp [State.trainTimeout, hst, hexp, Option.isNone_eq_false_iff.2 hplan]

/-- Without a plan the attempt restarts at the table's trims. -/
theorem State.trainTimeout_unplanned (hst : (s.port p).st = 1) (hplan : s.hst.plan = none) :
    s.trainTimeout p signal = (s.modPort p fun x => x.mapLanes fun _ y => { y with trims := [] }).portTrain p false := by
  simp [State.trainTimeout, hst, hplan]

theorem State.trainTimeout_retrain (hst : (s.port p).st = 9) (htr : (s.port p).trained = false) : s.trainTimeout p signal = s.portFail p := by
  simp [State.trainTimeout, hst, htr]

theorem State.helloTimeout_absent (hst : (s.port p).st = 2) (hh : (s.port p).hello = none) (hplan : s.hst.plan.isSome = true) :
    s.helloTimeout p = s.portAway p 7 11 := by
  simp [State.helloTimeout, hst, hh, hplan]

theorem State.helloTimeout_retrain (hst : (s.port p).st = 9) (htr : (s.port p).trained = true) (hh : (s.port p).hello = none) :
    s.helloTimeout p = s.portFail p := by
  simp [State.helloTimeout, hst, htr, hh]

end Training

/-- Settles O23: a change of state takes the case of its old and new state, and a training ends and a timeout passes as each case above says. -/
theorem portsChangeState : Obligations.PortsChangeState := by
  refine ⟨?_, ?_⟩
  · intro s p st cause x r v told gone
    exact ⟨State.portGo_same, State.portGo_idle, State.portGo_up, State.portGo_down, State.portGo_idle_down, State.portGo_apart⟩
  · intro s p f0 f1 f2 f3 signal halive hu x fs r lock fails
    have done {t : State} (h : s.trainingDone p fs = t) := answers_of (exec_portTrainingDone_eq p f0 f1 f2 f3 s) halive h
    have late {t : State} (h : s.trainTimeout p signal = t) := answers_of (exec_trainTimeout_eq p signal s) halive h
    have silent {t : State} (h : s.helloTimeout p = t) := answers_of (exec_helloTimeout_eq p s) halive h
    refine ⟨fun hst hfom => done (State.trainingDone_hello hst hfom), fun hst htr hfom => done (State.trainingDone_retrain hst htr hfom),
      fun hst hfom => done (State.trainingDone_low hst hfom), fun hst hplan hexp => late (State.trainTimeout_absent hst hplan hexp),
      fun hst hplan hexp => late (State.trainTimeout_unused hst hplan hexp), fun hst hplan => late (State.trainTimeout_unplanned hst hplan),
      fun hst htr => ⟨fun hmax => late ?_, fun hmax => late ?_⟩, fun hst hh hplan => silent (State.helloTimeout_absent hst hh hplan),
      fun hst htr hh => ⟨fun hmax => silent ?_, fun hmax => silent ?_⟩⟩
    · rw [State.trainTimeout_retrain hst htr, State.portFail_ends hu hmax]
    · rw [State.trainTimeout_retrain hst htr, State.portFail_retries hu hmax]
    · rw [State.helloTimeout_retrain hst htr hh, State.portFail_ends hu hmax]
    · rw [State.helloTimeout_retrain hst htr hh, State.portFail_retries hu hmax]

end Sys2Proof.Machine
end

section
/-!
SUPPORT. The lanes of a fabric port, electrical idle and the control of a port (chapter 07): what the loss of a signal, a low FOM, a step of adaptation, the events of
electrical idle, the requests of PORT_CTRL and the loss of a group PLL do, and from it the statements about them.
-/
namespace Sys2Proof.Machine

/-! ## What each command of a lane acts with -/

theorem exec_laneSignalLoss_eq (p : Fin 48) (l : Fin 4) (s : State) : exec (.laneSignalLoss p l) s = act s fun s => s.signalLoss p l := rfl

theorem exec_fomLow_eq (p : Fin 48) (l : Fin 4) (fom : Byte) (s : State) : exec (.fomLow p l fom) s = act s fun s => s.fomLow p l fom.toNat := rfl

theorem exec_laneAdapt_eq (p : Fin 48) (l : Fin 4) (k : Fin 10) (up : Bool) (fom : Byte) (s : State) :
    exec (.laneAdapt p l k up fom) s = act s fun s => s.laneAdapt p l k up fom.toNat := rfl

/-! ## Events of a lane (R159, R160, R163) -/

section LaneEvents
variable {s : State} {p l : Nat}

/-- A lane shows a FOM. -/
def State.laneFom (s : State) (p l fom : Nat) : State := s.modPort p fun x => { x with lanes := x.lanes.set l { x.lane l with fom := fom } }

theorem State.signalLoss_up (hst : (s.port p).st = 3) : s.signalLoss p l = (s.laneFom p l 0).portLoss p true false := if_pos hst

theorem State.signalLoss_other (hst : (s.port p).st ≠ 3) : s.signalLoss p l = s := if_neg hst

theorem State.fomLow_other {fom : Nat} (hst : (s.port p).st ≠ 3) : s.fomLow p l fom = s := if_neg hst

/-- A port in UP takes the FOM, and reports one below fom_warn. -/
theorem State.fomLow_up {fom : Nat} (hst : (s.port p).st = 3) (hu : s.uninjected = true) :
    s.fomLow p l fom = if fom < s.fomWarn p then (s.laneFom p l fom).portFlag p 6 else s.laneFom p l fom := by
  have heq : s.fomLow p l fom =
      let x := (s.laneFom p l fom).takeInject (portB p) 6
      if decide (fom < x.2.fomWarn p) || x.1 then x.2.portFlag p 6 (x.1 && !decide (fom < x.2.fomWarn p)) else x.2 := if_pos hst
  have hwarn : (s.laneFom p l fom).fomWarn p = s.fomWarn p := rfl
  rw [heq, State.takeInject_uninjected (s.laneFom p l fom) hu]
  simp [hwarn]

section Adapt
variable {k fom : Nat} {up : Bool}

/-- A step of adaptation asks the neighbour for a transmit tap, or moves the receiver's own trim. -/
theorem State.laneAdapt_steps (hst : (s.port p).st = 1 ∨ (s.port p).st = 3 ∨ (s.port p).st = 9 ∧ (s.port p).trained = false) :
    s.laneAdapt p l k up fom =
      (if k < 6 then (s.laneFom p l fom).queueCtl p (.trim l k up) else (s.laneFom p l fom).moveTrim p l k up).trimLimit p l := by
  rcases hst with hst | hst | ⟨hst, htr⟩
  · simp [State.laneAdapt, State.laneFom, hst]
  · simp [State.laneAdapt, State.laneFom, hst]
  · simp [State.laneAdapt, State.laneFom, hst, htr]

theorem State.laneAdapt_other (h1 : (s.port p).st ≠ 1) (h3 : (s.port p).st ≠ 3) (h9 : (s.port p).st ≠ 9) : s.laneAdapt p l k up fom = s := by
  simp [State.laneAdapt, h1, h3, h9]

end Adapt
end LaneEvents

/-! ## The range of a trim (R159) -/

/-- A lane with one trim at another value. -/
def Lane.retrim (y : Lane) (k : Nat) (v : Int) : Lane := { y with trims := (List.range 10).map fun j => if j = k then v else y.trim j }

theorem Lane.retrim_trim (y : Lane) (k : Nat) (v : Int) {j : Nat} (hj : j < 10) : (y.retrim k v).trim j = if j = k then v else y.trim j := by
  simp [Lane.retrim, Lane.trim, hj]

/-- A trim moves by its step, unless the step would leave the range. -/
theorem State.moveTrim_lane (s : State) (p l k : Nat) (up : Bool) :
    let y := (s.port p).lane l
    let v := y.trim k + (if up then 1 else -1)
    ((s.moveTrim p l k up).port p).lane l = if v < -8 ∨ 8 < v then y else y.retrim k v := by
  intro y v
  have hport : (s.moveTrim p l k up).port p =
      if v < -8 || 8 < v then s.port p else { s.port p with lanes := (s.port p).lanes.set l (y.retrim k v) } := by
    rw [State.moveTrim, State.modPort_port, if_pos rfl]
    rfl
  rw [hport]
  by_cases hv : v < -8 ∨ 8 < v
  · simp [hv, y]
  · simp [hv, Port.lane]

/-- Settles O24: an event of a lane acts as the state of its port says, and the trim that moves stays within its range. -/
theorem laneEventsAndTrims : Obligations.LaneEventsAndTrims := by
  refine ⟨?_, ?_⟩
  · intro s p l k up fom halive hu x seen lost
    have loss {t : State} (h : s.signalLoss p l = t) := answers_of (exec_laneSignalLoss_eq p l s) halive h
    have low {t : State} (h : s.fomLow p l fom.toNat = t) := answers_of (exec_fomLow_eq p l fom s) halive h
    have adapt {t : State} (h : s.laneAdapt p l k up fom.toNat = t) := answers_of (exec_laneAdapt_eq p l k up fom s) halive h
    refine ⟨fun hst => loss (State.signalLoss_up hst), fun hst h => low ((State.fomLow_up hst hu).trans (if_pos h)),
      fun hst h => low ((State.fomLow_up hst hu).trans (if_neg (Nat.not_lt.2 h))), fun hst => ⟨low (State.fomLow_other hst), loss (State.signalLoss_other hst)⟩,
      fun hst => ⟨fun hk => adapt ?_, fun hk => adapt ?_⟩, fun h1 h3 h9 => adapt (State.laneAdapt_other h1 h3 h9)⟩
    · rw [State.laneAdapt_steps hst, if_pos hk]; rfl
    · rw [State.laneAdapt_steps hst, if_neg (Nat.not_lt.2 hk)]; rfl
  · intro s p l k up hl hk hrange y z
    by_cases hv : y.trim k + (if up then 1 else -1) < -8 ∨ 8 < y.trim k + (if up then 1 else -1)
    · have hz : z = y := (s.moveTrim_lane p l k up).trans (if_pos hv)
      rw [hz]
      exact ⟨hrange, fun _ _ _ => rfl, .inl rfl⟩
    · have hz : z = y.retrim k (y.trim k + (if up then 1 else -1)) := (s.moveTrim_lane p l k up).trans (if_neg hv)
      have htrim {j : Nat} (hj : j < 10) : z.trim j = if j = k then y.trim k + (if up then 1 else -1) else y.trim j := by
        rw [hz, Lane.retrim_trim _ _ _ hj]
      refine ⟨fun j hj => ?_, fun j hj hne => by rw [htrim hj, if_neg hne], .inr (by rw [htrim hk, if_pos rfl])⟩
      rw [htrim hj]
      split
      · omega
      · exact hrange j hj

/-! ## What each command of electrical idle and of PORT_CTRL acts with -/

theorem exec_eiIdleTimeout_eq (p : Fin 48) (s : State) : exec (.eiIdleTimeout p) s = act s fun s => s.eiRequest p := rfl

theorem exec_trainingBurstDetect_eq (p : Fin 48) (s : State) : exec (.trainingBurstDetect p) s = act s fun s => s.eiExit p := rfl

theorem exec_eiExitDone_eq (p : Fin 48) (f0 f1 f2 f3 : Byte) (s : State) :
    exec (.eiExitDone p f0 f1 f2 f3) s = act s fun s => s.eiDone p [f0, f1, f2, f3] := rfl

theorem exec_absentBurst_eq (p : Fin 48) (s : State) : exec (.absentBurst p) s = act s fun s => s.absentBurst p := rfl

theorem exec_portRetrain_eq (p : Fin 48) (s : State) : exec (.portRetrain p) s = act s fun s => s.portRetrain p := rfl

theorem exec_portHoldDown_eq (p : Fin 48) (s : State) : exec (.portHoldDown p) s = act s fun s => s.portHold p := rfl

theorem exec_portRelease_eq (p : Fin 48) (s : State) : exec (.portRelease p) s = act s fun s => s.portRelease p := rfl

theorem exec_serdesPll_eq (g : Fin 12) (s : State) :
    exec (.serdesPll g) s = act s fun s => s.whenLocked (2 + g) fun s => s.serdesLoss g false := rfl

/-! ## Electrical idle (R161, R162, R168) -/

section Idle
variable {s : State} {p : Nat} {fs : List Byte}

theorem State.eiRequest_asks (hm : s.mayIdle p = true) (hq : s.quiet p = true) (hs : (s.port p).eiSent = false) :
    s.eiRequest p = s.queueCtl p .eiReq := by
  simp [State.eiRequest, hm, hq, hs]

theorem State.eiRequest_waits (h : s.mayIdle p = false ∨ s.quiet p = false ∨ (s.port p).eiSent = true) : s.eiRequest p = s := by
  rcases h with h | h | h <;> simp [State.eiRequest, h]

theorem State.eiExit_starts (hst : (s.port p).st = 4) (hx : (s.port p).exiting = false) :
    s.eiExit p = (s.setPort p { s.port p with exiting := true }).emit (.burst p) := by
  simp [State.eiExit, hst, hx]

theorem State.eiExit_other (hst : (s.port p).st ≠ 4) : s.eiExit p = s := by
  simp [State.eiExit, hst]

theorem State.absentBurst_sends (hst : (s.port p).st = 7 ∨ (s.port p).st = 8) : s.absentBurst p = s.emit (.burst p) := by
  simp [State.absentBurst, hst]

section Exit
variable (hst : (s.port p).st = 4) (hx : (s.port p).exiting = true)
include hst hx

/-- An exit that is complete ends in RETRAIN on a FOM below fom_min, and in UP otherwise. -/
theorem State.eiDone_ends :
    s.eiDone p fs =
      if fs.any fun f => decide (f.toNat < s.fomMin p) then (s.setFoms p fs).portLoss p true false
      else ((s.setFoms p fs).modPort p fun x =>
        { x.mapLanes (fun _ y => { y with st := 2 }) with exiting := false, traffic := s.cclk }).portGo p 3 0 := by
  have hexit : ((s.port p).st = 4 && (s.port p).exiting) = true := by simp [hst, hx]
  exact if_pos hexit

theorem State.eiDone_retrain (hlow : ∃ f ∈ fs, f.toNat < s.fomMin p) : s.eiDone p fs = (s.setFoms p fs).portLoss p true false := by
  rw [State.eiDone_ends hst hx, if_pos (by simpa using hlow)]

theorem State.eiDone_up (hfom : ∀ f ∈ fs, s.fomMin p ≤ f.toNat) :
    s.eiDone p fs = ((s.setFoms p fs).modPort p fun x =>
      { x.mapLanes (fun _ y => { y with st := 2 }) with exiting := false, traffic := s.cclk }).portGo p 3 0 := by
  rw [State.eiDone_ends hst hx, if_neg (by simpa using hfom)]

end Exit
end Idle

/-! ## PORT_CTRL and the group PLL (R167, R170, R172) -/

section Control
variable {s : State} {p : Nat}

theorem State.portRetrain_off (hst : (s.port p).st = 0) : s.portRetrain p = s := by
  simp [State.portRetrain, hst]

theorem State.portRetrain_up (hst : (s.port p).st = 3 ∨ (s.port p).st = 4) : s.portRetrain p = s.portLoss p false false := by
  rcases hst with hst | hst <;> simp [State.portRetrain, Port.carries, hst]

theorem State.portRetrain_training (hst : (s.port p).st = 1) : s.portRetrain p = s.portTrain p false := by
  simp [State.portRetrain, Port.carries, hst]

theorem State.portRetrain_retrain (hst : (s.port p).st = 9) : s.portRetrain p = s.portTrain p true := by
  simp [State.portRetrain, Port.carries, hst]

theorem State.portRetrain_hello (hst : (s.port p).st = 2) : s.portRetrain p = s.modPort p Port.clearEval := by
  simp [State.portRetrain, Port.carries, hst]

/-- A port that is held, absent or unused is evaluated again. -/
theorem State.portRetrain_again (hst : (s.port p).st = 5 ∨ (s.port p).st = 6 ∨ (s.port p).st = 7 ∨ (s.port p).st = 8) :
    s.portRetrain p = s.portAgain p := by
  rcases hst with hst | hst | hst | hst <;> simp [State.portRetrain, Port.carries, hst]

theorem State.portHold_off (hst : (s.port p).st = 0) : s.portHold p = s := if_pos hst

theorem State.portHold_holds (hst : (s.port p).st ≠ 0) :
    s.portHold p = (s.portGo p 6 8).modPort p fun x => x.mapLanes fun _ y => { y with st := 2 } := if_neg hst

theorem State.portRelease_releases (hst : (s.port p).st = 6) (hc : (s.port p).cause = 8) : s.portRelease p = s.portHello p := by
  simp [State.portRelease, hst, hc]

theorem State.portRelease_other (h : ¬((s.port p).st = 6 ∧ (s.port p).cause = 8)) : s.portRelease p = s := by
  simp [State.portRelease, h]

end Control

/-- Settles O25: each event of electrical idle and each request of PORT_CTRL acts as the state of its port says, and the loss of a locked PLL takes its group down. -/
theorem idleAndPortControl : Obligations.IdleAndPortControl := by
  refine ⟨?_, ?_⟩
  · intro s p f0 f1 f2 f3 halive x fs r
    have idle {t : State} (h : s.eiRequest p = t) := answers_of (exec_eiIdleTimeout_eq p s) halive h
    have burst {t : State} (h : s.eiExit p = t) := answers_of (exec_trainingBurstDetect_eq p s) halive h
    have done {t : State} (h : s.eiDone p fs = t) := answers_of (exec_eiExitDone_eq p f0 f1 f2 f3 s) halive h
    exact ⟨fun hm hq hs => idle (State.eiRequest_asks hm hq hs), fun h => idle (State.eiRequest_waits h),
      fun hst hx => burst (State.eiExit_starts hst hx), fun hst => burst (State.eiExit_other hst),
      fun hst hx hlow => done (State.eiDone_retrain hst hx hlow), fun hst hx hfom => done (State.eiDone_up hst hx hfom),
      fun hst => answers_of (exec_absentBurst_eq p s) halive (State.absentBurst_sends hst)⟩
  · intro s p halive x
    have retrain {t : State} (h : s.portRetrain p = t) := answers_of (exec_portRetrain_eq p s) halive h
    have hold {t : State} (h : s.portHold p = t) := answers_of (exec_portHoldDown_eq p s) halive h
    have release {t : State} (h : s.portRelease p = t) := answers_of (exec_portRelease_eq p s) halive h
    refine ⟨fun hst => ?_, fun hst => retrain (State.portRetrain_up hst), fun hst => retrain (State.portRetrain_training hst),
      fun hst => retrain (State.portRetrain_retrain hst), fun hst => retrain (State.portRetrain_hello hst),
      fun hst => retrain (State.portRetrain_again hst), fun hst => hold (State.portHold_holds hst),
      fun hst hc => release (State.portRelease_releases hst hc), fun h => release (State.portRelease_other h), fun g hpll => ?_⟩
    · have hne : ¬((s.port p).st = 6 ∧ (s.port p).cause = 8) := fun h => absurd (h.1.symm.trans hst) (by decide)
      simp only [List.forall_mem_cons]
      exact ⟨retrain (State.portRetrain_off hst), hold (State.portHold_off hst), release (State.portRelease_other hne), List.forall_mem_nil _⟩
    · intro ps
      exact answers_of (exec_serdesPll_eq g s) halive (if_pos hpll)

end Sys2Proof.Machine
end

section
/-!
SUPPORT. Frames (chapters 07 and 08): how a codeword is read, what a frame that is received brings, and what a frame that is sent takes with it, and from it the
statement about FRAME_RECEIVED and FRAME_SEND.
-/
namespace Sys2Proof.Machine

theorem exec_frameReceived_eq (p : Fin 48) (f : Frame) (looks : List Look) (pl : Look) (ev : PanEv) (s : State) :
    exec (.frameReceived p f looks pl ev) s = act s fun s => s.frameReceived p f looks pl ev := rfl

theorem exec_frameSend_eq (p : Fin 48) (bups : List (Nat × Ecc)) (s : State) :
    exec (.frameSend p bups) s = act s fun s => (s.bobUpset bups).frameSend p := rfl

/-! ## A codeword (R154, R156, R171) -/

/-- A codeword that cannot be corrected is reported and counted; what is corrected of any other counts for the port and for the lanes. -/
def State.codewordRead (s : State) (p : Nat) (f : Frame) (k : Nat) : State :=
  if 15 < (cwErrors f k).length then (s.flag (portB p) 0 { detail := s.portState p }).sat (blkR (portB p) 0x068) 0 32 1
  else (List.range 4).foldl (fun s l => if cwFixed f k l = 0 then s else s.sat (blkR (portB p) (0x220 + 0x40 * l)) 0 32 (cwFixed f k l))
    (if (cwErrors f k).isEmpty then s else s.sat (blkR (portB p) 0x060) 0 32 1)

theorem State.codeword_eq {s : State} (hu : s.uninjected = true) (p : Nat) (f : Frame) (k : Nat) :
    s.codeword p f k = (cwBad f k, s.codewordRead p f k) := by
  by_cases hbad : 15 < (cwErrors f k).length
  · simp only [State.codeword, State.codewordRead, cwBad, decide_eq_true hbad, State.detect_real hu, if_pos hbad]
  · simp only [State.codeword, State.codewordRead, cwBad, decide_eq_false hbad, State.detect_quiet hu, if_neg hbad]

theorem State.codewordRead_uninjected {s : State} (hu : s.uninjected = true) (p : Nat) (f : Frame) (k : Nat) :
    (s.codewordRead p f k).uninjected = true := by
  rw [State.codewordRead]
  split
  · exact s.flag_uninjected hu _ _ _
  · rw [foldl_keeps (·.uninjected) _ (fun s l => by split <;> rfl)]
    split <;> exact hu

/-! ## A frame that arrives (R156, R157, R168) -/

/-- Both codewords of a frame are read. -/
def State.frameRead (s : State) (p : Nat) (f : Frame) : State := (s.codewordRead p f 0).codewordRead p f 1

section Received
variable {s : State} {p : Nat} {f : Frame} {looks : List Look} {pl : Look} {ev : PanEv}

/-- A frame that is kept ends a run of lost ones; its slot number is taken, and its traffic goes to the core. -/
def State.frameKept (s : State) (p : Nat) (f : Frame) (looks : List Look) (pl : Look) (ev : PanEv) : State :=
  (((s.modPort p fun x => { x with lostRun := 0 }).progress (portB p)).frameSlot p f).frameIn p f looks pl ev

theorem State.frameReceived_off (hst : (s.port p).st = 0) : s.frameReceived p f looks pl ev = s := if_pos hst

variable (hst : (s.port p).st ≠ 0) (hu : s.uninjected = true)
include hst hu

theorem State.frameReceived_lost (hbad : 15 < (cwErrors f 0).length ∨ 15 < (cwErrors f 1).length) :
    s.frameReceived p f looks pl ev = (s.frameRead p f).frameLost p := by
  have hcw : (cwBad f 0 || cwBad f 1) = true := by simpa [cwBad] using hbad
  rw [State.frameReceived, if_neg hst]
  simp only [State.codeword_eq hu, State.codeword_eq (State.codewordRead_uninjected hu p f 0), hcw]
  rfl

variable (h0 : (cwErrors f 0).length ≤ 15) (h1 : (cwErrors f 1).length ≤ 15)
include h0 h1

theorem State.frameReceived_plain (hctl : frameCtl f = none) :
    s.frameReceived p f looks pl ev = (s.frameRead p f).frameKept p f looks pl ev := by
  have hcw : (cwBad f 0 || cwBad f 1) = false := by simp [cwBad, h0, h1]
  rw [State.frameReceived, if_neg hst]
  simp only [State.codeword_eq hu, State.codeword_eq (State.codewordRead_uninjected hu p f 0), hcw, hctl]
  rfl

/-- The control flit of a frame acts after its traffic. -/
theorem State.frameReceived_ctl {c : Ctl} (hctl : frameCtl f = some c) :
    s.frameReceived p f looks pl ev = ((s.frameRead p f).frameKept p f looks pl ev).hearCtl p c := by
  have hcw : (cwBad f 0 || cwBad f 1) = false := by simp [cwBad, h0, h1]
  rw [State.frameReceived, if_neg hst]
  simp only [State.codeword_eq hu, State.codeword_eq (State.codewordRead_uninjected hu p f 0), hcw, hctl]
  rfl

end Received

/-! ## A frame that leaves (R155, R161, R193, R194) -/

section Send
variable {s : State} {p : Nat}

/-- The slot number that a port's next frame carries: it does not advance in UP_IDLE. -/
def Port.sendSlot (x : Port) : Nat := if x.st = 4 then (x.txSlot + 1023) % 1024 else x.txSlot

/-- A frame leaves with its control flit, its pinned flits and its packets. -/
def State.frameLeaves (s : State) (p slot : Nat) (c : Ctl) (ps : List (List Byte)) (ks : List Pkt) : State :=
  ((s.modPort p fun y => { y with txSlot := (slot + 1) % 1024, eiStop := y.eiStop || (c == .eiAck && y.st == 3) }).emit
    (.frame p (mkFrame slot c ps ks))).ctlSent p c

/-- A port in UP whose neighbour has agreed to electrical idle enters it at the end of the frame. -/
def State.frameEnds (s : State) (p : Nat) (stop : Bool) : State := if stop = true ∧ (s.port p).st = 3 then s.eiEnter p else s

theorem State.frameSend_silent (h : (s.port p).sends = false) : s.frameSend p = s := by
  simp [State.frameSend, h]

/-- A frame leaves with its traffic: its control flit is the one that the traffic names, or the next that waits. -/
def State.frameFull (p : Nat) (x : Port) (t : Option Ctl × List (List Byte) × List Pkt × State) : State :=
  let cu := t.1.elim (t.2.2.2.takeCtl p) fun c => (c, t.2.2.2)
  (cu.2.frameLeaves p x.sendSlot cu.1 t.2.1 t.2.2.1).frameEnds p x.eiStop

/-- What a port that sends takes as its frame's traffic. -/
def State.frameTraffic (s : State) (p : Nat) (x : Port) : Option Ctl × List (List Byte) × List Pkt × State :=
  if x.st = 3 && !s.dev.down && s.coreOk then s.traffic p (s.wheel p x.sendSlot) else (none, [], [], s)

theorem State.frameSend_eq (h : (s.port p).sends = true) :
    s.frameSend p = State.frameFull p (s.port p) ((s.dueCtls p).frameTraffic p (s.port p)) := by
  have hends (u : State) (stop : Bool) : (if stop && (u.port p).st = 3 then u.eiEnter p else u) = u.frameEnds p stop := by
    simp [State.frameEnds]
  rw [State.frameSend, if_neg (by simp [h])]
  simp only [hends]
  rw [State.frameTraffic, Port.sendSlot]
  generalize (if (s.port p).st = 3 && !(s.dueCtls p).dev.down && (s.dueCtls p).coreOk then _ else _ : Option Ctl × List (List Byte) × List Pkt × State) = x
  obtain ⟨pin, ps, ks, u⟩ := x
  cases pin with
  | none => rfl
  | some c => rfl

theorem State.frameTraffic_up {x : Port} (hst : x.st = 3) (hd : s.dev.down = false) (hc : s.coreOk = true) :
    s.frameTraffic p x = s.traffic p (s.wheel p x.txSlot) := by
  simp [State.frameTraffic, Port.sendSlot, hst, hd, hc]

theorem State.frameTraffic_none {x : Port} (h : x.st ≠ 3 ∨ s.dev.down = true ∨ s.coreOk = false) : s.frameTraffic p x = (none, [], [], s) := by
  rcases h with h | h | h <;> simp [State.frameTraffic, h]

variable {ps : List (List Byte)} {ks : List Pkt} {u w : State} {c : Ctl} (h : (s.port p).sends = true)
include h

/-- A frame with a position that the wheel names carries that in its control flit. -/
theorem State.frameSend_pinned (ht : (s.dueCtls p).frameTraffic p (s.port p) = (some c, ps, ks, u)) :
    s.frameSend p = (u.frameLeaves p (s.port p).sendSlot c ps ks).frameEnds p (s.port p).eiStop := by
  rw [State.frameSend_eq h, ht]
  rfl

/-- Any other frame carries the control flit that waits, or IDLE. -/
theorem State.frameSend_ctl (ht : (s.dueCtls p).frameTraffic p (s.port p) = (none, ps, ks, u)) (hctl : u.takeCtl p = (c, w)) :
    s.frameSend p = (w.frameLeaves p (s.port p).sendSlot c ps ks).frameEnds p (s.port p).eiStop := by
  rw [State.frameSend_eq h, ht]
  simp only [State.frameFull, Option.elim_none, hctl]

end Send

theorem Port.sends_up {x : Port} (hst : x.st = 3) : x.sends = true := by
  simp [Port.sends, hst]

/-- Settles O26: a frame that arrives is read, and is lost or kept; a frame that leaves takes the traffic that its port may send, and a control flit. -/
theorem framesArriveAndLeave : Obligations.FramesArriveAndLeave := by
  refine ⟨?_, ?_⟩
  · intro s p f looks pl ev halive hu b word read kept
    have answers {t : State} (h : s.frameReceived p f looks pl ev = t) := answers_of (exec_frameReceived_eq p f looks pl ev s) halive h
    exact ⟨fun hst => answers (State.frameReceived_off hst), fun hst =>
      ⟨fun hbad => answers (State.frameReceived_lost hst hu hbad), fun h0 h1 =>
        ⟨fun hctl => answers (State.frameReceived_plain hst hu h0 h1 hctl), fun c hctl => answers (State.frameReceived_ctl hst hu h0 h1 hctl)⟩⟩⟩
  · intro s p bups halive x slot r sent ends
    have answers {t : State} (h : (s.bobUpset bups).frameSend p = t) := answers_of (exec_frameSend_eq p bups s) halive h
    have hnone (hx : x.st ≠ 3 ∨ r.dev.down = true ∨ r.coreOk = false) : r.frameTraffic p x = (none, [], [], r) := State.frameTraffic_none hx
    have hup (hst : x.st = 3) (hd : r.dev.down = false) (hc : r.coreOk = true) : r.frameTraffic p x = r.traffic p (r.wheel p x.txSlot) :=
      State.frameTraffic_up hst hd hc
    exact ⟨fun h => answers (State.frameSend_silent h),
      fun h hst c u hctl => answers (State.frameSend_ctl h (hnone (.inl hst)) hctl),
      fun hst hd hc pin ps ks u ht => answers (State.frameSend_pinned (Port.sends_up hst) ((hup hst hd hc).trans ht)),
      fun hst hd hc ps ks u c w ht hctl => answers (State.frameSend_ctl (Port.sends_up hst) ((hup hst hd hc).trans ht) hctl),
      fun hst hoff c u hctl => answers (State.frameSend_ctl (Port.sends_up hst) (hnone (.inr hoff)) hctl)⟩

end Sys2Proof.Machine
end

section
/-!
SUPPORT. Tree heads and pinned chunks at the core (chapters 07, 08 and 10): which the core hears, what the look at a head or at its table entry decides, and where each
goes, and from it the statement about them.
-/
namespace Sys2Proof.Machine

theorem exec_treeHeadArrival_eq (p : Option (Fin 48)) (k : Pkt) (l : Look) (s : State) :
    exec (.treeHeadArrival p k l) s = act s fun s => s.treeArrival (p.map Fin.val) k l := rfl

theorem exec_pinnedChunkArrival_eq (p : Fin 48) (c : Chunk) (l : Look) (ev : PanEv) (s : State) :
    exec (.pinnedChunkArrival p c l ev) s = act s fun s => s.pinnedChunk p c l ev := rfl

/-! ## What the core hears (R168, R181, R200, R201) -/

/-- A port in UP is heard by a core that works. -/
theorem State.hears_up {s : State} {p : Nat} (hcore : s.coreOk = true) (hst : (s.port p).st = 3) : s.hears (some p) = true := by
  simp [State.hears, State.usable, Port.carries, hcore, hst]

section Tree
variable {s r : State} {p : Option Nat} {k : Pkt} {l : Look}

theorem State.treeArrival_unheard (h : s.hears p = false ∨ k.kind ≠ 5) : s.treeArrival p k l = s := by
  rcases h with h | h <;> simp [State.treeArrival, h]

variable (hh : s.hears p = true) (hk : k.kind = 5)
include hh hk

theorem State.treeArrival_kept (hl : s.look l false = (true, r)) : s.treeArrival p k l = r.treeHead p k := by
  simp [State.treeArrival, hh, hk, hl]

theorem State.treeArrival_unread (hl : s.look l false = (false, r)) : s.treeArrival p k l = r.sat (blkR 3 0x0E8) 0 32 1 := by
  simp [State.treeArrival, hh, hk, hl]

end Tree

/-! ## A tree head goes on (R181, R240) -/

section Head
variable {s r : State} {p : Option Nat} {k : Pkt}

theorem State.treeHead_no_group (hg : s.grpCfg k.group = none) : s.treeHead p k = s.sat (blkR 3 0x0E8) 0 32 1 := by
  simp only [State.treeHead, hg]

variable {g : GrpCfg} (hg : s.grpCfg k.group = some g)
include hg

theorem State.treeHead_no_tree (ht : g.tree = false) : s.treeHead p k = s.sat (blkR 3 0x0E8) 0 32 1 := by
  simp [State.treeHead, hg, ht]

variable (hcore : s.coreOk = true) (ht : g.tree = true) {st : Nat} (hout : s.treeOut g p k = (st, r))
include hcore ht hout

/-- A packet that the chip delivers is taken by the engine where its CRC-32C holds. -/
theorem State.treeHead_delivers (hd : g.deliver = true) (hto : g.treeOnly = false) :
    s.treeHead p k = if pktOk k then r.fwd.engine k else r.sat (blkR 3 0x0C0) 0 32 1 := by
  simp [State.treeHead, hg, hcore, ht, hout, hd, hto]

theorem State.treeHead_passes (hd : g.deliver = false ∨ g.treeOnly = true) : s.treeHead p k = r := by
  rcases hd with hd | hd <;> simp [State.treeHead, hg, hcore, ht, hout, hd]

end Head

/-! ## A chunk goes on (R190, R191) -/

section Pinned
variable {s r : State} {p : Nat} {c : Chunk} {l : Look} {ev : PanEv}

theorem State.pinnedChunk_unheard (hh : s.hears (some p) = false) : s.pinnedChunk p c l ev = s := by
  simp [State.pinnedChunk, hh]

variable (hh : s.hears (some p) = true)
include hh

theorem State.pinnedChunk_unread (hl : s.look l true = (false, r)) : s.pinnedChunk p c l ev = r.pinDrop chunkFlits := by
  simp [State.pinnedChunk, hh, hl]

variable (hl : s.look l true = (true, r)) (hu : r.uninjected = true)
include hl hu

/-- No entry of its ring takes the chunk at this port. -/
theorem State.pinnedChunk_no_entry (he : r.ringIn c.ring p = none) : s.pinnedChunk p c l ev = (r.flag 3 3).pinDrop chunkFlits := by
  simp [State.pinnedChunk, hh, hl, he, State.detect_real hu]

variable {e : RingEntry} (he : r.ringIn c.ring p = some e)
include he

/-- A chunk crosses the date line a second time. -/
theorem State.pinnedChunk_twice (hd : e.dateLine = 1 ∧ c.vc = 1) : s.pinnedChunk p c l ev = (r.flag 3 4).pinDrop chunkFlits := by
  simp [State.pinnedChunk, hh, hl, he, hd, State.detect_real hu, State.detect_quiet hu]

/-- A transit entry puts the chunk into the egress buffer of its VC, and a member entry gives it to its pan slot. -/
theorem State.pinnedChunk_goes (hd : ¬(e.dateLine = 1 ∧ c.vc = 1)) :
    s.pinnedChunk p c l ev = if e.transit then (r.progress 3).vcPut e (max c.vc e.dateLine) c else (r.progress 3).panChunk c ev := by
  have hb : (e.dateLine == 1 && c.vc == 1) = false := by simpa using hd
  simp [State.pinnedChunk, hh, hl, he, hb, State.detect_quiet hu]

end Pinned

/-- Settles O28: a head or a chunk that the core hears goes on as its group or its ring entry says, and what cannot be read is dropped. -/
theorem pinnedAndTreeHeads : Obligations.PinnedAndTreeHeads := by
  refine ⟨?_, ?_⟩
  · intro s p k c ev halive hu hcore hst arrive
    have hh := State.hears_up hcore hst
    have pinned {t : State} (h : s.pinnedChunk p c .clean ev = t) := answers_of (exec_pinnedChunkArrival_eq p c .clean ev s) halive h
    refine ⟨fun hk => ?_, fun he => pinned (State.pinnedChunk_no_entry hh (s.look_clean hu true) hu he), fun e he => ?_⟩
    · intro tree
      have answers {t : State} (h : s.treeHead (some p.val) k = t) := answers_of (exec_treeHeadArrival_eq (some p) k .clean s) halive
        ((State.treeArrival_kept hh hk (s.look_clean hu false)).trans h)
      refine ⟨fun hg => answers (State.treeHead_no_group hg), fun g hg => ⟨fun ht => answers (State.treeHead_no_tree hg ht), fun ht st r hout => ?_⟩⟩
      exact ⟨fun hd hto =>
          ⟨fun hpkt => answers ((State.treeHead_delivers hg hcore ht hout hd hto).trans (if_pos hpkt)),
            fun hpkt => answers ((State.treeHead_delivers hg hcore ht hout hd hto).trans (if_neg (by simp [hpkt])))⟩,
        fun hd => answers (State.treeHead_passes hg hcore ht hout hd)⟩
    · have goes (hd : ¬(e.dateLine = 1 ∧ c.vc = 1)) := State.pinnedChunk_goes (ev := ev) hh (s.look_clean hu true) hu he hd
      exact ⟨fun h1 h2 => pinned (State.pinnedChunk_twice hh (s.look_clean hu true) hu he ⟨h1, h2⟩),
        fun hd ht => pinned ((goes hd).trans (if_pos ht)), fun hd ht => pinned ((goes hd).trans (if_neg (by simp [ht])))⟩
  · intro s l halive
    refine ⟨fun p k => ?_, fun p c ev => ?_⟩
    · have runs {t : State} (h : s.treeArrival (p.map Fin.val) k l = t) := (answers_of (exec_treeHeadArrival_eq p k l s) halive h).1
      refine ⟨fun h => runs (State.treeArrival_unheard h), fun hh hk kept r hl => ⟨fun hkept => ?_, fun hkept => ?_⟩⟩
      · exact runs (State.treeArrival_kept hh hk (hkept ▸ hl))
      · exact runs (State.treeArrival_unread hh hk (hkept ▸ hl))
    · have runs {t : State} (h : s.pinnedChunk p c l ev = t) := (answers_of (exec_pinnedChunkArrival_eq p c l ev s) halive h).1
      refine ⟨fun hh => runs (State.pinnedChunk_unheard hh), fun hh kept r hl => ⟨fun hkept => ?_, fun hkept hu e he hd => ?_, fun hkept hu he => ?_⟩⟩
      · exact runs (State.pinnedChunk_unread hh (hkept ▸ hl))
      · exact runs (State.pinnedChunk_goes hh (hkept ▸ hl) hu he (by omega))
      · exact runs (State.pinnedChunk_no_entry hh (hkept ▸ hl) hu he)

end Sys2Proof.Machine
end

section
/-!
SUPPORT. The mailbox commands that read a staged object (chapters 07 and 17): how a plan, a firmware image and a lane table are checked and installed, and from it the
statement about them.
-/
namespace Sys2Proof.Machine

/-! ## What each command that reads a staged object acts with -/

theorem exec_planInstall_eq (s : State) : exec .planInstall s = act s fun s => s.planInstall := rfl

theorem exec_fwFlash_eq (s : State) : exec .fwFlash s = act s fun s => s.fwFlash := rfl

theorem exec_laneTable_eq (s : State) : exec .laneTable s = act s fun s => s.laneInstall := rfl

/-! ## PLAN_INSTALL (R374) -/

section Plan
variable {s r : State} {bs : List Byte}

theorem State.planInstall_idle (hb : s.mbBusy 1 = false) : s.planInstall = s := by
  simp [State.planInstall, hb]

variable (hb : s.mbBusy 1 = true)
include hb

theorem State.planInstall_busy (hq : s.quiescent = false) : s.planInstall = s.mbDone 2 := by
  simp [State.planInstall, hb, hq]

variable (hq : s.quiescent = true)
include hq

theorem State.planInstall_length (hlen : s.mbLength ≠ 552) : s.planInstall = s.mbDone 4 := by
  simp [State.planInstall, hb, hq, hlen]

variable (hlen : s.mbLength = 552)
include hlen

theorem State.planInstall_unread (hst : s.mbStaged = (none, r)) : s.planInstall = r.mbDone 11 := by
  simp [State.planInstall, hb, hq, hlen, hst]

variable (hst : s.mbStaged = (some bs, r))
include hst

theorem State.planInstall_form (hf : planForm bs = false) : s.planInstall = r.mbDone 4 := by
  simp [State.planInstall, hb, hq, hlen, hst, hf]

variable (hf : planForm bs = true) (hi : r.inForce = none)
include hf hi

theorem State.planInstall_no_key (hk : (r.keySlot (planOf bs).key).isNone = true) : s.planInstall = r.mbDone 10 := by
  simp only [State.planInstall, hb, hq, hlen, hst, hf, hi, hk]
  rfl

variable (hk : (r.keySlot (planOf bs).key).isNone = false)
include hk

theorem State.planInstall_no_security (hok : r.secOk = false) : s.planInstall = r.mbDone 3 := by
  simp only [State.planInstall, hb, hq, hlen, hst, hf, hi, hk, hok]
  rfl

variable (hok : r.secOk = true)
include hok

theorem State.planInstall_unsigned (hs : r.signedBy (planOf bs).key (bs.take 0x1C8) (slice bs 0x1C8 96) = false) :
    s.planInstall = r.secOp.mbDone 3 := by
  simp only [State.planInstall, hb, hq, hlen, hst, hf, hi, hk, hok, hs]
  rfl

theorem State.planInstall_installs (hs : r.signedBy (planOf bs).key (bs.take 0x1C8) (slice bs 0x1C8 96) = true) :
    s.planInstall = (r.secOp.installPlan (planOf bs)).mbDone 0 := by
  simp only [State.planInstall, hb, hq, hlen, hst, hf, hi, hk, hok, hs]
  rfl

end Plan

/-! ## FW_FLASH (R368) -/

section Flash
variable {s r : State} {bs : List Byte}

theorem State.fwFlash_idle (hb : s.mbBusy 6 = false) : s.fwFlash = s := by
  simp [State.fwFlash, hb]

variable (hb : s.mbBusy 6 = true)
include hb

theorem State.fwFlash_busy (hq : s.quiescent = false) : s.fwFlash = s.mbDone 2 := by
  simp [State.fwFlash, hb, hq]

variable (hq : s.quiescent = true)
include hq

theorem State.fwFlash_length (hlen : 6291456 < s.mbLength) : s.fwFlash = s.mbDone 4 := by
  simp [State.fwFlash, hb, hq, hlen]

variable (hlen : s.mbLength ≤ 6291456)
include hlen

theorem State.fwFlash_unread (hst : s.mbStaged = (none, r)) : s.fwFlash = r.mbDone 11 := by
  simp [State.fwFlash, hb, hq, Nat.not_lt.2 hlen, hst]

variable (hst : s.mbStaged = (some bs, r))
include hst

theorem State.fwFlash_writes (hc : fwCheck bs bs.length r.svnMin r.hst.fwKey r.secOk = 0) :
    s.fwFlash = ({ r.secOp with hst := { r.secOp.hst with flash := { r.secOp.hst.flash with fw := bs } } }).mbDone 0 := by
  simp [State.fwFlash, hb, hq, Nat.not_lt.2 hlen, hst, hc]

theorem State.fwFlash_refuses {n : Nat} (hc : fwCheck bs bs.length r.svnMin r.hst.fwKey r.secOk = n + 1) :
    s.fwFlash = (r.fwRefused true).mbDone (fwResult (n + 1)) := by
  simp [State.fwFlash, hb, hq, Nat.not_lt.2 hlen, hst, hc]

end Flash

/-! ## LANE_TABLE (R158) -/

section Lane
variable {s r : State} {bs : List Byte}

theorem State.laneInstall_idle (hb : s.mbBusy 8 = false) : s.laneInstall = s := by
  simp [State.laneInstall, hb]

variable (hb : s.mbBusy 8 = true)
include hb

theorem State.laneInstall_length (hlen : 524288 < s.mbLength) : s.laneInstall = s.mbDone 4 := by
  simp [State.laneInstall, hb, hlen]

variable (hlen : s.mbLength ≤ 524288)
include hlen

theorem State.laneInstall_unread (hst : s.mbStaged = (none, r)) : s.laneInstall = r.mbDone 11 := by
  simp [State.laneInstall, hb, Nat.not_lt.2 hlen, hst]

theorem State.laneInstall_checks (hst : s.mbStaged = (some bs, r)) :
    s.laneInstall = if laneTableOk bs then ({ r with hst := { r.hst with lane := bs } }).mbDone 0 else r.mbDone 4 := by
  simp [State.laneInstall, hb, Nat.not_lt.2 hlen, hst]

end Lane

/-! ## The checks of a firmware image (R367) -/

section Firmware
variable {img : List Byte} {staged svn : Nat} {keyHash : List Byte} {able : Bool}

/-- Without the magic an image is empty, erased or of another kind. -/
theorem fwCheck_magic (hm : img.take 8 ≠ fwMagic) :
    fwCheck img staged svn keyHash able = 1 ∨ fwCheck img staged svn keyHash able = 2 := by
  rw [fwCheck]
  by_cases he : (img.isEmpty || allZero (img.take 8)) = true
  · exact .inl (if_pos he)
  · exact .inr ((if_neg he).trans (if_pos hm))

/-- With the magic the checks that are left apply in their order. -/
theorem fwCheck_checks (hm : img.take 8 = fwMagic) :
    fwCheck img staged svn keyHash able =
      if u img 8 4 < 512 ∨ 6291456 < u img 8 4 ∨ u img 8 4 ≠ staged then 6
      else if sha384 (fwSigner img) ≠ keyHash then 3
      else if ¬(able && fwSigned img) = true then 4
      else if u img 0x18 2 < svn then 5
      else 0 := by
  have he : (img.isEmpty || allZero (img.take 8)) = false := by
    have hne : img.isEmpty = false := by
      cases img with
      | nil => exact absurd hm (by decide)
      | cons b bs => rfl
    rw [hne, hm]
    decide
  rw [fwCheck, he, if_neg Bool.false_ne_true, if_neg (not_not_intro hm)]
  simp only [Bool.or_eq_true, decide_eq_true_eq, or_assoc, Bool.not_eq_true', Bool.not_eq_true]

/-- Each answer of the checks is the first that applies. -/
theorem fwCheck_iff :
    let bad := u img 8 4 < 512 ∨ 6291456 < u img 8 4 ∨ u img 8 4 ≠ staged
    let signed := (able && fwSigned img) = true
    let r := fwCheck img staged svn keyHash able
    (r = 0 ↔ img.take 8 = fwMagic ∧ ¬bad ∧ sha384 (fwSigner img) = keyHash ∧ signed ∧ svn ≤ u img 0x18 2) ∧
    (r = 6 ↔ img.take 8 = fwMagic ∧ bad) ∧ (r = 3 ↔ img.take 8 = fwMagic ∧ ¬bad ∧ sha384 (fwSigner img) ≠ keyHash) ∧
    (r = 4 ↔ img.take 8 = fwMagic ∧ ¬bad ∧ sha384 (fwSigner img) = keyHash ∧ ¬signed) ∧
    (r = 5 ↔ img.take 8 = fwMagic ∧ ¬bad ∧ sha384 (fwSigner img) = keyHash ∧ signed ∧ u img 0x18 2 < svn) ∧
    (r = 1 ∨ r = 2 ↔ img.take 8 ≠ fwMagic) := by
  intro bad signed r
  by_cases hm : img.take 8 = fwMagic
  · have hr : r = if bad then 6 else if sha384 (fwSigner img) ≠ keyHash then 3 else if ¬signed then 4 else if u img 0x18 2 < svn then 5 else 0 :=
      fwCheck_checks hm
    rw [hr]
    by_cases hbad : bad
    · simp [hm, hbad]
    by_cases hkey : sha384 (fwSigner img) = keyHash
    · by_cases hsig : signed
      · by_cases hsvn : u img 0x18 2 < svn
        · simp [hm, hbad, hkey, hsig, hsvn]
        · simp [hm, hbad, hkey, hsig, hsvn, Nat.not_lt.1 hsvn]
      · simp [hm, hbad, hkey, hsig]
    · simp [hm, hbad, hkey]
  · have hr : r = 1 ∨ r = 2 := fwCheck_magic hm
    simp only [hm, false_and, iff_false, ne_eq, not_false_eq_true, iff_true]
    omega

end Firmware

/-- Settles O54: each staged object is read and checked in its order, and each answer of the firmware checks is the first that applies. -/
theorem stagedObjectsAreChecked : Obligations.StagedObjectsAreChecked := by
  refine ⟨?_, fun img staged svn keyHash able => fwCheck_iff⟩
  intro s r bs halive len plan
  have installs {t : State} (h : s.planInstall = t) := answers_of (exec_planInstall_eq s) halive h
  have flashes {t : State} (h : s.fwFlash = t) := answers_of (exec_fwFlash_eq s) halive h
  have takes {t : State} (h : s.laneInstall = t) := answers_of (exec_laneTable_eq s) halive h
  refine ⟨fun hb hq => ?_, fun hb hq => ?_, fun hb => ?_⟩
  · exact ⟨fun hlen => installs (State.planInstall_length hb hq hlen), fun hlen hst => installs (State.planInstall_unread hb hq hlen hst),
      fun hlen hst hf => installs (State.planInstall_form hb hq hlen hst hf), fun hlen hst hf hi =>
      ⟨fun hk => installs (State.planInstall_no_key hb hq hlen hst hf hi hk),
        fun hk hok => installs (State.planInstall_no_security hb hq hlen hst hf hi hk hok),
        fun hk hok hs => installs (State.planInstall_unsigned hb hq hlen hst hf hi hk hok hs),
        fun hk hok hs => installs (State.planInstall_installs hb hq hlen hst hf hi hk hok hs)⟩⟩
  · exact ⟨fun hlen => flashes (State.fwFlash_length hb hq hlen), fun hlen hst => flashes (State.fwFlash_unread hb hq hlen hst),
      fun hlen hst => ⟨fun hc => flashes (State.fwFlash_writes hb hq hlen hst hc), fun n hc => flashes (State.fwFlash_refuses hb hq hlen hst hc)⟩⟩
  · exact ⟨fun hlen => takes (State.laneInstall_length hb hlen), fun hlen hst => takes (State.laneInstall_unread hb hlen hst),
      fun hlen hst => ⟨fun hok => takes ((State.laneInstall_checks hb hlen hst).trans (if_pos hok)),
        fun hok => takes ((State.laneInstall_checks hb hlen hst).trans (if_neg (by simp [hok])))⟩⟩

end Sys2Proof.Machine
end

section
/-!
SUPPORT. The mailbox commands (chapter 17): when a command acts, and how each command of Table 17-5 ends, and from it the statement about the commands' results.
-/
namespace Sys2Proof.Machine

/-! ## What each other mailbox command acts with -/

theorem exec_ownerEnrol_eq (s : State) : exec .ownerEnrol s = act s fun s => s.mbRun 2 fun s => s.enrol := rfl

theorem exec_ownerRemove_eq (s : State) : exec .ownerRemove s = act s fun s => s.mbRun 3 fun s => s.unenrol := rfl

theorem exec_attest_eq (s : State) : exec .attest s = act s fun s => s.mbRun 4 fun s => s.attest := rfl

theorem exec_getCert_eq (s : State) : exec .getCert s = act s fun s => s.mbRun 5 fun s => s.getCert := rfl

theorem exec_svnAdvance_eq (s : State) : exec .svnAdvance s = act s fun s => s.mbRun 7 fun s => s.svnAdvance := rfl

theorem exec_quilanMsg_eq (m : QuilanAct) (s : State) :
    exec (.quilanMsg m) s = act s fun s => s.mbRun 9 fun s => (s.quilanAct m).mbDone 0 := rfl

theorem exec_debugEnable_eq (nonce : BitVec 32) (s : State) :
    exec (.debugEnable nonce) s = act s fun s => s.mbRun 10 fun s => s.debugOn nonce.toNat := rfl

theorem exec_debugDisable_eq (s : State) : exec .debugDisable s = act s fun s => s.mbRun 11 fun s => s.debugEnd := rfl

theorem exec_unknownCommand_eq (s : State) : exec .unknownCommand s = act s fun s => s.mbUnknown := rfl

/-! ## When a command acts (R370) -/

section Runs
variable {c : Instr} {s t : State} {code : Nat} {f : State → State} (halive : s.alive = true)
  (hexec : exec c s = act s fun s => s.mbRun code f)
include halive hexec

theorem answers_mailbox_idle (hb : s.mbBusy code = false) : Answers c s s :=
  answers_of hexec halive (if_neg (by simp [hb]))

theorem answers_mailbox (hb : s.mbBusy code = true) (h : f s = t) : Answers c s t :=
  answers_of hexec halive ((if_pos hb).trans h)

end Runs

section Unknown
variable {s : State}

theorem State.mbUnknown_answers (hb : s.mbBusy s.mbCode = true) (hc : s.mbCode = 0 ∨ 11 < s.mbCode) : s.mbUnknown = s.mbDone 7 := by
  simp [State.mbUnknown, hb, hc]

theorem State.mbUnknown_other (h : s.mbBusy s.mbCode = false ∨ 1 ≤ s.mbCode ∧ s.mbCode ≤ 11) : s.mbUnknown = s := by
  rcases h with h | ⟨h1, h11⟩
  · simp [State.mbUnknown, h]
  · simp [State.mbUnknown, Nat.ne_of_gt h1, Nat.not_lt.2 h11]

end Unknown

/-! ## The owner keys (R372) -/

/-- The security block has tried to verify, where it works. -/
def State.verifyTried (s : State) : State := if s.secOk then s.secOp else s

section Keys
variable {s : State}

/-- A store without keys is free from its first slot. -/
theorem State.freeKeySlot_of_noKeys (h : s.noKeys = true) : s.freeKeySlot = some 0 := by
  have h0 : (s.keyAt 0).isEmpty = true := List.all_eq_true.1 h 0 (by decide)
  exact List.find?_cons_of_pos h0

@[simp] theorem State.secOp_freeKeySlot (s : State) : s.secOp.freeKeySlot = s.freeKeySlot := rfl

theorem State.enrol_busy (hq : s.quiescent = false) : s.enrol = s.mbDone 2 := by
  simp [State.enrol, hq]

theorem State.unenrol_busy (hq : s.quiescent = false) : s.unenrol = s.mbDone 2 := by
  simp [State.unenrol, hq]

section Enrol
variable (hq : s.quiescent = true)
include hq

theorem State.enrol_no_point (hp : (ecPoint (s.mbPayload 97)).isNone = true) : s.enrol = s.mbDone 4 := by
  simp only [State.enrol, hq, hp]
  rfl

variable (hp : (ecPoint (s.mbPayload 97)).isNone = false)
include hp

/-- The first key needs no authority. -/
theorem State.enrol_first (hn : s.noKeys = true) : s.enrol = (s.setKey 0 (s.mbPayload 97)).mbDone 0 := by
  simp only [State.enrol, hq, hp, hn]
  simp [State.freeKeySlot_of_noKeys hn]

variable (hn : s.noKeys = false)
include hn

theorem State.enrol_unsigned (hs : (s.secOk && s.signedByAny (s.mbSigned 97) (s.mbSig 97)) = false) : s.enrol = s.verifyTried.mbDone 3 := by
  simp only [State.enrol, hq, hp, hn, hs]
  rfl

variable (hs : (s.secOk && s.signedByAny (s.mbSigned 97) (s.mbSig 97)) = true)
include hs

theorem State.enrol_takes {k : Nat} (hk : s.freeKeySlot = some k) : s.enrol = (s.secOp.setKey k (s.mbPayload 97)).mbDone 0 := by
  simp only [State.enrol, hq, hp, hn, hs]
  simp [hk]

theorem State.enrol_full (hk : s.freeKeySlot = none) : s.enrol = s.secOp.mbDone 5 := by
  simp only [State.enrol, hq, hp, hn, hs]
  simp [hk]

end Enrol

section Remove
variable (hq : s.quiescent = true)
include hq

theorem State.unenrol_unknown (hk : s.keySlot (u (s.mbPayload 8) 0 8) = none) : s.unenrol = s.mbDone 10 := by
  simp only [State.unenrol, hq, hk]
  rfl

variable {k : Nat} (hk : s.keySlot (u (s.mbPayload 8) 0 8) = some k)
include hk

theorem State.unenrol_unsigned (hs : (s.secOk && s.signedByAny (s.mbSigned 8) (s.mbSig 8)) = false) : s.unenrol = s.verifyTried.mbDone 3 := by
  simp only [State.unenrol, hq, hk, hs]
  rfl

variable (hs : (s.secOk && s.signedByAny (s.mbSigned 8) (s.mbSig 8)) = true)
include hs

/-- The key of the image in force stays. -/
theorem State.unenrol_used (hi : s.inForce.isSome = true) (hid : s.imgKey = u (s.mbPayload 8) 0 8) : s.unenrol = s.secOp.mbDone 6 := by
  simp only [State.unenrol, hq, hk, hs]
  simp [hi, hid]

theorem State.unenrol_removes (h : s.inForce = none ∨ s.imgKey ≠ u (s.mbPayload 8) 0 8) : s.unenrol = (s.secOp.setKey k []).mbDone 0 := by
  simp only [State.unenrol, hq, hk, hs]
  rcases h with h | h <;> simp [h]

end Remove
end Keys

/-! ## Attestation, the firmware minimum and debug (R367, R375, R376) -/

section Rest
variable {s : State}

theorem State.attest_committing (hl : s.ld.state = 3) : s.attest = s.mbDone 1 := if_pos hl

theorem State.attest_reports (hl : s.ld.state ≠ 3) (hok : s.secOk = true) :
    s.attest = s.secOp.mbDone 0
      (s.report (s.mbPayload 32) ++ (Config.idSign (s.report (s.mbPayload 32)) ++ List.replicate 96 0).take 96) :=
  (if_neg hl).trans (if_pos hok)

theorem State.attest_no_security (hl : s.ld.state ≠ 3) (hok : s.secOk = false) : s.attest = s.mbDone 3 :=
  (if_neg hl).trans (if_neg (by simp [hok]))

theorem State.svnAdvance_busy (hq : s.quiescent = false) : s.svnAdvance = s.mbDone 2 := by
  simp [State.svnAdvance, hq]

/-- The minimum rises no higher than the version of the firmware that runs. -/
theorem State.svnAdvance_eq (hq : s.quiescent = true) :
    s.svnAdvance =
      if s.hst.fw.elim 0 Fw.svn < u (s.mbPayload 2) 0 2 then s.mbDone 8
      else ({ s with hst := { s.hst with svnMin := max s.hst.svnMin (u (s.mbPayload 2) 0 2) } }).mbDone 0 := by
  cases hfw : s.hst.fw <;> simp [State.svnAdvance, hq, hfw]

theorem State.debugOn_no_keys {nonce : Nat} (hn : s.noKeys = true) : s.debugOn nonce = s.mbDone 10 := if_pos hn

/-- The nonce that follows a token: the one drawn, or the next one where that repeats. -/
def nextNonce (old nonce : Nat) : Nat := if nonce = old then (nonce + 1) % 2 ^ 32 else nonce

theorem nextNonce_ne (old nonce : Nat) : nextNonce old nonce ≠ old := by
  rw [nextNonce]
  split <;> omega

theorem nextNonce_fresh {old nonce : Nat} (h : nonce ≠ old) : nextNonce old nonce = nonce := if_neg h

section Token
variable {nonce : Nat} (hn : s.noKeys = false)
include hn

theorem State.debugOn_unsigned (hs : (s.secOk && s.signedByAny (s.tokenMsg (u (s.mbPayload 4) 0 4)) (s.mbSig 4)) = false) :
    s.debugOn nonce = s.verifyTried.mbDone 3 := by
  simp only [State.debugOn, hn, hs]
  rfl

theorem State.debugOn_enables (hs : (s.secOk && s.signedByAny (s.tokenMsg (u (s.mbPayload 4) 0 4)) (s.mbSig 4)) = true) :
    s.debugOn nonce =
      ({ s.secOp with hst := { s.secOp.hst with debug := true, debugSecs := u (s.mbPayload 4) 0 4, nonce := nextNonce s.hst.nonce nonce } }).mbDone 0 := by
  simp only [State.debugOn, hn, hs]
  rfl

end Token
end Rest

/-- Settles O53: a command acts while the mailbox is BUSY with its code, and ends with the result of the first of its checks that fails, or with OK. -/
theorem mailboxCommandsAnswer : Obligations.MailboxCommandsAnswer := by
  intro s nonce m halive op svn rep key id secs signed token
  have enrols {t : State} := answers_mailbox (t := t) halive (exec_ownerEnrol_eq s)
  have removes {t : State} := answers_mailbox (t := t) halive (exec_ownerRemove_eq s)
  have attests {t : State} := answers_mailbox (t := t) halive (exec_attest_eq s)
  have advances {t : State} := answers_mailbox (t := t) halive (exec_svnAdvance_eq s)
  have enables {t : State} := answers_mailbox (t := t) halive (exec_debugEnable_eq nonce s)
  have unknown {t : State} (h : s.mbUnknown = t) := answers_of (exec_unknownCommand_eq s) halive h
  have plan {t : State} (h : s.planInstall = t) := answers_of (exec_planInstall_eq s) halive h
  have flash {t : State} (h : s.fwFlash = t) := answers_of (exec_fwFlash_eq s) halive h
  have lanes {t : State} (h : s.laneInstall = t) := answers_of (exec_laneTable_eq s) halive h
  refine ⟨?_, fun hb hq => ?_, fun hb hq => ?_, fun hb => ?_, fun hb => ?_, fun hb hq => ?_, fun hb => ?_, fun hb => ?_, fun hb => ?_,
    fun hb hc => unknown (State.mbUnknown_answers hb hc), fun h => unknown (State.mbUnknown_other h)⟩
  · simp only [List.forall_mem_cons]
    exact ⟨⟨fun hb => plan (State.planInstall_idle hb), fun _ hb hq => plan (State.planInstall_busy hb hq)⟩,
      ⟨answers_mailbox_idle halive (exec_ownerEnrol_eq s), fun _ hb hq => enrols hb (State.enrol_busy hq)⟩,
      ⟨answers_mailbox_idle halive (exec_ownerRemove_eq s), fun _ hb hq => removes hb (State.unenrol_busy hq)⟩,
      ⟨answers_mailbox_idle halive (exec_attest_eq s), fun h => absurd h (by decide)⟩,
      ⟨answers_mailbox_idle halive (exec_getCert_eq s), fun h => absurd h (by decide)⟩,
      ⟨fun hb => flash (State.fwFlash_idle hb), fun _ hb hq => flash (State.fwFlash_busy hb hq)⟩,
      ⟨answers_mailbox_idle halive (exec_svnAdvance_eq s), fun _ hb hq => advances hb (State.svnAdvance_busy hq)⟩,
      ⟨fun hb => lanes (State.laneInstall_idle hb), fun h => absurd h (by decide)⟩,
      ⟨answers_mailbox_idle halive (exec_quilanMsg_eq m s), fun h => absurd h (by decide)⟩,
      ⟨answers_mailbox_idle halive (exec_debugEnable_eq nonce s), fun h => absurd h (by decide)⟩,
      ⟨answers_mailbox_idle halive (exec_debugDisable_eq s), fun h => absurd h (by decide)⟩, List.forall_mem_nil _⟩
  · exact ⟨fun hp => enrols hb (State.enrol_no_point hq hp), fun hp hn => enrols hb (State.enrol_first hq hp hn),
      fun hp hn hs => enrols hb (State.enrol_unsigned hq hp hn hs), fun hp hn hs =>
      ⟨fun k hk => enrols hb (State.enrol_takes hq hp hn hs hk), fun hk => enrols hb (State.enrol_full hq hp hn hs hk)⟩⟩
  · exact ⟨fun hk => removes hb (State.unenrol_unknown hq hk), fun k hk hs =>
      ⟨fun hi hid => removes hb (State.unenrol_used hq hk hs hi hid), fun h => removes hb (State.unenrol_removes hq hk hs h)⟩,
      fun k hk hs => removes hb (State.unenrol_unsigned hq hk hs)⟩
  · exact ⟨fun hl => attests hb (State.attest_committing hl), fun hl hok => attests hb (State.attest_reports hl hok),
      fun hl hok => attests hb (State.attest_no_security hl hok)⟩
  · exact answers_mailbox halive (exec_getCert_eq s) hb rfl
  · exact ⟨fun h => advances hb ((State.svnAdvance_eq hq).trans (if_pos h)),
      fun h => advances hb ((State.svnAdvance_eq hq).trans (if_neg (Nat.not_lt.2 h)))⟩
  · exact answers_mailbox halive (exec_quilanMsg_eq m s) hb rfl
  · exact ⟨fun hn => enables hb (State.debugOn_no_keys hn), fun hn hs => enables hb (State.debugOn_unsigned hn hs), fun hn hs =>
      ⟨nextNonce s.hst.nonce nonce.toNat, nextNonce_ne _ _, nextNonce_fresh, enables hb (State.debugOn_enables hn hs)⟩⟩
  · exact answers_mailbox halive (exec_debugDisable_eq s) hb rfl

end Sys2Proof.Machine
end

section
/-!
SUPPORT. Loose heads at the core (chapters 08 and 09): where a head goes that arrives or has waited, which port the deflection order takes, and what leaves a port's
queue, and from it the statement about them.
-/
namespace Sys2Proof.Machine

theorem exec_looseHeadArrival_eq (p : Option (Fin 48)) (busy : List (Fin 48)) (k : Pkt) (l : Look) (ups : Upsets) (s : State) :
    exec (.looseHeadArrival p busy k l ups) s = act s fun s => (s.upset ups).looseHead (p.map Fin.val) (busy.map Fin.val) k l := rfl

theorem exec_headReevaluate_eq (i : Nat) (busy : List (Fin 48)) (s : State) :
    exec (.headReevaluate i busy) s = act s fun s => s.reevaluate i (busy.map Fin.val) := rfl

theorem exec_egressSelect_eq (p : Fin 48) (bups : List (Nat × Ecc)) (s : State) :
    exec (.egressSelect p bups) s = act s fun s => (s.bobUpset bups).egressSelect p := rfl

/-! ## A head that arrives or has waited (R176, R180, R181) -/

@[simp] theorem State.upset_hears (s : State) (l : Upsets) (p : Option Nat) : (s.upset l).hears p = s.hears p :=
  State.upset_keeps (·.hears p) (fun _ _ => rfl) s l

/-- A head that came from a port is no request at its own source: its discard counts, and no record ends. -/
theorem State.noRoute_port (s : State) (p : Nat) (k : Pkt) : s.noRoute (some p) k = s.sat (blkR 3 0x0B8) 0 32 1 := by
  have hnone : (s.sat (blkR 3 0x0B8) 0 32 1).swc.reqs.find? (fun _ => false) = none := by simp
  simp only [State.noRoute, Option.isNone_some, Bool.false_and, hnone]

section Forward
variable {s : State} {frm : Option Nat} {busy : List Nat} {evals since : Nat} {k : Pkt}

theorem State.forward_noRoute (h : s.choose frm k.dst busy evals = .noRoute) : (s.forward frm busy evals since k).2 = s.noRoute frm k := by
  simp only [State.forward, h]

theorem State.forward_full (h : s.choose frm k.dst busy evals = .full) : (s.forward frm busy evals since k).2 = s.sat (blkR 3 0x0A8) 0 32 1 := by
  simp only [State.forward, h]

theorem State.forward_wait (h : s.choose frm k.dst busy evals = .wait) :
    (s.forward frm busy evals since k).2 = s.stage ⟨frm, k, evals + 1, since⟩ := by
  simp only [State.forward, h]

theorem State.forward_put {p step : Nat} (h : s.choose frm k.dst busy evals = .put p step) :
    s.forward frm busy evals since k = s.enq p k frm since step := by
  simp only [State.forward, h]

end Forward

section Arrival
variable {s : State} {p : Option Nat} {busy : List Nat} {k : Pkt} (hu : s.uninjected = true) (hh : s.hears p = true) (hk : k.kind ≠ 5)
include hu hh hk

theorem State.looseHead_here (hd : k.dst = s.chip) : s.looseHead p busy k .clean = s.deliver k := by
  simp [State.looseHead, hh, hk, hd, s.look_clean hu]

theorem State.looseHead_away (hd : k.dst ≠ s.chip) : s.looseHead p busy k .clean = (s.forward p busy 0 s.cclk k).2 := by
  simp [State.looseHead, hh, hk, hd, s.look_clean hu]

end Arrival

@[simp] theorem State.modSwc_chip (s : State) (f : Swc → Swc) : (s.modSwc f).chip = s.chip := rfl

/-- The state in which the head of an ingress stage is tried again. -/
def State.unstage (s : State) (i : Nat) : State := s.modSwc fun x => { x with stages := x.stages.eraseIdx i }

section Waited
variable {s : State} {i : Nat} {busy : List Nat} {g : Stage} (hcore : s.coreOk = true) (hg : s.swc.stages[i]? = some g)
include hcore hg

theorem State.reevaluate_here (hd : g.pkt.dst = s.chip) : s.reevaluate i busy = (s.unstage i).deliver g.pkt := by
  simp [State.reevaluate, State.unstage, hg, hcore, hd]

theorem State.reevaluate_away (hd : g.pkt.dst ≠ s.chip) :
    s.reevaluate i busy = ((s.unstage i).forward g.frm busy g.evals g.since g.pkt).2 := by
  simp [State.reevaluate, State.unstage, hg, hcore, hd]

end Waited

/-! ## The deflection order (R179, R181, Table 8-5) -/

/-- What each step of Table 8-5 says of the port that it takes, while every queue has a write free. -/
inductive State.Takes (s : State) (frm : Option Nat) (dst p : Nat) : Nat → Prop
  | firstProductive (hfirst : (productive (s.rte dst)).find? s.usable = some p) (hocc : (s.port p).occ < s.deflAt) : s.Takes frm dst p 1
  | otherProductive (hprod : p ∈ productive (s.rte dst)) (hup : s.usable p = true) (hocc : (s.port p).occ < s.deflAt) : s.Takes frm dst p 2
  | deflection (hport : p < 48) (hfrm : some p ≠ frm) (hprod : p ∉ productive (s.rte dst)) (hup : s.usable p = true)
      (hocc : (s.port p).occ < s.deflAt) : s.Takes frm dst p 3
  | fullProductive (hprod : p ∈ productive (s.rte dst)) (hup : s.usable p = true) (hocc : (s.port p).occ < s.qCap) : s.Takes frm dst p 4

theorem leastFull_filter {occ : Nat → Nat} {f : Nat → Bool} {l : List Nat} {p : Nat} (h : leastFull occ (l.filter f) = some p) :
    p ∈ l ∧ f p = true := List.mem_filter.1 (leastFull_mem occ _ p h)

theorem State.takes_deflection {s : State} {frm : Option Nat} {dst p : Nat} {occ : Nat → Nat}
    (h : leastFull occ (((List.range 48).filter fun p => s.usable p && some p != frm && !(productive (s.rte dst)).contains p &&
      decide (s.reserved p ≤ s.pinnedMax)).filter fun p => decide ((s.port p).occ < s.deflAt)) = some p) : s.Takes frm dst p 3 := by
  obtain ⟨hmem, hocc⟩ := leastFull_filter h
  obtain ⟨hport, hcand⟩ := List.mem_filter.1 hmem
  simp only [Bool.and_eq_true, bne_iff_ne, Bool.not_eq_true', List.contains_eq_mem, decide_eq_false_iff_not] at hcand
  obtain ⟨⟨⟨hup, hfrm⟩, hprod⟩, -⟩ := hcand
  exact .deflection (List.mem_range.1 hport) hfrm hprod hup (of_decide_eq_true hocc)

/-- The deflection order takes a port by one of its four steps. -/
theorem State.choose_takes {s : State} {frm : Option Nat} {dst p step : Nat} (h : s.choose frm dst [] 0 = .put p step) :
    (s.rte dst).bit 63 = true ∧ s.Takes frm dst p step := by
  simp only [State.choose, List.contains_nil, Bool.and_false, Bool.false_and, Bool.not_false, Bool.and_true, Bool.false_eq_true, if_false] at h
  split at h
  · cases h
  next hbit =>
    refine ⟨by simpa using hbit, ?_⟩
    split at h
    next hnone =>
      split at h
      · cases h
      · split at h
        next _ hp =>
          cases h
          exact State.takes_deflection hp
        · cases h
    next first others hup =>
      have hfirst : (productive (s.rte dst)).find? s.usable = some first := by rw [← List.head?_filter, hup, List.head?_cons]
      have hothers : ∀ a ∈ others, a ∈ productive (s.rte dst) ∧ s.usable a = true := fun a ha =>
        List.mem_filter.1 (hup ▸ List.mem_cons_of_mem first ha)
      split at h
      next hocc =>
        cases h
        exact .firstProductive hfirst (of_decide_eq_true hocc)
      · split at h
        next _ hp =>
          cases h
          obtain ⟨hmem, hocc⟩ := leastFull_filter hp
          obtain ⟨hprod, hup⟩ := hothers p hmem
          exact .otherProductive hprod hup (of_decide_eq_true hocc)
        · split at h
          next _ hp =>
            cases h
            exact State.takes_deflection hp
          · split at h
            next _ hp =>
              cases h
              obtain ⟨hmem, hocc⟩ := leastFull_filter hp
              obtain ⟨hprod, hup⟩ := List.mem_filter.1 hmem
              exact .fullProductive hprod hup (of_decide_eq_true hocc)
            · cases h

/-! ## A packet leaves its queue (R184, R185, R221) -/

section Depart
variable {s r : State} {p : Nat} {q : QPkt} (hu : s.uninjected = true) (hb : s.bobUps.get .clean q.bob = .clean)
include hu hb

theorem State.depart_late (ht : s.tooOld (s.leaving q) = true) :
    s.depart p q = (none, ({ s with bobUps := s.bobUps.drop fun j => j == q.bob } : State).sat (blkR 3 0x098) 0 32 1) := by
  unfold State.depart
  rw [State.readBob_clean hu hb]
  exact if_pos ht

theorem State.depart_far (ht : s.tooOld (s.leaving q) = false) (hhops : 64 ≤ q.pkt.hops) :
    s.depart p q = (none, ({ s with bobUps := s.bobUps.drop fun j => j == q.bob } : State).sat (blkR 3 0x0A0) 0 32 1) := by
  unfold State.depart
  rw [State.readBob_clean hu hb]
  exact (if_neg (ne_true_of_eq_false ht)).trans (if_pos hhops)

theorem State.depart_hops (ht : s.tooOld (s.leaving q) = false) (hhops : q.pkt.hops < 64) :
    (s.depart p q).1 = some { s.leaving q with hops := q.pkt.hops + 1 } := by
  unfold State.depart
  rw [State.readBob_clean hu hb]
  exact congrArg Prod.fst ((if_neg (ne_true_of_eq_false ht)).trans (if_neg (Nat.not_le.2 hhops)))

/-- A packet that leaves is below the limit of its age, and its hops have advanced. -/
theorem State.depart_some {m : Pkt} (h : (s.depart p q).1 = some m) :
    s.tooOld (s.leaving q) = false ∧ q.pkt.hops < 64 ∧ m = { s.leaving q with hops := q.pkt.hops + 1 } := by
  cases ht : s.tooOld (s.leaving q) with
  | true => simp [State.depart_late hu hb ht] at h
  | false =>
    rcases Nat.lt_or_ge q.pkt.hops 64 with hhops | hhops
    · rw [State.depart_hops hu hb ht hhops] at h
      exact ⟨rfl, hhops, (Option.some.inj h).symm⟩
    · simp [State.depart_far hu hb ht hhops] at h

end Depart

/-! ## The framer asks for a packet (R206) -/

section Egress
variable {s r : State} {p n : Nat}

theorem State.egressSelect_other (hst : (s.port p).st ≠ 3) : s.egressSelect p = s := by
  simp [State.egressSelect, hst]

variable (hu : s.uninjected = true) (hst : (s.port p).st = 3) (hcore : s.coreOk = true) (hok : s.ok 4 = true)
include hu hst hcore hok

theorem State.egressSelect_sends {k : Pkt} (h : s.egress p 19 = (some k, n, r)) : s.egressSelect p = r.emit (.packet p k) := by
  simp [State.egressSelect, hst, hcore, hok, State.detect_quiet hu, h]

theorem State.egressSelect_none (h : s.egress p 19 = (none, n, r)) : s.egressSelect p = r := by
  simp [State.egressSelect, hst, hcore, hok, State.detect_quiet hu, h]

end Egress

/-- Settles O27: a head is delivered or goes where the deflection order says, and a packet leaves with its hops advanced where its age and hops allow it. -/
theorem looseHeadsAreForwarded : Obligations.LooseHeadsAreForwarded := by
  refine ⟨?_, ?_, ?_, ?_⟩
  · intro s p busy k halive hu hcore hst hk arrive
    have hh := State.hears_up hcore hst
    refine ⟨fun hd ups => ?_, fun hd => ?_, fun i g hg => ?_⟩
    · exact answers_of (exec_looseHeadArrival_eq (some p) busy k .clean ups s) halive
        (State.looseHead_here (by simpa using hu) (by simpa using hh) hk (by simpa using hd))
    · have answers {t : State} (h : (s.forward (some p.val) (busy.map Fin.val) 0 s.cclk k).2 = t) : Answers arrive s t :=
        answers_of (exec_looseHeadArrival_eq (some p) busy k .clean [] s) halive ((State.looseHead_away hu hh hk hd).trans h)
      exact ⟨fun h => answers ((State.forward_noRoute h).trans (s.noRoute_port p k)), fun h => answers (State.forward_full h),
        fun h => answers (State.forward_wait h), fun q step h st r henq => answers (by rw [State.forward_put h, henq])⟩
    · have answers {t : State} (h : s.reevaluate i (busy.map Fin.val) = t) := answers_of (exec_headReevaluate_eq i busy s) halive h
      exact ⟨fun hd => answers (State.reevaluate_here hcore hg hd),
        fun hd st w hfwd => answers ((State.reevaluate_away hcore hg hd).trans (congrArg Prod.snd hfwd))⟩
  · intro s frm dst p step h
    obtain ⟨hbit, htakes⟩ := State.choose_takes h
    refine ⟨hbit, ?_⟩
    cases htakes with
    | firstProductive hfirst hocc => simp [hfirst, hocc, List.mem_of_find?_eq_some hfirst, List.find?_some hfirst]
    | otherProductive hprod hup hocc => simp [hprod, hup, hocc]
    | deflection hport hfrm hprod hup hocc => simp [hport, hfrm, hprod, hup, hocc]
    | fullProductive hprod hup hocc => simp [hprod, hup, hocc]
  · intro s r p q k hu hb h read
    refine ⟨fun ht => ?_, fun ht hhops => ?_, fun m hm => ?_⟩
    · exact Prod.mk.inj (h.symm.trans (State.depart_late hu hb ht))
    · exact Prod.mk.inj (h.symm.trans (State.depart_far hu hb ht hhops))
    · obtain ⟨ht, hhops, rfl⟩ := State.depart_some (p := p) hu hb (by rw [h, hm])
      exact ⟨rfl, hhops, ht, rfl⟩
  · intro s r p bups n halive hu b
    have answers {t : State} (h : b.egressSelect p = t) := answers_of (exec_egressSelect_eq p bups s) halive h
    exact ⟨fun hst hcore hok => ⟨fun k h => answers (State.egressSelect_sends (s := b) hu hst hcore hok h),
      fun h => answers (State.egressSelect_none (s := b) hu hst hcore hok h)⟩, fun hst => answers (State.egressSelect_other (s := b) hst)⟩

end Sys2Proof.Machine
end

section
/-!
SUPPORT. The destination table's banks, SWC_CFG and the core's parity (chapter 08): when the banks swap and with which result, which requests are refused, and what a
parity error discards, and from it the statement about them.
-/
namespace Sys2Proof.Machine

/-! ## What each command of the core's configuration acts with -/

theorem exec_swapNow_eq (s : State) : exec .swapNow s = act s fun s => s.swapNow := rfl

theorem exec_swapAtHarvest_eq (s : State) : exec .swapAtHarvest s = act s fun s => s.swapAtHarvest := rfl

theorem exec_swapCancel_eq (s : State) : exec .swapCancel s = act s fun s => s.swapCancel := rfl

theorem exec_routeSwap_eq (s : State) : exec .routeSwap s = act s fun s => s.routeSwap := rfl

theorem exec_swapHoldTimeout_eq (s : State) : exec .swapHoldTimeout s = act s fun s => s.swapHoldTimeout := rfl

theorem exec_rteDestWrite_eq (bank : Fin 2) (d : Fin 16384) (v : W64) (s : State) :
    exec (.rteDestWrite bank d v) s = act s fun s => s.rteWrite bank d v := rfl

theorem exec_swcCfgWrite_eq (v : W64) (s : State) : exec (.swcCfgWrite v) s = act s fun s => s.swcCfg v := rfl

theorem exec_coreParity_eq (s : State) : exec .coreParity s = act s fun s => s.coreParity := rfl

/-! ## A request for a swap (R197) -/

section Request
variable {s : State} (hup : s.up 3 = true)
include hup

theorem State.swapNow_quiescent (hq : s.quiescent = true) : s.swapNow = s.swapDo := by
  simp [State.swapNow, hup, hq]

theorem State.swapNow_busy (hq : s.quiescent = false) : s.swapNow = s.flag 3 5 := by
  simp [State.swapNow, hup, hq]

theorem State.swapAtHarvest_refused (h : s.swc.pend = true ∨ (s.ctx s.swapTarget.1).st ≠ 1 ∨ s.canHarvest s.swapTarget.1 = false) :
    s.swapAtHarvest = s.flag 3 5 := by
  rcases h with h | h | h <;> simp [State.swapAtHarvest, hup, h]

/-- A request that no pending load accompanies waits for its hold. -/
theorem State.swapAtHarvest_pends (hp : s.swc.pend = false) (hc : (s.ctx s.swapTarget.1).st = 1) (hh : s.canHarvest s.swapTarget.1 = true)
    (hl : s.ld.state ≠ 2) : s.swapAtHarvest = s.modSwc fun x => { x with pend := true, heldAt := none, met := false } := by
  have hl' : (s.ld.state == 2) = false := beq_false_of_ne hl
  simp [State.swapAtHarvest, hup, hp, hc, hh, hl']

end Request

/-! ## The end of a pending swap (R197, R198) -/

section Pending
variable {s : State}

theorem State.swapCancel_idle (hp : s.swc.pend = false) : s.swapCancel = s := by
  simp [State.swapCancel, hp]

theorem State.routeSwap_waits (hh : s.holdsComplete = false) : s.routeSwap = s := by
  simp [State.routeSwap, hh]

variable (hp : s.swc.pend = true)
include hp

theorem State.swapCancel_ends (hup : s.up 3 = true) : s.swapCancel = s.swapEnd 4 := by
  simp [State.swapCancel, hup, hp]

variable (hl : s.ld.state ≠ 2)
include hl

theorem State.routeSwap_swaps (hup : s.up 3 = true) (hh : s.holdsComplete = true) : s.routeSwap = s.swapDo.releaseAll := by
  simp [State.routeSwap, hup, hp, hl, hh]

theorem State.swapHoldTimeout_ends (ha : s.swc.heldAt.isSome = true) (hh : s.holdsComplete = false) : s.swapHoldTimeout = s.swapEnd 2 := by
  simp [State.swapHoldTimeout, hp, hl, ha, hh]

end Pending

/-! ## A write of the destination table (R18, R197) -/

section Table
variable {s : State} {bank d : Nat} {v : W64}

theorem State.rteWrite_off (hd : s.domOn 1 = false) : s.rteWrite bank d v = s := by
  simp [State.rteWrite, hd]

theorem State.rteWrite_active (hb : bank = s.swc.bank) : s.rteWrite bank d v = s := by
  simp [State.rteWrite, hb]

variable (hd : s.domOn 1 = true) (hb : bank ≠ s.swc.bank)
include hd hb

theorem State.rteWrite_pending (hp : s.swc.pend = true) : s.rteWrite bank d v = s.flag 3 5 := by
  simp [State.rteWrite, hd, hb, hp]

theorem State.rteWrite_standby (hp : s.swc.pend = false) :
    s.rteWrite bank d v = s.setRg (blkR 3 ((if bank = 0 then 0x80000 else 0xA0000) + 8 * d)) (v &&& 0x8000FF0F3F3F3F3F) := by
  simp [State.rteWrite, hd, hb, hp]

end Table

/-! ## SWC_CFG (R18, R200) -/

/-- The word keeps the order of SWC_CFG: mark_thresh, deflect_thresh and q_cap rise, and q_cap lies within its range. -/
def swcCfgFits (v : W64) : Prop := 64 ≤ v.fld 32 16 ∧ v.fld 32 16 ≤ 16383 ∧ v.fld 16 16 ≤ v.fld 0 16 ∧ v.fld 0 16 ≤ v.fld 32 16

section Config
variable {s : State} {v : W64}

theorem State.swcCfg_off (hd : s.domOn 1 = false) : s.swcCfg v = s := by
  simp [State.swcCfg, hd]

variable (hd : s.domOn 1 = true)
include hd

theorem State.swcCfg_fits (h : swcCfgFits v) : s.swcCfg v = s.setRg (blkR 3 0x040) (v &&& 0x03FFFFFFFFFFFFFF) := by
  obtain ⟨hlow, hhigh, hmark, hdefl⟩ := h
  simp [State.swcCfg, hd, Nat.not_lt.2 hlow, Nat.not_lt.2 hhigh, Nat.not_lt.2 hmark, Nat.not_lt.2 hdefl]

theorem State.swcCfg_refused (h : ¬swcCfgFits v) : s.swcCfg v = s.flag 3 5 := by
  have hbad : v.fld 32 16 < 64 ∨ 16383 < v.fld 32 16 ∨ v.fld 0 16 < v.fld 16 16 ∨ v.fld 32 16 < v.fld 0 16 := by
    unfold swcCfgFits at h; omega
  simp [State.swcCfg, hd, or_assoc, hbad]

end Config

/-! ## A parity error of the core (R201) -/

theorem State.coreParity_up {s : State} (hup : s.up 3 = true) : s.coreParity = (s.flag 3 7).flushCore :=
  if_pos hup

/-- A port without the packets of its queue and the chunks of its egress buffers. -/
def Port.flushed (x : Port) : Port := { x.drained with vcs := [], tx := [], rx := [] }

theorem State.flushCore_port (s : State) (p : Nat) : s.flushCore.port p = (s.port p).flushed := by
  rcases Table.get_mapVals (fun _ => Port.flushed) {} p s.ports with h | ⟨h, hport⟩
  · exact h
  · exact h.trans (congrArg Port.flushed hport).symm

theorem Port.flushed_queues (x : Port) : ∀ n ∈ x.flushed.nodes, n.2.q = [] := by
  intro n hn
  obtain ⟨y, -, rfl⟩ := List.mem_map.1 hn
  rfl

/-- Settles O30: the banks swap, a pending swap ends and a write of the core's configuration is taken where each condition holds, and a parity error empties the core. -/
theorem coreConfiguration : Obligations.CoreConfiguration := by
  refine ⟨?_, ?_⟩
  · intro s bank d v halive hup hd c w
    have now {t : State} (h : s.swapNow = t) := answers_of (exec_swapNow_eq s) halive h
    have atHarvest {t : State} (h : s.swapAtHarvest = t) := answers_of (exec_swapAtHarvest_eq s) halive h
    have cancel {t : State} (h : s.swapCancel = t) := answers_of (exec_swapCancel_eq s) halive h
    have swap {t : State} (h : s.routeSwap = t) := answers_of (exec_routeSwap_eq s) halive h
    have timeout {t : State} (h : s.swapHoldTimeout = t) := answers_of (exec_swapHoldTimeout_eq s) halive h
    have dest {t : State} (h : s.rteWrite bank d v = t) := answers_of (exec_rteDestWrite_eq bank d v s) halive h
    exact ⟨rfl, fun hq => now (State.swapNow_quiescent hup hq), fun hq => now (State.swapNow_busy hup hq),
      fun h => atHarvest (State.swapAtHarvest_refused hup h), fun hp hc hh hl => atHarvest (State.swapAtHarvest_pends hup hp hc hh hl),
      fun hp => cancel (State.swapCancel_ends hp hup), fun hp => cancel (State.swapCancel_idle hp),
      fun hp hl hh => swap (State.routeSwap_swaps hp hl hup hh), fun hh => swap (State.routeSwap_waits hh),
      fun hp hl ha hh => timeout (State.swapHoldTimeout_ends hp hl ha hh),
      fun hb => dest (State.rteWrite_active hb), fun hb hp => dest (State.rteWrite_pending hd hb hp),
      fun hb hp => dest (State.rteWrite_standby hd hb hp)⟩
  · intro s v halive q fits
    have cfg {t : State} (h : s.swcCfg v = t) := answers_of (exec_swcCfgWrite_eq v s) halive h
    exact ⟨fun hd h => cfg (State.swcCfg_fits hd h), fun hd h => cfg (State.swcCfg_refused hd h),
      fun hd bank d => ⟨cfg (State.swcCfg_off hd), answers_of (exec_rteDestWrite_eq bank d v s) halive (State.rteWrite_off hd)⟩,
      fun hup => answers_of (exec_coreParity_eq s) halive (State.coreParity_up hup),
      fun p => by rw [State.flushCore_port]; exact ⟨Port.flushed_queues _, rfl, rfl⟩⟩

end Sys2Proof.Machine
end

section
/-!
SUPPORT. Contexts (chapter 09): with which status a request to open or to close one ends, what an accepted request does, and how the stages of a teardown follow one
another, and from it the statements about them.
-/
namespace Sys2Proof.Machine

/-! ## What each command of a context acts with -/

theorem exec_ctxOpen_eq (c : Fin 64) (g : Option (BitVec 16)) (s : State) :
    exec (.ctxOpen c g) s = act s fun s => s.ctxOpen c (g.map BitVec.toNat) := rfl

theorem exec_ctxClose_eq (c : Fin 64) (s : State) : exec (.ctxClose c) s = act s fun s => s.ctxClose c := rfl

theorem exec_teardownTimeout_eq (c : Fin 64) (s : State) : exec (.teardownTimeout c) s = act s fun s => s.teardownLate c := rfl

theorem exec_teardownStageAdvance_eq (c : Fin 64) (s : State) : exec (.teardownStageAdvance c) s = act s fun s => s.teardownNext c := rfl

/-! ## The status of a request to open (Table 9-5) -/

/-- A generation to set that does not lie 1 to 32,767 ahead of the old one. -/
def genBad (old : Nat) (setGen : Option Nat) : Bool :=
  setGen.any fun v => decide ((v + 65536 - old) % 65536 < 1) || decide (32767 < (v + 65536 - old) % 65536)

theorem genBad_iff {old : Nat} {setGen : Option Nat} :
    genBad old setGen = true ↔ ∃ v, setGen = some v ∧ ((v + 65536 - old) % 65536 < 1 ∨ 32767 < (v + 65536 - old) % 65536) := by
  simp [genBad, Option.any_eq_true]

section Open
variable {s : State} {c : Nat} {g : Option Nat}

theorem State.openStatus_noImage (h : s.inForce = none) : s.openStatus c g = 1 := by
  simp [State.openStatus, h]

variable (hforce : s.inForce.isSome = true)
include hforce

theorem State.openStatus_noEntry (h : s.ctxEntry c = none) : s.openStatus c g = 2 := by
  simp [State.openStatus, Option.isNone_eq_false_iff.2 hforce, h]

/-- The checks of a context that the image in force gives tiles, in order. -/
theorem State.openStatus_entry {priv : Bool} {tiles sub : Nat} (h : s.ctxEntry c = some (priv, tiles, sub)) :
    s.openStatus c g = if (s.ctx c).st ≠ 0 then 3 else if s.loadingBars then 4 else if genBad (s.ctx c).gen g then 5
      else if (tilesOf tiles).any s.tileDown then 6 else 0 := by
  cases g <;> simp [State.openStatus, Option.isNone_eq_false_iff.2 hforce, h, genBad]

end Open

/-! ## What a request to open or to close does (R212, R213) -/

section Request
variable {s : State} (hup : s.up 4 = true) {c : Nat}
include hup

/-- A refused request leaves its status. -/
theorem State.ctxOpen_refused {g : Option Nat} (h : s.openStatus c g ≠ 0) : s.ctxOpen c g = s.ctxResult 1 c (s.openStatus c g) := by
  unfold State.ctxOpen
  rw [hup]
  split
  · contradiction
  · split
    · contradiction
    · rfl

theorem State.ctxOpen_opens {g : Option Nat} {priv : Bool} {tiles sub : Nat} (h : s.openStatus c g = 0) (he : s.ctxEntry c = some (priv, tiles, sub)) :
    s.ctxOpen c g = (((((tilesOf tiles).foldl (fun s t => s.tileStart t c)
      (s.setCtx c { st := 1, gen := g.getD (s.ctx c).gen, tiles := tiles, priv := priv, sub := sub })).resetGroups c false).dropOrder c).ctxResult 1 c 0) := by
  simp [State.ctxOpen, hup, h, he]

theorem State.ctxClose_free (h : (s.ctx c).st = 0) : s.ctxClose c = s.ctxResult 2 c 7 := by
  simp [State.ctxClose, hup, h]

theorem State.ctxClose_open (h : (s.ctx c).st = 1) : s.ctxClose c = (s.teardown c 1).ctxResult 2 c 0 := by
  simp [State.ctxClose, hup, h]

theorem State.ctxClose_closing (h : 2 ≤ (s.ctx c).st) : s.ctxClose c = s.ctxResult 2 c 8 := by
  obtain ⟨n, hn⟩ := Nat.exists_eq_add_of_le' h
  simp [State.ctxClose, hup, hn]

end Request

/-- Settles O31: a request to open is refused with the first status of Table 9-5 that applies, and else the context opens. -/
theorem contextsOpen : Obligations.ContextsOpen := by
  intro s c g halive hup setGen res
  have answers {t : State} (h : s.ctxOpen c setGen = t) : Answers (.ctxOpen c g) s t := answers_of (exec_ctxOpen_eq c g s) halive h
  refine ⟨fun h => answers (State.ctxOpen_refused hup h), State.openStatus_noImage, State.openStatus_noEntry, ?_⟩
  intro priv tiles sub hforce hentry bad
  have hstatus := State.openStatus_entry (g := setGen) hforce hentry
  have hbad : genBad (s.ctx c).gen setGen = true ↔ bad := genBad_iff
  refine ⟨fun hst => ?_, fun hst hload => ?_, fun hst hload h => ?_, fun hst hload h hdown => ?_, fun hst hload h hdown => ?_⟩
  · rw [hstatus, if_pos hst]
  · simp [hstatus, hst, hload]
  · simp [hstatus, hst, hload, hbad.2 h]
  · simp [hstatus, hst, hload, mt hbad.1 h, List.any_eq_true.2 hdown]
  · have hnone : (tilesOf tiles).any s.tileDown = false := List.any_eq_false.2 fun t ht => by simp [hdown t ht]
    exact answers (State.ctxOpen_opens hup (by simp [hstatus, hst, hload, mt hbad.1 h, hnone]) hentry)

/-! ## A teardown past its limit (Table 9-7) -/

section Late
variable {s : State} {c : Nat}

theorem State.teardownLate_sticks (h : (s.ctx c).st = 2) :
    s.teardownLate c = (s.stageBlks c).foldl (fun s b => s.wantStep b 0)
      (((s.setCtx c { s.ctx c with st := 3 }).faultNames 4 1 c).flag 4 1 { ctx := some c }) :=
  if_pos h

theorem State.teardownLate_other (h : (s.ctx c).st ≠ 2) : s.teardownLate c = s := if_neg h

end Late

/-! ## The stages of a teardown (R215, Table 9-7) -/

section Stages
variable {s : State} {c : Nat}

theorem State.teardownNext_other (h : (s.ctx c).st ≠ 2) : s.teardownNext c = s := if_pos h

variable (hst : (s.ctx c).st = 2)
include hst

theorem State.teardownNext_stage1 (h : (s.ctx c).stage = 1) : s.teardownNext c = s.setStage c 2 := by
  simp [State.teardownNext, hst, h]

/-- The movers stop as stage 3 begins, and the collectives of the context close. -/
theorem State.teardownNext_stage2 {r : State} (h : (s.ctx c).stage = 2)
    (hr : (tilesOf (s.ctx c).tiles).foldl (fun s t => s.moversAbort t) (s.setStage c 3) = r) (hok : r.ok 5 = true) :
    s.teardownNext c = r.closeGroups c := by
  simp [State.teardownNext, hst, h, hr, hok]

theorem State.teardownNext_stage3 (h : (s.ctx c).stage = 3) (harr : s.arraysDown (s.ctx c).tiles = true)
    (hmov : ∀ t ∈ tilesOf (s.ctx c).tiles, s.ok (movBlk t) = true ∨ s.moversIdle t = true) :
    s.teardownNext c = ((tilesOf (s.ctx c).tiles).foldl (fun s t => s.moversRest t) s).setStage c 4 := by
  have hall : ((tilesOf (s.ctx c).tiles).all fun t => s.ok (movBlk t) || s.moversIdle t) = true :=
    List.all_eq_true.2 fun t ht => by simpa using hmov t ht
  simp only [State.teardownNext, hst, h, harr, hall, ne_eq, not_true_eq_false, if_false, Bool.and_self, if_true]

theorem State.teardownNext_stage4 (h : (s.ctx c).stage = 4) (hok : s.ok 5 = true) :
    s.teardownNext c = ((s.closeGroups c).setStage c 5).discardCtx c := by
  simp [State.teardownNext, hst, h, hok]

theorem State.teardownNext_stage5 (h : (s.ctx c).stage = 5) : s.teardownNext c = (s.setStage c 6).idleTiles (s.ctx c).tiles := by
  simp [State.teardownNext, hst, h]

theorem State.teardownNext_stage6 (h : (s.ctx c).stage = 6) : s.teardownNext c = s.ctxFree c := by
  simp [State.teardownNext, hst, h]

end Stages

/-- Settles O32: a request to close ends by the state of the context, a late teardown sticks, and the stages follow one another until the context is FREE. -/
theorem contextsClose : Obligations.ContextsClose := by
  refine ⟨?_, ?_⟩
  · intro s c halive hup res
    have close {t : State} (h : s.ctxClose c = t) := answers_of (exec_ctxClose_eq c s) halive h
    have late {t : State} (h : s.teardownLate c = t) := answers_of (exec_teardownTimeout_eq c s) halive h
    exact ⟨fun h => close (State.ctxClose_free hup h), fun h => close (State.ctxClose_open hup h), fun h => close (State.ctxClose_closing hup h),
      fun h => late (State.teardownLate_sticks h), fun h => late (State.teardownLate_other h)⟩
  · intro s c halive x ts at_ go v
    have next {t : State} (h : s.teardownNext c = t) : Answers go s t := answers_of (exec_teardownStageAdvance_eq c s) halive h
    exact ⟨fun h => next (State.teardownNext_other h), fun hst =>
      ⟨fun h => next (State.teardownNext_stage1 hst h), fun h hok => next (State.teardownNext_stage2 hst h rfl hok),
        fun h harr hmov => next (State.teardownNext_stage3 hst h harr hmov), fun h hok => next (State.teardownNext_stage4 hst h hok),
        fun h => next (State.teardownNext_stage5 hst h), fun h => next (State.teardownNext_stage6 hst h)⟩⟩

end Sys2Proof.Machine
end

section
/-!
SUPPORT. The scheduler's shapers and the creel (chapter 09): when a change of a shaper is taken, what a refill gives each bucket, which bobbin a request gets, and what
a parity error of either block leaves, and from it the statement about them.
-/
namespace Sys2Proof.Machine

/-! ## What each command of the scheduler and of the creel acts with -/

theorem exec_schShapeCtrl_eq (v : W64) (s : State) : exec (.schShapeCtrl v) s = act s fun s => s.shapeCtrl v := rfl

theorem exec_shaperRefill_eq (s : State) : exec .shaperRefill s = act s fun s => s.refill := rfl

theorem exec_bitmapParity_eq (s : State) : exec .bitmapParity s = act s fun s => s.bitmapParity := rfl

theorem exec_schStateParity_eq (s : State) : exec .schStateParity s = act s fun s => s.schParity := rfl

/-! ## A change of a shaper (R209) -/

section Shape
variable {s : State} {v : W64} (hon : s.domOn 1 = true)
include hon

theorem State.shapeCtrl_noNode (h : s.nodeCfgs[v.fld 48 10]? = none) : s.shapeCtrl v = s.flag 4 0 := by
  simp [State.shapeCtrl, hon, h]

variable {c : NodeCfg} (hc : s.nodeCfgs[v.fld 48 10]? = some c)
include hc

theorem State.shapeCtrl_taken (hadj : c.adj = true) (hrate : v.fld 32 16 ≠ 0) (hmax : v.fld 32 16 ≤ c.rate) (hlow : 320 ≤ v.fld 0 24)
    (hhigh : v.fld 0 24 ≤ c.burst) : s.shapeCtrl v = { s with newShapes := s.newShapes.set (v.fld 48 10) (v.fld 32 16, v.fld 0 24) } := by
  simp [State.shapeCtrl, hon, hc, hadj, hrate, Nat.not_lt.2 hmax, Nat.not_lt.2 hlow, Nat.not_lt.2 hhigh]

theorem State.shapeCtrl_refused
    (h : c.adj = false ∨ v.fld 32 16 = 0 ∨ c.rate < v.fld 32 16 ∨ v.fld 0 24 < 320 ∨ c.burst < v.fld 0 24) : s.shapeCtrl v = s.flag 4 0 := by
  simp [State.shapeCtrl, hon, hc, or_assoc, h]

end Shape

/-! ## A refill (R208) -/

/-- A port whose buckets a refill has filled. -/
def State.refilled (s : State) (x : Port) : Port := { x with nodes := x.nodes.map fun n => (n.1, stepFn s n.1 n.2) }

/-- With no change of a shaper pending, a refill fills the buckets of every port and does nothing else. -/
theorem State.refill_unchanged {s : State} (h : s.newShapes = []) : s.refill = { s with ports := s.ports.map fun x => (x.1, s.refilled x.2) } := by
  have hs : ({ s with newShapes := [] } : State) = s := by rw [← h]
  have hnone : ((List.range 48).flatMap fun _ => ([] : List (Nat × Nat))) = [] := List.flatMap_eq_nil_iff.2 fun _ _ => rfl
  simp only [State.refill, h, List.map_nil, hnone, List.foldl_nil, hs]
  rfl

/-- A bucket of a configured node gains its tokens, up to its burst. -/
theorem stepFn_used {s : State} {n : Nat} {c : NodeCfg} (hc : s.nodeCfgs[n]? = some c) {x : Node} (hx : x.used ≤ (s.shape n c).2) :
    (stepFn s n x).used = x.used - 5 * (s.shape n c).1 * max 1 ((s.rg (blkR 4 0x040)).fld 0 5) := by
  have hburst : ((s.shapes.find n).getD (c.rate, c.burst)).2 = (s.shape n c).2 := rfl
  simp only [stepFn, hc, hburst]
  omega

/-- The record of a node after a refill of its port; a node that is not listed has no tokens out. -/
theorem State.refilled_node (s : State) (x : Port) {k : Nat} {c : NodeCfg} (hc : s.nodeCfgs[k]? = some c) (hx : (x.nodes.get {} k).used ≤ (s.shape k c).2) :
    ((s.refilled x).nodes.get {} k).used = (x.nodes.get {} k).used - 5 * (s.shape k c).1 * max 1 ((s.rg (blkR 4 0x040)).fld 0 5) := by
  rcases Table.get_mapVals (stepFn s) {} k x.nodes with h | ⟨h, hnode⟩
  · exact (congrArg Node.used h).trans (stepFn_used hc hx)
  · rw [State.refilled, h, hnode]; exact (Nat.zero_sub _).symm

theorem State.refill_port {s : State} (h : s.newShapes = []) (p : Nat) : s.refill.port p = s.refilled (s.port p) := by
  rw [State.refill_unchanged h]
  rcases Table.get_mapVals (fun _ => s.refilled) {} p s.ports with hp | ⟨hp, hport⟩
  · exact hp
  · exact hp.trans (congrArg s.refilled hport).symm

/-! ## The bobbin of a request (R218, R219, R221) -/

/-- The search for a free number finds one: a list does not hold more numbers than it is long. -/
theorem lowestFree_not_mem (busy : List Nat) : lowestFree busy busy.length 0 ∉ busy := by
  rcases lowestFree_free busy busy.length 0 with h | ⟨hlast, hbelow⟩
  · exact h
  · intro hmem
    have hsub : List.range (busy.length + 1) ⊆ busy := fun i hi => by
      rcases Nat.lt_succ_iff_lt_or_eq.1 (List.mem_range.1 hi) with hlt | rfl
      · exact hbelow i (Nat.zero_le i) (by omega)
      · rwa [hlast, Nat.zero_add] at hmem
    have hlen := (List.nodup_range.subperm hsub).length_le
    simp at hlen

section Bobbin
variable {s : State} (hu : s.uninjected = true) {k : Nat}
include hu

theorem State.bobTake_bad (hbad : s.bitmapBad = true) : s.bobTake k = (stPool, 0, s.sat (blkR 6 (0x1C0 + 8 * k)) 32 32 1) := by
  simp [State.bobTake, State.detect_quiet hu, hbad]

/-- A bobbin is granted within the quota of its class, and is the lowest that nothing holds. -/
theorem State.bobTake_granted {b : Nat} {r : State} (h : s.bobTake k = (0, b, r)) :
    s.bobUsed k < s.quota k ∧ b = lowestFree s.bobBusy s.bobBusy.length 0 := by
  unfold State.bobTake at h
  rw [State.detect_quiet hu] at h
  simp only [Bool.false_eq_true, if_false] at h
  split at h
  · cases h
  · split at h
    · cases h
    · rename_i hquota
      split at h
      · cases h
      · exact ⟨Nat.not_le.1 hquota, (Prod.mk.inj (Prod.mk.inj h).2).1.symm⟩

end Bobbin

/-! ## Parity errors (R221, R222) -/

theorem State.bitmapParity_up {s : State} (hup : s.up 6 = true) : s.bitmapParity = { s.flag 6 3 with bitmapBad := true } := if_pos hup

theorem State.schParity_up {s : State} (hup : s.up 4 = true) : s.schParity = (s.flag 4 2).dropQueues := if_pos hup

theorem Port.drained_held (x : Port) : x.drained.held = [] := by
  simp only [Port.held, Port.drained, List.flatMap_map, Option.toList_none, List.append_nil]
  exact List.flatMap_eq_nil_iff.2 fun _ _ => rfl

theorem State.dropQueues_held (s : State) (p : Nat) : (s.dropQueues.port p).held = [] := by
  rcases Table.get_mapVals (fun _ => Port.drained) {} p s.ports with h | ⟨h, -⟩
  · exact (congrArg Port.held h).trans (Port.drained_held _)
  · exact congrArg Port.held h

/-- Settles O33: a shaper takes a change within its limits and refills its buckets, a bobbin is granted within a quota, and a parity error of either block shuts it. -/
theorem shapersAndCreel : Obligations.ShapersAndCreel := by
  refine ⟨?_, ?_⟩
  · intro s v halive hon n rate burst
    have shape {t : State} (h : s.shapeCtrl v = t) : Answers (.schShapeCtrl v) s t := answers_of (exec_schShapeCtrl_eq v s) halive h
    refine ⟨fun c hc => ⟨fun hadj hrate hmax hlow hhigh => shape (State.shapeCtrl_taken hon hc hadj hrate hmax hlow hhigh),
      fun h => shape (State.shapeCtrl_refused hon hc h)⟩, fun h => shape (State.shapeCtrl_noNode hon h),
      s.refill, answers_of (exec_shaperRefill_eq s) halive rfl, fun h p k c hc hused => ?_⟩
    rw [State.refill_port h]
    exact s.refilled_node _ hc hused
  · intro s halive
    refine ⟨fun hup => answers_of (exec_bitmapParity_eq s) halive (State.bitmapParity_up hup), fun k hu hbad => State.bobTake_bad hu hbad, fun k b r hu h => ?_,
      fun hup => ⟨_, answers_of (exec_schStateParity_eq s) halive (State.schParity_up hup), State.dropQueues_held _⟩⟩
    obtain ⟨hquota, rfl⟩ := State.bobTake_granted hu h
    exact ⟨hquota, lowestFree_not_mem _⟩

end Sys2Proof.Machine
end

section
/-!
SUPPORT. The packets of the collective engine (chapters 09, 10 and 13): the checks that each meets on its way to its collective, and what it does there, and from it the
statement about them.
-/
namespace Sys2Proof.Machine

/-! ## What each packet acts with -/

/-- The commands by which a packet of the engine arrives, each with the subtype that it names (Tables 10-6 and 11-3). -/
def engineArrivals (k : Pkt) : List (Nat × Instr) :=
  [(0, .a2aDataArrival k), (1, .a2aDoneArrival k), (2, .countsArrival k), (3, .creditArrival k), (4, .abortArrival k),
    (5, .treeDoneArrival k), (6, .confirmArrival k), (7, .retractArrival k), (8, .resendArrival k), (9, .acceptArrival k)]

theorem exec_engineArrival_eq (k : Pkt) (s : State) :
    ∀ ni ∈ engineArrivals k, exec ni.2 s = act s fun s => s.arrives k (k.kind == 6 && k.sub == ni.1) := by
  simp only [engineArrivals, List.forall_mem_cons]
  exact ⟨rfl, rfl, rfl, rfl, rfl, rfl, rfl, rfl, rfl, rfl, List.forall_mem_nil _⟩

/-! ## Local delivery (R176, R177) -/

section Delivery
variable {s : State} {k : Pkt} {n : Nat} (hcore : s.coreOk = true) (hk : k.kind = 6) (hdst : k.dst = s.chip) (hsub : k.sub = n)
include hcore hk hdst hsub

theorem State.arrives_damaged (hpkt : pktOk k = false) : s.arrives k (k.kind == 6 && k.sub == n) = s.fwd.sat (blkR 3 0x0C0) 0 32 1 := by
  simp [State.arrives, State.deliver, hcore, hk, hdst, hsub, hpkt]

theorem State.arrives_engine (hpkt : pktOk k = true) : s.arrives k (k.kind == 6 && k.sub == n) = s.fwd.engine k := by
  simp [State.arrives, State.deliver, hcore, hk, hdst, hsub, hpkt]

end Delivery

@[simp] theorem State.fwd_grpCfg (s : State) (g : Nat) : s.fwd.grpCfg g = s.grpCfg g := rfl

@[simp] theorem State.fwd_inst (s : State) (g q : Nat) : s.fwd.inst g q = s.inst g q := rfl

@[simp] theorem State.progress_inst (s : State) (b g q : Nat) : (s.progress b).inst g q = s.inst g q := rfl

/-! ## The checks at the engine, in order (R214, R234, R297 to R300) -/

section Checks
variable {s : State} {k : Pkt} {c : GrpCfg} (hg : s.grpCfg k.group = some c) (htree : c.treeOnly = false) (hok : s.ok 5 = true)
include hg htree hok

/-- A packet of another generation. -/
theorem State.engine_stale (h : s.stale k.ctx k.gen = true) : s.engine k = s.sat (blkR 4 0x078) 0 32 1 := by
  simp [State.engine, hg, htree, hok, h, State.countStale]

variable (hstale : s.stale k.ctx k.gen = false)
include hstale

/-- A packet of a later harvest. -/
theorem State.engine_early (h : harvestOrder k.harvest (s.ctx k.ctx).harvest = 1) : s.engine k = s.sat (devR 0x110) 0 32 1 := by
  simp [State.engine, hg, htree, hok, hstale, h, State.countEarly]

/-- A packet of an earlier harvest. -/
theorem State.engine_late (h : harvestOrder k.harvest (s.ctx k.ctx).harvest = 2) : s.engine k = s.latePkt c k := by
  simp [State.engine, hg, htree, hok, hstale, h]

/-- A packet of the current harvest for a collective that is held. -/
theorem State.engine_live (h : harvestOrder k.harvest (s.ctx k.ctx).harvest = 0) {i : Inst} (hi : s.inst k.group k.gseq = some i) :
    s.engine k = (s.progress 5).engineTake c k i := by
  have hwin : (s.progress 5).win k.group k.gseq = .live := by simp [State.win, hi]
  simp [State.engine, hg, htree, hok, hstale, h, hwin, hi]

end Checks

/-! ## What a packet does in its collective -/

@[simp] theorem State.setInst_inst (s : State) (g q : Nat) (i : Inst) : (s.setInst g q i).inst g q = some i := Table.find_set_self _ _ _

theorem State.modInst_held {s : State} {g q : Nat} {i : Inst} (h : s.inst g q = some i) (f : Inst → Inst) : s.modInst g q f = s.setInst g q (f i) := by
  simp only [State.modInst, h]

section Take
variable {s : State} {c : GrpCfg} {k : Pkt} {i : Inst} (hk : k.kind = 6) (hi : s.inst k.group k.gseq = some i)
include hk hi

/-- CREDIT (R234). -/
theorem State.engineTake_credit (hsub : k.sub = 3) :
    s.engineTake c k i = (List.range i.slots.length).foldl (fun s n =>
      if (s.slot k.group k.gseq n).wait.isEmpty then s else s.sendOut c k.group k.gseq n [])
        (s.setInst k.group k.gseq { i with credit := max i.credit k.value }) := by
  simp [State.engineTake, hk, hsub, State.creditPkt, State.modInst_held hi]

/-- ABORT goes on round the ring, up to the predecessor of the member that it names (R238). -/
theorem State.engineTake_abort (hsub : k.sub = 4) :
    s.engineTake c k i = if c.succ = k.value then s.failInst k.group k.gseq 5 k.value
      else (s.failInst k.group k.gseq 5 k.value).sendAbort c k.group k.gseq k.stat k.value := by
  simp [State.engineTake, hk, hsub, State.abortPkt, hi]

/-- TREE_DONE (R240). -/
theorem State.engineTake_treeDone (hsub : k.sub = 5) (h : i.answered.contains k.srcMember = false) :
    s.engineTake c k i = s.setInst k.group k.gseq { i with answered := k.srcMember :: i.answered } := by
  simp only [State.engineTake, hk, hsub, State.modInst_held hi, h]
  rfl

/-- A2A_DONE frees the staging of the member that answered (R241). -/
theorem State.engineTake_a2aDone (hsub : k.sub = 1) (h : i.dstDone.contains k.srcMember = false) :
    s.engineTake c k i = s.setInst k.group k.gseq { i with dstDone := k.srcMember :: i.dstDone, staged := i.staged.drop (· == k.srcMember) } := by
  simp only [State.engineTake, hk, hsub, State.modInst_held hi, h]
  rfl

omit hi in
/-- COUNTS (R241). -/
theorem State.engineTake_counts (hsub : k.sub = 2) (hlow : k.value ≤ c.my) (hhigh : c.my < k.value + k.data.length / 4)
    (h : i.counts.find k.srcMember = none) :
    s.engineTake c k i = (s.a2aCount c k.group k.gseq k.srcMember (u k.data (4 * (c.my - k.value)) 4)).a2aMove k.group k.gseq := by
  simp [State.engineTake, hk, hsub, hlow, hhigh, h]

omit hi in
/-- Data of a padded all-to-all: its source hears once all of it is held (R241). -/
theorem State.engineTake_data {w : State} {j : Inst} (hsub : k.sub = 0) (hop : i.op = 6) (hstart : (i.startOf 2).isSome = true)
    (hw : s.a2aTake c k.group k.gseq k.srcMember k.value k.total k.data = w) (hj : w.inst k.group k.gseq = some j) :
    s.engineTake c k i = if j.srcDone.contains k.srcMember then
      w.toMember c k.group k.gseq k.srcMember { kind := 6, service := 2, sub := 1, value := k.total } else w := by
  simp [State.engineTake, hk, hsub, hop, Option.isNone_eq_false_iff.2 hstart, hw, hj]

end Take

/-- Settles O34: a packet of the engine meets its checks in order, and one that passes them acts in its collective as its subtype says. -/
theorem collectivePackets : Obligations.CollectivePackets := by
  refine ⟨?_, ?_⟩
  · intro s k c halive hcore hk hdst hg htree f hok ni hni hsub
    have answers {t : State} (h : s.arrives k (k.kind == 6 && k.sub == ni.1) = t) : Answers ni.2 s t :=
      answers_of (exec_engineArrival_eq k s ni hni) halive h
    have engine {t : State} (hpkt : pktOk k = true) (h : f.engine k = t) : Answers ni.2 s t :=
      answers ((State.arrives_engine hcore hk hdst hsub hpkt).trans h)
    exact ⟨fun hpkt => answers (State.arrives_damaged hcore hk hdst hsub hpkt),
      fun hpkt h => engine hpkt (State.engine_stale hg htree hok h),
      fun hpkt hstale h => engine hpkt (State.engine_early hg htree hok hstale h),
      fun hpkt hstale h => engine hpkt (State.engine_late hg htree hok hstale h)⟩
  · intro s k c i halive hcore hk hdst hpkt hg htree hok hstale hharvest hi r g q
    have answers {ci : Instr} {n : Nat} {t : State} (hsub : k.sub = n) (hci : exec ci s = act s fun s => s.arrives k (k.kind == 6 && k.sub == n))
        (h : r.engineTake c k i = t) : Answers ci s t :=
      answers_of hci halive ((State.arrives_engine hcore hk hdst hsub hpkt).trans ((State.engine_live (s := s.fwd) hg htree hok hstale hharvest hi).trans h))
    have hr : r.inst g q = some i := hi
    refine ⟨fun hsub => answers hsub rfl (State.engineTake_credit hk hr hsub),
      fun hsub h => answers hsub rfl ((State.engineTake_abort hk hr hsub).trans (if_neg h)),
      fun hsub h => answers hsub rfl ((State.engineTake_abort hk hr hsub).trans (if_pos h)),
      fun hsub h => answers hsub rfl (State.engineTake_treeDone hk hr hsub h),
      fun hsub h => answers hsub rfl (State.engineTake_a2aDone hk hr hsub h),
      fun hsub hlow hhigh h => answers hsub rfl (State.engineTake_counts hk hsub hlow hhigh h), fun hsub hop hstart w j hw hj => ?_⟩
    have data := State.engineTake_data hk hsub hop hstart hw hj
    exact ⟨fun h => answers hsub rfl (data.trans (if_pos h)), fun h => answers hsub rfl (data.trans (if_neg (by rw [h]; exact Bool.false_ne_true)))⟩

end Sys2Proof.Machine
end

section
/-!
SUPPORT. Chunks between the tiles and the engine (chapters 03 and 10): the pull of a local chunk, the credit that is sent again, and the chunk that a tile's EXPECT
takes; and from them the statement about them.
-/
namespace Sys2Proof.Machine

/-! ## What an upset leaves -/

section Upset
variable (s : State) (l : Upsets)

@[simp] theorem State.upset_grpCfg (g : Nat) : (s.upset l).grpCfg g = s.grpCfg g := State.upset_keeps (·.grpCfg g) (fun _ _ => rfl) s l

@[simp] theorem State.upset_inst (g q : Nat) : (s.upset l).inst g q = s.inst g q := State.upset_keeps (·.inst g q) (fun _ _ => rfl) s l

@[simp] theorem State.upset_tile (t : Nat) : (s.upset l).tile t = s.tile t := State.upset_keeps (·.tile t) (fun _ _ => rfl) s l

@[simp] theorem State.upset_contributors (c : GrpCfg) (g : Nat) (i : Inst) : (s.upset l).contributors c g i = s.contributors c g i :=
  State.upset_keeps (·.contributors c g i) (fun _ _ => rfl) s l

@[simp] theorem State.upset_contributed (c : GrpCfg) (g : Nat) (i : Inst) : (s.upset l).contributed c g i = s.contributed c g i :=
  State.upset_keeps (·.contributed c g i) (fun _ _ => rfl) s l

@[simp] theorem State.upset_deterministic : (s.upset l).deterministic = s.deterministic := State.upset_keeps (·.deterministic) (fun _ _ => rfl) s l

end Upset

/-! ## CHUNK_PULL (R232) -/

/-- Broadcasts and all-to-alls go round no ring (R227). -/
theorem Inst.ring_iff {i : Inst} : (!(i.op == 5 || i.op == 6 || i.op == 7)) = true ↔ i.op < 5 ∨ 7 < i.op := by
  simp only [Bool.not_eq_true', Bool.or_eq_false_iff, beq_eq_false_iff_ne]
  omega

/-- Where no word and no link fails, the chunk comes if the link of every contributing tile is up. -/
theorem State.pullEvent_clean {s : State} (hu : s.uninjected = true) (c : GrpCfg) (g q : Nat) (tiles : List Nat) :
    s.pullEvent c g q tiles .clean = (tiles.all fun t => (s.tile t).linkUp, s) := by
  have off (ev : PanEv) (h : ev ≠ .clean) : (PanEv.clean == ev) = false := by simpa using h.symm
  simp [State.pullEvent, off, State.detect_quiet hu]

section Pull
variable {s : State} {g q : Nat} {c : GrpCfg} {i : Inst} (hg : s.grpCfg g = some c) (hi : s.inst g q = some i)
include hg hi

theorem State.chunkPull_none (h : i.nextPull c i.chunks = none) (order : List Nat) (ev : PanEv) : s.chunkPull g q order ev = s := by
  simp [State.chunkPull, hg, hi, h]

/-- The chunk of a reduce traversal enters the slot that waits for it, and the slot goes on where the pan lets it. -/
theorem State.chunkPull_enters {order : List Nat} {ev : PanEv} {n k h : Nat} {bs : List (List Byte)} {r w : State} (hok : s.ok 5 = true)
    (hpan : s.ok (10 + c.quad) = true) (hring : i.op < 5 ∨ i.op = 8) (hall : s.contributed c g i = true)
    (hnext : i.nextPull c i.chunks = some (n, none)) (hev : s.pullEvent c g q (s.contributors c g i) ev = (true, s))
    (hkey : (i.slots.getD n {}).key = some (k, h, false))
    (hbs : s.contributions i k (combineOrder s.deterministic order (s.contributors c g i)) = (some bs, r))
    (hgo : ((r.enterLocal c g q n i bs).pulledOne c g q i.chunks).panEvent c g q n ev = (true, w)) :
    s.chunkPull g q order ev = w.pump g q n := by
  have hop : (!(i.op == 5 || i.op == 6 || i.op == 7)) = true := Inst.ring_iff.2 (by omega)
  simp only [State.chunkPull, hg, hi, hok, hpan, hop, hall, hnext, hev, hkey, Option.getD_some, hbs, hgo, Bool.not_true,
    Bool.or_false, Bool.false_eq_true, if_false]

end Pull

/-! ## CREDIT_REPEAT (R234) -/

section Credit
variable {s : State} {g q : Nat} {c : GrpCfg} {i : Inst} (hi : s.inst g q = some i)
include hi

theorem State.creditRepeat_full (h : i.emptySlot = none) : s.creditRepeat g q = s := by
  simp [State.creditRepeat, hi, h]

theorem State.creditRepeat_sends (hg : s.grpCfg g = some c) (h : i.emptySlot.isSome = true) (hn : 2 ≤ c.n) :
    s.creditRepeat g q = (s.wrap (blkR 5 0x078) 48 1).toMember c g q c.pred { kind := 6, service := 2, sub := 3, value := i.freed } := by
  simp [State.creditRepeat, State.sendCredit, hi, hg, h, Nat.not_lt.2 hn]

end Credit

/-! ## EXPECT_CHUNK_WRITTEN (R63) -/

/-- A chunk whose write succeeds is noted in its slots and in its collective, the entry counts down, and the slots that owe nothing more are freed. -/
theorem State.chunkWritten_saved {s r : State} {t g q k : Nat} {c : GrpCfg} {i : Inst} {e : Expect} {bs : List Byte} {slots : List Nat}
    (hg : s.grpCfg g = some c) (hi : s.inst g q = some i) (he : ((s.tile t).expects.find? fun e => e.group == g && e.seq == q) = some e)
    (hlink : (s.tile t).linkUp = true) (hdue : i.deliverable t = some (k, bs, slots))
    (hcry : ((i.starts.find? fun st => st.tile == t && st.kind == 2).bind fun st => if i.op = 1 then st.cry else none) = none)
    (hsave : s.tileSave t (u e.bytes 0x10 8 + (k - (expectOf c i.op i.fmt { tile := t, kind := 2, bytes := e.bytes, tally := 255 }).1) * 4096)
      (bs.take (colBytes i.op i.fmt (u e.bytes 0x0C 4) k)) = (0, r)) :
    s.chunkWritten t g q = slots.foldl (fun s n => s.releaseSlot g q n)
      (((slots.foldl (fun s n => s.modSlot g q n fun y => { y with writtenBy := t :: y.writtenBy }) r).modInst g q
        fun i => { i with delivered := i.delivered + 1 }).expectOne t g q) := by
  simp only [State.chunkWritten, hg, hi, he, hlink, if_true, hdue, hcry, hsave, ne_eq, not_true_eq_false, if_false]

/-! ## The statement -/

/-- Settles O35: a chunk is pulled into the slot that waits for it, a free slot's credit is sent again, and a confirmed chunk goes where the tile's EXPECT says. -/
theorem chunksArePulledAndWritten : Obligations.ChunksArePulledAndWritten := by
  intro s g q order ups c i halive hu hg hi chunks tiles
  have pull {ev : PanEv} {t : State} (h : (s.upset ups).chunkPull g q.toNat (order.map Fin.val) ev = t) : Answers (.chunkPull g q order ev ups) s t :=
    answers_of (f := fun s => (s.upset ups).chunkPull g q.toNat (order.map Fin.val) ev) rfl halive h
  have credit {t : State} (h : s.creditRepeat g q.toNat = t) : Answers (.creditRepeat g q) s t :=
    answers_of (f := fun s => s.creditRepeat g q.toNat) rfl halive h
  have hug : (s.upset ups).grpCfg g = some c := by simpa using hg
  have hui : (s.upset ups).inst g q.toNat = some i := by simpa using hi
  refine ⟨?_, fun h => pull (State.chunkPull_none hug hui h _ _), fun h hn => credit (State.creditRepeat_sends hi hg h hn),
    fun h => credit (State.creditRepeat_full hi h), ?_⟩
  · intro n k h bs r hok hpan hring hall hlink hnext hkey hbs w hgo
    have hev : (s.upset ups).pullEvent c g q.toNat ((s.upset ups).contributors c g i) .clean = (true, s.upset ups) := by
      simpa [State.pullEvent_clean (s := s.upset ups) (by simpa using hu)] using hlink
    exact pull (State.chunkPull_enters hug hui (by simpa using hok) (by simpa using hpan) hring (by simpa using hall) hnext hev hkey
      (by simpa using hbs) hgo)
  · intro t e k bs slots r he hlink hdue hcry first hsave w
    exact answers_of (f := fun s => s.chunkWritten t g q.toNat) rfl halive (State.chunkWritten_saved hg hi he hlink hdue hcry hsave)

end Sys2Proof.Machine
end

section
/-!
SUPPORT. The end of a collective (chapter 10): its completion, its timeouts and resends, and the parity error of the engine; and from them the statement about them.
-/
namespace Sys2Proof.Machine

/-! ## INSTANCE_COMPLETE (R242) -/

section Complete
variable {s : State} {g q : Nat} {c : GrpCfg} {i : Inst} (hg : s.grpCfg g = some c) (hi : s.inst g q = some i)
include hg hi

/-- A collective of a ring ends where it has contributed and received everything and its slots have been freed. -/
theorem State.instComplete_ring (hring : i.op < 5 ∨ i.op = 8) :
    s.instComplete g q = if s.contributed c g i = true ∧ s.received c g q i = true ∧ i.toFree c i.chunks ≤ i.freed
      then s.doneInst g q 0 (i.slow.getD c.my) i.slowWait 0 else s := by
  simp only [State.instComplete, hg, hi]
  split
  case h_1 h => omega
  case h_2 h => omega
  case h_3 h => omega
  case h_4 => simp only [Bool.and_eq_true, decide_eq_true_eq, and_assoc]

theorem State.doneInst_held (status named wait count : Nat) :
    s.doneInst g q status named wait count =
      let r := ({ s with insts := s.insts.drop (· == instKey g q) }).modGrp g fun x => x.end_ q
      let w := ((r.wrap (blkR 5 0x060) 48 1).progress 5).colStats c g q i.slowWait i.slow
      let z := w.writeRecords (w.colRecord c g q i status named wait count) i.starts
      i.starts.foldl (fun s st => s.cryHears i status st) (i.starts.foldl (fun s st => if st.rest then s.opDone st.tile st.tally else s) z) := by
  simp only [State.doneInst, hg, hi]

end Complete

/-! ## COLL_TIMEOUT (R237) -/

theorem Table.mem_of_find {α : Type} {m : Table α} {k : Nat} {v : α} (h : m.find k = some v) : (k, v) ∈ m := by
  induction m with
  | nil => simp [Table.find] at h
  | cons x m ih =>
    simp only [Table.find] at h
    split at h
    case isTrue hk =>
      obtain rfl := hk
      obtain rfl := Option.some.inj h
      exact List.mem_cons_self
    case isFalse => exact List.mem_cons_of_mem _ (ih h)

/-- A group whose collective is found holds one. -/
theorem State.instsOf_held {s : State} {g q : Nat} {i : Inst} (hq : q < 65536) (hi : s.inst g q = some i) : (s.instsOf (· == g)).isEmpty = false := by
  have hkey : instKey g q / 65536 = g := by unfold instKey; omega
  rw [List.isEmpty_eq_false_iff_exists_mem]
  exact ⟨_, List.mem_map_of_mem (List.mem_filter.2 ⟨Table.mem_of_find hi, by simp [hkey]⟩)⟩

/-- A collective waits for this member: a start of its own is missing, or a chunk of its own can be pulled. -/
def State.waitsHere (s : State) (c : GrpCfg) (g : Nat) (i : Inst) : Prop :=
  s.startsMissing c g i = true ∨ ((i.op < 5 ∨ 7 < i.op) ∧ (i.nextPull c i.chunks).isSome = true)

theorem State.waitsHere_iff {s : State} {c : GrpCfg} {g : Nat} {i : Inst} : s.waitsHere c g i ↔
    (s.startsMissing c g i || (!(i.op == 5 || i.op == 6 || i.op == 7) && (i.nextPull c i.chunks).isSome)) = true := by
  rw [State.waitsHere, Bool.or_eq_true, Bool.and_eq_true, Inst.ring_iff]

section Timeout
variable {s : State} {g : Nat} {c : GrpCfg} {i : Inst} (hg : s.grpCfg g = some c)
include hg

section Held
variable (hi : s.inst g (s.grp g).base = some i)
include hi

theorem State.collTimeout_here (h : s.waitsHere c g i) :
    s.collTimeout g = (s.colFlag 4 c g (s.grp g).base 4 c.my).failInst g (s.grp g).base 4 c.my := by
  simp only [State.collTimeout, hg, hi, State.waitsHere_iff.1 h, Bool.true_or, if_true]

theorem State.collTimeout_pred (h : ¬s.waitsHere c g i) (hn : 2 ≤ c.n) :
    s.collTimeout g = (s.colFlag 4 c g (s.grp g).base 4 c.pred).failInst g (s.grp g).base 4 c.pred := by
  simp only [State.collTimeout, hg, hi, Bool.eq_false_iff.2 (mt State.waitsHere_iff.2 h), Nat.not_lt.2 hn, decide_false, Bool.or_false, Bool.false_eq_true, if_false]

end Held

/-- The base sequence number has no collective here, but a later one does. -/
theorem State.collTimeout_pending {q : Nat} {j : Inst} (hbase : s.inst g (s.grp g).base = none) (hq : q < 65536) (hj : s.inst g q = some j)
    (hctx : s.closing c.ctx = false) :
    s.collTimeout g = ((s.colFlag 4 c g (s.grp g).base 4 c.my).modGrp g fun x => x.end_ (s.grp g).base).createFails c g (s.grp g).base 4 := by
  have hopen : (s.colFlag 4 c g (s.grp g).base 4 c.my).closing c.ctx = false := by simpa [State.colFlag, State.closing] using hctx
  simp only [State.collTimeout, hg, hbase, State.instsOf_held hq hj, hopen, Bool.false_eq_true, if_false]

end Timeout

/-! ## BROADCAST_RTO (R240) -/

/-- The members whose answer the root of a broadcast still waits for. -/
def Inst.silent (i : Inst) (c : GrpCfg) : List Nat := (List.range c.n).filter fun m => m != c.my && !i.fenced.contains m && !i.answered.contains m

/-- The command acts at the root of a broadcast that has started. -/
theorem Inst.broadcasts {i : Inst} {c : GrpCfg} (hop : i.op = 5) (hroot : c.root = c.my) (hstart : (i.startOf 1).isSome = true) :
    (decide (i.op ≠ 5) || decide (c.root ≠ c.my) || (i.startOf 1).isNone) = false := by
  simp [hop, hroot, Option.isNone_eq_false_iff.2 hstart]

section Broadcast
variable {s : State} {g q : Nat} {c : GrpCfg} {i : Inst} (hg : s.grpCfg g = some c) (hi : s.inst g q = some i) (hop : i.op = 5) (hroot : c.root = c.my)
  (hstart : (i.startOf 1).isSome = true)
include hg hi hop hroot hstart

theorem State.broadcastRto_answered (h : i.silent c = []) : s.broadcastRto g q = s := by
  rw [Inst.silent] at h
  simp only [State.broadcastRto, hg, hi, Inst.broadcasts hop hroot hstart, Bool.false_eq_true, if_false, h]

theorem State.broadcastRto_resends (h : i.silent c ≠ []) (hmax : i.resends < s.resendMax) :
    s.broadcastRto g q = ((s.sat (blkR 5 0x080) 0 32 1).setInst g q { i with resends := i.resends + 1 }).broadcast g q := by
  obtain ⟨m, ms, h⟩ := List.exists_cons_of_ne_nil h
  have hs : (s.sat (blkR 5 0x080) 0 32 1).inst g q = some i := hi
  rw [Inst.silent] at h
  simp only [State.broadcastRto, hg, hi, Inst.broadcasts hop hroot hstart, Bool.false_eq_true, if_false, h, hmax, if_true, State.modInst_held hs]

theorem State.broadcastRto_fails {m : Nat} {ms : List Nat} (h : i.silent c = m :: ms) (hmax : s.resendMax ≤ i.resends) :
    s.broadcastRto g q = (s.colFlag 4 c g q 4 m).failInst g q 4 m := by
  rw [Inst.silent] at h
  simp only [State.broadcastRto, hg, hi, Inst.broadcasts hop hroot hstart, Bool.false_eq_true, if_false, h, Nat.not_lt.2 hmax]

end Broadcast

/-! ## A2A_RTO (R241) -/

/-- The command acts for another member that has not answered yet. -/
theorem Inst.a2aOpen {i : Inst} {c : GrpCfg} {m : Nat} (hop : i.op = 6) (hm : m < c.n) (hmy : m ≠ c.my) (hdone : i.dstDone.contains m = false) :
    (!(i.op == 6 || i.op == 7) || decide (c.n ≤ m) || decide (m = c.my) || i.dstDone.contains m) = false := by
  simp only [hop, Nat.not_le.2 hm, hmy, hdone]
  rfl

section AllToAll
variable {s : State} {g q m : Nat} {c : GrpCfg} {i : Inst} {st : Start} (hg : s.grpCfg g = some c) (hi : s.inst g q = some i) (hop : i.op = 6)
  (hstart : i.startOf 1 = some st) (hm : m < c.n) (hmy : m ≠ c.my) (hdone : i.dstDone.contains m = false)
include hg hi hop hstart hm hmy hdone

theorem State.a2aRto_fails (hmax : s.resendMax ≤ i.dstTries.get 0 m) : s.a2aRto g q m = (s.colFlag 4 c g q 4 m).failInst g q 4 m := by
  simp only [State.a2aRto, hg, hi, hstart, Inst.a2aOpen hop hm hmy hdone, Nat.not_lt.2 hmax, Bool.false_eq_true, if_false]

theorem State.a2aRto_resends {counts : List Nat} {w z : State} (hmax : i.dstTries.get 0 m < s.resendMax) (hmoved : i.moved = true)
    (hcounts : ((s.sat (blkR 5 0x080) 0 32 1).setInst g q { i with dstTries := i.dstTries.set m (i.dstTries.get 0 m + 1) }).sendCounts c i st = (some counts, w))
    (hsend : w.a2aSend c g q i st counts m = (0, z)) : s.a2aRto g q m = z := by
  have hs : (s.sat (blkR 5 0x080) 0 32 1).inst g q = some i := hi
  have hop7 : i.op ≠ 7 := by omega
  simp only [State.a2aRto, hg, hi, hstart, Inst.a2aOpen hop hm hmy hdone, hmax, State.modInst_held hs, hcounts, hop7, if_pos hmoved, hsend,
    Bool.false_eq_true, if_false, if_true]

end AllToAll

/-! ## The statement -/

/-- Settles O36: a ring collective that is through completes, one without progress or without answers fails, and a parity error of the engine fails all. -/
theorem instancesEnd : Obligations.InstancesEnd := by
  refine ⟨?_, ?_⟩
  · intro s g q c i halive hg hi hring chunks ready
    have complete {t : State} (h : s.instComplete g q.toNat = t) : Answers (.instanceComplete g q) s t :=
      answers_of (f := fun s => s.instComplete g q.toNat) rfl halive h
    have hends := State.instComplete_ring hg hi hring
    exact ⟨fun h => complete (hends.trans (if_neg h)),
      fun h => complete ((hends.trans (if_pos h)).trans (State.doneInst_held hg hi 0 _ _ 0))⟩
  · intro s g q m c i halive hg hi chunks late waits here
    have timeout {t : State} (h : s.collTimeout g = t) : Answers (.collTimeout g) s t := answers_of (f := fun s => s.collTimeout g) rfl halive h
    have broadcast {t : State} (h : s.broadcastRto g q.toNat = t) : Answers (.broadcastRto g q) s t :=
      answers_of (f := fun s => s.broadcastRto g q.toNat) rfl halive h
    have a2a {t : State} (h : s.a2aRto g q.toNat m = t) : Answers (.a2aRto g q m) s t :=
      answers_of (f := fun s => s.a2aRto g q.toNat m) rfl halive h
    refine ⟨fun hbase h => timeout ?_, fun hbase h hn => timeout ?_, fun hbase hctx => timeout (State.collTimeout_pending hg hbase q.isLt hi hctx),
      fun hop hroot hstart => ?_, fun hop hstart hm hmy hdone => ?_, fun hup => ?_⟩
    · rw [State.collTimeout_here hg (hbase ▸ hi) h, hbase]
    · rw [State.collTimeout_pred hg (hbase ▸ hi) h hn, hbase]
    · exact ⟨fun h => broadcast (State.broadcastRto_answered hg hi hop hroot hstart h),
        fun h hmax => broadcast (State.broadcastRto_resends hg hi hop hroot hstart h hmax),
        fun n ns h hmax => broadcast (State.broadcastRto_fails hg hi hop hroot hstart h hmax)⟩
    · obtain ⟨st, hst⟩ := Option.isSome_iff_exists.1 hstart
      refine ⟨fun hmax => a2a (State.a2aRto_fails hg hi hop hst hm hmy hdone hmax), ?_⟩
      intro st counts w hst hmax hmoved r hcounts z hsend
      exact a2a (State.a2aRto_resends hg hi hop hst hm hmy hdone hmax hmoved hcounts hsend)
    · exact answers_of (f := fun s => s.engineParity) rfl halive (if_pos hup)

end Sys2Proof.Machine
end

section
/-!
SUPPORT. The arithmetic of the pans (chapter 11): the sum of two wide accumulators, MAX and MIN of two elements, and from them the statements about them.
-/
namespace Sys2Proof.Machine

/-! ## The sum of two accumulators (R251, R253) -/

/-- Two's complement is the balanced remainder. -/
theorem signed_eq_bmod {w : Nat} (hw : 0 < w) (v : Nat) : signed w v = Int.bmod v (2 ^ w) := by
  obtain ⟨w, rfl⟩ := Nat.exists_eq_add_of_lt hw
  simp only [signed, Int.bmod, Nat.zero_add, Nat.add_sub_cancel, pow_succ]
  generalize 2 ^ w = m
  split <;> split <;> omega

/-- A sum that fits its width is exact there. -/
theorem signed_add_mod {w a b : Nat} (hw : 0 < w) (hlow : -2 ^ (w - 1) ≤ signed w a + signed w b) (hhigh : signed w a + signed w b < 2 ^ (w - 1)) :
    signed w ((a + b) % 2 ^ w) = signed w a + signed w b := by
  have hhalf : (2 ^ w : Int) = 2 * 2 ^ (w - 1) := by rw [← pow_succ', Nat.sub_add_cancel hw]
  have hfits : Int.bmod (signed w a + signed w b) (2 ^ w) = signed w a + signed w b := Int.bmod_eq_of_le (by push_cast; omega) (by push_cast; omega)
  rw [← hfits, signed_eq_bmod hw, signed_eq_bmod hw, signed_eq_bmod hw, Int.bmod_add_bmod, Int.add_bmod_bmod, Int.natCast_mod, Int.emod_bmod,
    Nat.cast_add]

theorem wLegal_iff {v : Int} : wLegal v = true ↔ -(2 ^ 191) + 2 ^ 160 ≤ v ∧ v < 2 ^ 191 := by simp [wLegal]

/-- The legal range holds no accumulator that marks a NaN. -/
theorem wIsNan_of_legal {a : Nat} (ha : a < 2 ^ 192) (h : wLegal (signed 192 a) = true) : wIsNan a = false := by
  obtain ⟨hlow, -⟩ := wLegal_iff.1 h
  rw [signed, Nat.mod_eq_of_lt ha] at hlow
  rw [wIsNan, beq_eq_false_iff_ne]
  split at hlow <;> omega

theorem wAdd_of_numbers {a b : Nat} (ha : wIsNan a = false) (hb : wIsNan b = false) :
    wAdd a b = ((a + b) % 2 ^ 192, !wLegal (signed 192 a + signed 192 b)) := by
  simp [wAdd, ha, hb]

theorem wAdd_of_nan {a b : Nat} (h : wIsNan a = true ∨ wIsNan b = true) : wAdd a b = (wNan + (a + b) % 2 ^ 160, false) := by
  simp [wAdd, h]

/-- Whatever stands below limb 5, its NaN pattern marks the element. -/
theorem wIsNan_pattern (x : Nat) : wIsNan (wNan + x % 2 ^ 160) = true := by
  rw [wIsNan, wNan, beq_iff_eq]
  omega

/-- Settles O39: inside the legal range the sum modulo 2^192 is the sum itself, and limb 5 alone carries a NaN through. -/
theorem wideAdditionIsExact : Obligations.WideAdditionIsExact := by
  intro a b _ _ _ _ hna hnb
  refine ⟨fun h => ?_, fun h => ?_, fun n hn => ?_⟩
  · obtain ⟨hlow, hhigh⟩ := wLegal_iff.1 h
    have hsum : signed 192 ((a + b) % 2 ^ 192) = signed 192 a + signed 192 b := signed_add_mod (by decide) (by omega) hhigh
    rw [wAdd_of_numbers hna hnb, h]
    exact ⟨hsum, rfl, wIsNan_of_legal (Nat.mod_lt _ (by decide)) (hsum ▸ h)⟩
  · rw [wAdd_of_numbers hna hnb, h]
    rfl
  · rw [wAdd_of_nan (.inr hn), wAdd_of_nan (.inl hn)]
    exact ⟨rfl, rfl, wIsNan_pattern _, wIsNan_pattern _⟩

/-! ## MAX and MIN (R256) -/

section Combine
variable {o fmt a b : Nat}

theorem colCombine_max (hx : ((fmtOf fmt).decode a).isNan = false) (hy : ((fmtOf fmt).decode b).isNan = false) :
    colCombine 2 fmt a b = if Fp.lt true ((fmtOf fmt).decode a) ((fmtOf fmt).decode b) then b else a := by
  simp [colCombine, hx, hy]

theorem colCombine_min (hx : ((fmtOf fmt).decode a).isNan = false) (hy : ((fmtOf fmt).decode b).isNan = false) :
    colCombine 3 fmt a b = if Fp.lt true ((fmtOf fmt).decode b) ((fmtOf fmt).decode a) then b else a := by
  simp [colCombine, hx, hy]

/-- With a NaN on either side, MAX and MIN do alike. -/
theorem colCombine_nan (ho : o ∈ [2, 3]) (h : ((fmtOf fmt).decode a).isNan = true ∨ ((fmtOf fmt).decode b).isNan = true) :
    colCombine o fmt a b = if ((fmtOf fmt).decode a).isNan then (if ((fmtOf fmt).decode b).isNan then (fmtOf fmt).nanCode else b) else a := by
  obtain rfl | rfl : o = 2 ∨ o = 3 := by simpa using ho
  all_goals rcases h with h | h <;> simp [colCombine, h]

end Combine

/-- Settles O37: by which of the two operands is a NaN, and by their order where none is. -/
theorem maxAndMinInThePans : Obligations.MaxAndMinInThePans := by
  intro fmt a b x y
  refine ⟨fun hx hy => ⟨colCombine_max hx hy, colCombine_min hx hy⟩, fun o ho => ⟨fun hx hy => ?_, fun hx hy => ?_, fun hx hy => ?_⟩, lt_zeros⟩
  · rw [colCombine_nan ho (.inl hx), if_pos hx, if_neg (Bool.eq_false_iff.1 hy)]
  · rw [colCombine_nan ho (.inr hy), if_neg (Bool.eq_false_iff.1 hx)]
  · rw [colCombine_nan ho (.inl hx), if_pos hx, if_pos hy]

end Sys2Proof.Machine
end

section
/-!
SUPPORT. The protocol of the pans (chapter 11): what each protocol packet does in the slot that it names, and the timers of a slot; and from them the statement about them.
-/
namespace Sys2Proof.Machine

theorem State.slot_held {s : State} {g q n : Nat} {i : Inst} (hi : s.inst g q = some i) : s.slot g q n = i.slots.getD n {} := by
  simp only [State.slot, hi]

theorem State.resendOut_held {s : State} {c : GrpCfg} {g q n : Nat} {i : Inst} (hi : s.inst g q = some i) :
    s.resendOut c g q n = (s.sat (blkR (10 + c.quad) 0x088) 0 32 1).sendOut c g q n (i.slots.getD n {}).out := by
  simp only [State.resendOut, State.slot_held hi]

/-- A slot can send its output again: it has had its credit, and it holds output. -/
theorem PSlot.sendsAgain_iff {y : PSlot} : (y.credited && !y.out.isEmpty) = true ↔ y.credited = true ∧ y.out ≠ [] := by
  simp

/-! ## The packets (R263 to R266) -/

/-- The subtypes of the protocol packets (Table 11-3). -/
theorem State.engineTake_protocol {k : Pkt} (hk : k.kind = 6) (s : State) (c : GrpCfg) (i : Inst) :
    (k.sub = 6 → s.engineTake c k i = s.confirmPkt c k) ∧ (k.sub = 7 → s.engineTake c k i = s.retractPkt c k) ∧
    (k.sub = 8 → s.engineTake c k i = s.resendPkt c k) ∧ (k.sub = 9 → s.engineTake c k i = s.acceptPkt c k) := by
  refine ⟨?_, ?_, ?_, ?_⟩ <;> intro hsub <;> simp [State.engineTake, hk, hsub]

section Packets
variable {s : State} {c : GrpCfg} {k : Pkt} {i : Inst} (hi : s.inst k.group k.gseq = some i)
include hi

/-- A CONFIRM for a slot that has gone on is stale, and answered with both bits. -/
theorem State.confirmPkt_finished (hfin : i.finished.contains (k.value, k.half, false) = true) :
    s.confirmPkt c k = (s.panStale c).accept c k.group k.gseq k.part 3 k.value k.half false := by
  simp only [State.confirmPkt, hi, hfin, if_true]

/-- A CONFIRM before any chunk has its slot is kept. -/
theorem State.confirmPkt_early (hfin : i.finished.contains (k.value, k.half, false) = false) (hslot : i.slotOf (k.value, k.half, false) = none)
    (hnew : i.confirms.contains (k.value, k.half, k.part) = false) :
    s.confirmPkt c k = s.setInst k.group k.gseq { i with confirms := (k.value, k.half, k.part) :: i.confirms } := by
  simp only [State.confirmPkt, hi, hfin, hslot, State.modInst_held hi, hnew, Bool.false_eq_true, if_false]

variable {n : Nat} {y : PSlot} (hy : i.slots.getD n {} = y)
include hy

/-- A CONFIRM in its slot, by what the slot holds and by the version that the packet names. -/
theorem State.confirmPkt_slot (hfin : i.finished.contains (k.value, k.half, false) = false) (hslot : i.slotOf (k.value, k.half, false) = some n) :
    s.confirmPkt c k = if y.settled = true then (s.panStale c).accept c k.group k.gseq k.part 3 k.value k.half false
      else if (k.part + 256 - y.ver) % 256 < 128 then
        (s.modSlot k.group k.gseq n fun y => { y with confirmHeld := some k.part }).pump k.group k.gseq n
      else s.panStale c := by
  simp only [State.confirmPkt, hi, hfin, hslot, hy, Bool.false_eq_true, if_false]

theorem State.retractPkt_slot (hslot : i.slotOf (k.value, k.stat % 2, false) = some n) :
    s.retractPkt c k = if y.settled = true ∨ k.part ≠ y.ver ∨ i.wide = false then s.panStale c
      else (if y.st = 5 then s.modSlot k.group k.gseq n PSlot.clearArrival else s.retractSlot c k.group k.gseq n 0).modSlot k.group k.gseq n fun y =>
        { y with ver := (k.part + 1) % 256, failed := none, confirmHeld := y.confirmHeld.filter (· == (k.part + 1) % 256) } := by
  simp only [State.retractPkt, hi, hslot, hy, Bool.or_eq_true, Bool.not_eq_true', decide_eq_true_eq, or_assoc]

theorem State.resendPkt_slot (hslot : i.outSlot c k.value (k.stat % 2) k.gath = some n) :
    s.resendPkt c k = if y.credited = true ∧ y.out ≠ [] ∧ y.ovf = k.part then
        (s.sat (blkR (10 + c.quad) 0x088) 0 32 1).sendOut c k.group k.gseq n y.out
      else s.panStale c := by
  simp only [State.resendPkt, hi, hslot, hy, Bool.and_eq_true (_ && _), PSlot.sendsAgain_iff, decide_eq_true_eq, and_assoc, State.resendOut_held hi]

theorem State.acceptPkt_slot (hslot : i.outSlot c k.value k.half k.gath = some n) :
    s.acceptPkt c k = if y.ovf ≠ k.part then s.panStale c
      else (s.modSlot k.group k.gseq n fun y =>
        { y with dataOk := y.dataOk || bitOf k.stat 0, acked := y.acked || (bitOf k.stat 0 && bitOf k.stat 1) }).releaseSlot k.group k.gseq n := by
  simp only [State.acceptPkt, hi, hslot, hy]

end Packets

/-! ## The timers of a slot (R264, R266) -/

section Timers
variable {s : State} {c : GrpCfg} {g q chunk h n : Nat} {i : Inst} {y : PSlot} (hg : s.grpCfg g = some c) (hi : s.inst g q = some i)
  (hy : i.slots.getD n {} = y)
include hg hi hy

theorem State.restoreDone_slot (hslot : i.slotOf (chunk, h, false) = some n) :
    s.restoreDone g q chunk h = if y.st ≠ 5 then s
      else if y.origin = c.my then (s.modSlot g q n fun y => { y with st := 2 }).pump g q n
      else y.held.foldl (fun s k => s.takeChunk c g q n k) (s.modSlot g q n fun y => { y with st := 1, held := [] }) := by
  simp only [State.restoreDone, hg, hi, hslot, hy]

theorem State.confirmRepeat_slot (hslot : i.slotOf (chunk, h, false) = some n) :
    s.confirmRepeat g q chunk h =
      if y.st = 4 ∧ y.credited = true ∧ y.acked = false ∧ c.lastOf y.origin = false then s.panPkt c g q c.succ 6 y.ovf 0 chunk h false else s := by
  simp only [State.confirmRepeat, hg, hi, hslot, hy, Bool.and_eq_true, Bool.not_eq_true', decide_eq_true_eq, and_assoc]

theorem State.acceptTimeout_slot {gather : Bool} (hslot : i.outSlot c chunk h gather = some n) :
    s.acceptTimeout g q chunk h gather =
      if y.credited = true ∧ y.out ≠ [] ∧ y.dataOk = false then (s.sat (blkR (10 + c.quad) 0x088) 0 32 1).sendOut c g q n y.out else s := by
  simp only [State.acceptTimeout, hg, hi, hslot, hy, Bool.and_eq_true (_ && _), PSlot.sendsAgain_iff, Bool.not_eq_true', and_assoc,
    State.resendOut_held hi]

end Timers

/-! ## The statement -/

/-- Settles O38: a protocol packet acts in the slot that it names where its version is the one that the slot holds, and a slot that waits repeats what it has sent. -/
theorem panPacketsAndTimers : Obligations.PanPacketsAndTimers := by
  refine ⟨?_, ?_⟩
  · intro s k c i n halive hcore hk hdst hpkt hg htree hok hstale hharvest hi r g q y stale
    have hr : r.inst k.group k.gseq = some i := hi
    have answers {ci : Instr} {m : Nat} {t : State} (hmem : (m, ci) ∈ engineArrivals k) (hsub : k.sub = m) (h : r.engineTake c k i = t) : Answers ci s t :=
      answers_of (exec_engineArrival_eq k s _ hmem) halive
        ((State.arrives_engine hcore hk hdst hsub hpkt).trans ((State.engine_live (s := s.fwd) hg htree hok hstale hharvest hi).trans h))
    obtain ⟨hconfirm, hretract, hresend, haccept⟩ := State.engineTake_protocol hk r c i
    have confirm {t : State} (hsub : k.sub = 6) (h : r.confirmPkt c k = t) : Answers (.confirmArrival k) s t :=
      answers (by simp [engineArrivals]) hsub ((hconfirm hsub).trans h)
    have retract {t : State} (hsub : k.sub = 7) (h : r.retractPkt c k = t) : Answers (.retractArrival k) s t :=
      answers (by simp [engineArrivals]) hsub ((hretract hsub).trans h)
    have resend {t : State} (hsub : k.sub = 8) (h : r.resendPkt c k = t) : Answers (.resendArrival k) s t :=
      answers (by simp [engineArrivals]) hsub ((hresend hsub).trans h)
    have accept {t : State} (hsub : k.sub = 9) (h : r.acceptPkt c k = t) : Answers (.acceptArrival k) s t :=
      answers (by simp [engineArrivals]) hsub ((haccept hsub).trans h)
    refine ⟨fun hsub hfin hslot => ?_, fun hsub hfin => confirm hsub (State.confirmPkt_finished hr hfin),
      fun hsub hfin hslot hnew => confirm hsub (State.confirmPkt_early hr hfin hslot hnew), fun hsub hslot => ?_, fun hsub hslot => ?_, fun hsub hslot => ?_⟩
    · have hconf := State.confirmPkt_slot (c := c) hr rfl hfin hslot
      exact ⟨fun hy hv => confirm hsub (hconf.trans ((if_neg (Bool.eq_false_iff.1 hy)).trans (if_pos hv))),
        fun hy hv => confirm hsub (hconf.trans ((if_neg (Bool.eq_false_iff.1 hy)).trans (if_neg (Nat.not_lt.2 hv)))),
        fun hy => confirm hsub (hconf.trans (if_pos hy))⟩
    · have hret := State.retractPkt_slot (c := c) hr rfl hslot
      exact ⟨fun hy hv hw => retract hsub (hret.trans (if_neg (not_or.2 ⟨Bool.eq_false_iff.1 hy, not_or.2 ⟨not_not.2 hv, ne_false_of_eq_true hw⟩⟩))),
        fun hbad => retract hsub (hret.trans (if_pos hbad))⟩
    · have hres := State.resendPkt_slot hr rfl hslot
      exact ⟨fun hcr hout hv => resend hsub (hres.trans (if_pos ⟨hcr, hout, hv⟩)),
        fun hbad => resend hsub (hres.trans (if_neg fun ⟨hcr, hout, hv⟩ => hbad.elim (ne_false_of_eq_true hcr) fun h => h.elim hout (· hv)))⟩
    · have hacc := State.acceptPkt_slot hr rfl hslot
      exact ⟨fun hv => accept hsub (hacc.trans (if_neg (not_not.2 hv))), fun hv => accept hsub (hacc.trans (if_pos hv))⟩
  · intro s g q chunk n h c i halive hg hi y
    have restore {t : State} (ht : s.restoreDone g q.toNat chunk h = t) : Answers (.retractRestoreDone g q chunk h) s t :=
      answers_of (f := fun s => s.restoreDone g q.toNat chunk h) rfl halive ht
    have again {t : State} (ht : s.confirmRepeat g q.toNat chunk h = t) : Answers (.confirmRepeat g q chunk h) s t :=
      answers_of (f := fun s => s.confirmRepeat g q.toNat chunk h) rfl halive ht
    have timeout {gather : Bool} {t : State} (ht : s.acceptTimeout g q.toNat chunk h gather = t) : Answers (.acceptTimeout g q chunk h gather) s t :=
      answers_of (f := fun s => s.acceptTimeout g q.toNat chunk h gather) rfl halive ht
    refine ⟨fun hslot => ?_, fun gather hslot => ?_, fun p hup => answers_of (f := fun s => s.slotParity p) rfl halive (if_pos hup)⟩
    · have hrest := State.restoreDone_slot hg hi rfl hslot
      have hrep := State.confirmRepeat_slot hg hi rfl hslot
      exact ⟨fun hst ho => restore (hrest.trans ((if_neg (not_not.2 hst)).trans (if_pos ho))),
        fun hst ho => restore (hrest.trans ((if_neg (not_not.2 hst)).trans (if_neg ho))),
        fun hst => restore (hrest.trans (if_pos hst)),
        fun hst hcr hack hlast => again (hrep.trans (if_pos ⟨hst, hcr, hack, hlast⟩)),
        fun hack => again (hrep.trans (if_neg fun ⟨_, _, hno, _⟩ => Bool.eq_false_iff.1 hno hack))⟩
    · have htime := State.acceptTimeout_slot hg hi rfl hslot
      exact ⟨fun hcr hout hdata => timeout (htime.trans (if_pos ⟨hcr, hout, hdata⟩)),
        fun hdata => timeout (htime.trans (if_neg fun ⟨_, _, hno⟩ => Bool.eq_false_iff.1 hno hdata))⟩

end Sys2Proof.Machine
end

section
/-!
SUPPORT. The block as a whole: a step is an effect followed by the end of its cycle.
-/
namespace Sys2Proof.Machine

/-- Every command answers a next state: it is the state after its effect and the end of the cycle, or no device acts in it, or it is the state before. -/
theorem exec_next (c : Instr) (s : State) : ∃ t, exec c s = .next t ∧ ((∃ u : State, t = u.endCycle) ∨ t.alive = false) := by
  obtain ⟨f, h | h⟩ := exec_shape c s
  · cases ha : s.alive with
    | false => exact ⟨s, by simp [h, act, ha], .inr ha⟩
    | true => exact ⟨(f s).endCycle, by simp [h, act, ha], .inl ⟨f s, rfl⟩⟩
  · cases ha : (f s).alive with
    | false => exact ⟨f s, by simp [h, actPin, ha], .inr ha⟩
    | true => exact ⟨(f s).endCycle, by simp [h, actPin, ha], .inl ⟨f s, rfl⟩⟩

/-- A cycle without a command ends as one with a command does, or no cycle passes. -/
theorem State.tick_ends (s : State) : (∃ u : State, s.tick = u.endCycle) ∨ s.tick = s := by
  unfold State.tick
  split
  · exact .inl ⟨_, rfl⟩
  · exact .inr rfl

/-- Settles O57: a step on a queue with a command in front is exec of it by definition, and `exec_next` answers every command. -/
theorem stepRunsTheFrontCommand : Obligations.StepRunsTheFrontCommand := by
  refine ⟨fun _ _ _ => rfl, fun s h => ?_, fun c s => ?_, rfl⟩
  · simp only [step, h]
  · obtain ⟨t, ht, _⟩ := exec_next c s
    exact ⟨t, ht⟩

/-- Settles O60: the state of reset lists nothing. -/
theorem resetMeetsTheInvariant : Obligations.ResetMeetsTheInvariant := ⟨rfl, rfl, rfl, rfl⟩

/-- The end of a cycle leaves nothing captured, and no message waits while none stands in HST_MB_OUT. -/
theorem State.endCycle_emptied (u : State) :
    u.endCycle.newEvts = [] ∧ u.endCycle.newVecs = [] ∧ (u.endCycle.hst.mbPlaced = true ∨ u.endCycle.hst.mbOut = []) := by
  obtain ⟨hevts, hvecs⟩ := Prod.mk.inj u.endCycle_new
  exact ⟨hevts, hvecs, u.endCycle_placed⟩

/-- Settles O59: the end of a cycle empties it, and a step that ends no cycle leaves the state as it was or ends in one in which the device does not act. -/
theorem everyStepEmptiesTheCycle : Obligations.EveryStepEmptiesTheCycle := by
  intro s t hs hstep halive
  unfold step at hstep
  split at hstep
  next =>
    obtain rfl : s.tick = t := by simpa using hstep
    rcases s.tick_ends with ⟨u, hu⟩ | hsame
    · rw [hu]; exact u.endCycle_emptied
    · rw [hsame] at halive ⊢
      exact hs halive
  next c rest _ =>
    obtain ⟨t', ht', hends⟩ := exec_next c { s with pending := rest }
    obtain rfl : t' = t := by simpa [ht'] using hstep
    rcases hends with ⟨u, hu⟩ | hdead
    · rw [hu]; exact u.endCycle_emptied
    · simp [hdead] at halive

end Sys2Proof.Machine
end

section
/-!
SUPPORT. Power votes, the transitions of a domain, temperature, wakes, the power cap and the losses of supply and clocks (chapter 14): what each of these operations does
by the state that it finds, and from it the statements about them.
-/
namespace Sys2Proof.Machine

/-! ## Votes (R311, R313, Table 14-5) -/

theorem exec_pwrVoteCtrl_eq (src : Src) (v : W64) (s : State) : exec (.pwrVoteCtrl src v) s = act s fun s => s.voteCtrl src v := rfl

theorem Dom.vote_lt (x : Dom) (k : Nat) : x.vote k < 4 := Nat.mod_lt _ (by decide)

/-- The highest vote lies below a bound where every slot's vote does. -/
theorem Dom.top_lt_iff (x : Dom) {n : Nat} (hn : 0 < n) : x.top < n ↔ ∀ k, k < 8 → x.vote k < n := by
  have hmem (k : Nat) (hk : k < 8) : x.vote k ∈ (List.range 8).map x.vote := List.mem_map_of_mem (List.mem_range.2 hk)
  constructor
  · intro h k hk
    exact Nat.lt_of_le_of_lt (maxOf_ge _ _ (hmem k hk)) h
  · intro h
    by_cases hz : x.top = 0
    · omega
    · obtain ⟨k, hk, hv⟩ := List.mem_map.1 (maxOf_mem _ hz)
      exact lt_of_eq_of_lt hv.symm (h k (List.mem_range.1 hk))

theorem Dom.top_eq_three_iff (x : Dom) : x.top = 3 ↔ ∃ k, k < 8 ∧ x.vote k = 3 := by
  have h4 : x.top < 4 := (x.top_lt_iff (by decide)).2 fun k _ => x.vote_lt k
  have h3 := x.top_lt_iff (n := 3) (by decide)
  constructor
  · intro h
    have hex : ¬∀ k, k < 8 → x.vote k < 3 := fun hall => absurd (h3.2 hall) (by omega)
    push Not at hex
    obtain ⟨k, hk, hge⟩ := hex
    have := x.vote_lt k
    exact ⟨k, hk, by omega⟩
  · rintro ⟨k, hk, hv⟩
    have : ¬x.top < 3 := fun hlt => absurd (h3.1 hlt k hk) (by omega)
    omega

theorem voteLvl_on_iff (v : Nat) : voteLvl v = .on ↔ v = 3 := by
  unfold voteLvl; split <;> [simp_all; split <;> simp_all]

theorem voteLvl_off_iff {v : Nat} (h : v < 4) : voteLvl v = .off ↔ v < 2 := by
  unfold voteLvl; split <;> [(simp; omega); split <;> [(simp; omega); (simp; omega)]]

theorem State.resolved_top (s : State) {d : Nat} (hd : d ≠ 0) : s.resolved d = voteLvl (s.dom d).top := if_neg hd

theorem State.resolved_on_iff (s : State) {d : Nat} (hd : d ≠ 0) : s.resolved d = .on ↔ ∃ k, k < 8 ∧ (s.dom d).vote k = 3 := by
  rw [s.resolved_top hd, voteLvl_on_iff, Dom.top_eq_three_iff]

theorem State.resolved_off_iff (s : State) {d : Nat} (hd : d ≠ 0) : s.resolved d = .off ↔ ∀ k, k < 8 → (s.dom d).vote k < 2 := by
  have h4 : (s.dom d).top < 4 := ((s.dom d).top_lt_iff (by decide)).2 fun k _ => (s.dom d).vote_lt k
  rw [s.resolved_top hd, voteLvl_off_iff h4, Dom.top_lt_iff _ (by decide)]

theorem State.target_le_resolved (s : State) (d : Nat) : (s.target d).rank ≤ (s.resolved d).rank := by
  unfold State.target
  split
  · exact (Lvl.min_rank _ _).1
  · exact Nat.le_refl _

theorem State.target_le_parent (s : State) {d p : Nat} (hp : domParent d = some p) : (s.target d).rank ≤ (s.dom p).st.lvl.rank := by
  simp only [State.target, hp]
  exact (Lvl.min_rank _ _).2

section VoteCtrl
variable {s : State} {src : Src} {v : W64}

/-- A writer who may not write the slot, or one domain that takes no vote. -/
theorem State.voteCtrl_refused (h : s.mayVote src (v.fld 16 3) = false ∨ v.bit 24 = false ∧ (v.fld 0 7 = 0 ∨ 83 < v.fld 0 7)) :
    s.voteCtrl src v = s.flag 2 7 := by
  rcases h with h | ⟨hall, h⟩
  · simp [State.voteCtrl, h]
  · simp [State.voteCtrl, hall, h]

variable (hm : s.mayVote src (v.fld 16 3) = true)
include hm

theorem State.voteCtrl_one (hall : v.bit 24 = false) (h1 : 1 ≤ v.fld 0 7) (h83 : v.fld 0 7 ≤ 83) :
    s.voteCtrl src v = (s.voteOne (v.fld 16 3) (v.fld 8 2) (v.fld 0 7)).settlePower (v.fld 16 3) := by
  have h0 : v.fld 0 7 ≠ 0 := by omega
  simp [State.voteCtrl, State.vote, hm, hall, h0, h83]

theorem State.voteCtrl_all (hall : v.bit 24 = true) : s.voteCtrl src v = s.vote (v.fld 16 3) (v.fld 8 2) ((List.range 84).drop 1) := by
  simp [State.voteCtrl, hm, hall]

end VoteCtrl

/-- Settles O44: the votes of a domain resolve to their highest, and PWR_VOTE_CTRL is refused or writes one domain or all of them. -/
theorem votesResolve : Obligations.VotesResolve := by
  refine ⟨fun x k v hv => x.setVote_vote k v hv, fun s d => ?_, ?_⟩
  · exact ⟨s.target_le_resolved d, fun p hp => s.target_le_parent hp, fun hd => ⟨s.resolved_on_iff hd, s.resolved_off_iff hd⟩⟩
  · intro s src v halive d all
    have ctrl {t : State} (h : s.voteCtrl src v = t) := answers_of (exec_pwrVoteCtrl_eq src v s) halive h
    exact ⟨fun h => ctrl (State.voteCtrl_refused h), fun hm hall h1 h83 => ctrl (State.voteCtrl_one hm hall h1 h83),
      fun hm hall => ctrl (State.voteCtrl_all hm hall)⟩

/-! ## The transitions of a domain (R317, R318, R325) -/

theorem exec_domainEntryComplete_eq (d : Fin 84) (s : State) : exec (.domainEntryComplete d) s = act s fun s => s.entryDone d := rfl

theorem exec_domainAbortReturn_eq (d : Fin 84) (s : State) : exec (.domainAbortReturn d) s = act s fun s => s.abortReturn d := rfl

theorem exec_domainRampStart_eq (d : Fin 84) (s : State) : exec (.domainRampStart d) s = act s fun s => s.rampStart d := rfl

theorem exec_domainOn_eq (d : Fin 84) (ok : Bool) (s : State) : exec (.domainOn d ok) s = act s fun s => s.domainOn d ok := rfl

theorem exec_rampFail_eq (d : Fin 84) (s : State) : exec (.rampFail d) s = act s fun s => s.rampFail d := rfl

theorem exec_converterFault_eq (d : Fin 84) (s : State) : exec (.converterFault d) s = act s fun s => s.converterFault d := rfl

section Entry
variable {s : State} {d c : Nat} {frm dest : Lvl}

/-- An entry that was not stopped ends in its target. -/
theorem State.entryDone_entering (hst : (s.dom d).st = .entering frm dest c false) :
    s.entryDone d = (if dest = .ret then s.arrive d .ret .reachedRet else s.arrive d .off .reachedOff).settlePower 0 := by
  simp only [State.entryDone, hst]

theorem State.entryDone_stopped (hst : (s.dom d).st = .entering frm dest c true) : s.entryDone d = s := by
  simp only [State.entryDone, hst]

/-- A stopped entry ends in the state that it left. -/
theorem State.abortReturn_stopped (hst : (s.dom d).st = .entering frm dest c true) :
    s.abortReturn d = (if frm = .on then s.arrive d .on .returned else s.arrive d .ret .reachedRet).settlePower 0 := by
  simp only [State.abortReturn, hst]

theorem State.abortReturn_entering (hst : (s.dom d).st = .entering frm dest c false) : s.abortReturn d = s := by
  simp only [State.abortReturn, hst]

end Entry

section Ramp
variable {s : State} {d : Nat} {frm dest : Lvl}

theorem State.rampStart_first (hm : s.mayRamp d = true) (hfirst : ∀ e, e < d → s.mayRamp e = false) :
    s.rampStart d = { s.setDom d { s.dom d with st := .ramping (s.dom d).st.lvl (s.resolved d) } with lastRamp := some s.cclk } := by
  have hnone : ((List.range d).any fun e => s.mayRamp e) = false := by
    rw [List.any_eq_false]
    intro e he
    simp [hfirst e (List.mem_range.1 he)]
  simp [State.rampStart, hm, hnone]

theorem State.rampStart_waits (h : s.mayRamp d = false ∨ ∃ e, e < d ∧ s.mayRamp e = true) : s.rampStart d = s := by
  rcases h with h | ⟨e, he, h⟩
  · simp [State.rampStart, h]
  · have hany : ((List.range d).any fun e => s.mayRamp e) = true := List.any_eq_true.2 ⟨e, List.mem_range.2 he, h⟩
    simp [State.rampStart, hany]

section Ramping
variable (hst : (s.dom d).st = .ramping frm dest)
include hst

theorem State.rampDone_ret (hd : dest ≠ .on) : s.rampDone d = (s.arrive d .ret .reachedRet).settlePower 0 := by
  simp only [State.rampDone, hst, hd, if_false]

/-- A domain that comes ON says so in an event. -/
theorem State.rampDone_on (hd : dest = .on) :
    let w := s.arrive d .on (if frm = .off then .onFromOff else .onFromRet)
    s.rampDone d = (w.capture { kind := 4, code := 5, blk := 2, inst := d, sev := 0, detail := w.pwrDom d, live := false }).settlePower 0 := by
  simp only [State.rampDone, hst, hd, if_true]

theorem State.domainOn_ret (hd : dest ≠ .on) (hoff : ((s.arrive d .ret .reachedRet).settlePower 0).domOn d = false) (ok : Bool) :
    s.domainOn d ok = (s.arrive d .ret .reachedRet).settlePower 0 := by
  simp only [State.domainOn, State.rampDone_ret hst hd, hoff, Bool.false_and, Bool.false_eq_true, if_false]

theorem State.rampFail_ramping : s.rampFail d = s.domFault d 0 false := by
  simp only [State.rampFail, hst]

end Ramping

/-- A domain of which no block is in a power cycle of the ladder ends no step of it. -/
theorem State.domainOn_no_cycle (h : ∀ b ∈ domBlks d, ∀ n, ((s.rampDone d).blk b).step ≠ .cycle n) (ok : Bool) : s.domainOn d ok = s.rampDone d := by
  unfold State.domainOn
  dsimp only
  split
  · refine foldl_same _ _ _ fun b hb => ?_
    split
    · exact absurd ‹_› (h b hb _)
    · rfl
  · rfl

theorem State.converterFault_on (hd : d ≠ 0) (hst : (s.dom d).st = .on) : s.converterFault d = s.domFault d 1 false := by
  simp [State.converterFault, State.domOn, hd, hst]

theorem State.converterFault_other (h : d = 0 ∨ s.domOn d = false) : s.converterFault d = s := by
  rcases h with h | h <;> simp [State.converterFault, h]

end Ramp

/-- A saturating counter of the upper half reads one higher, up to its largest, and the lower half as before. -/
theorem State.satHigh_fld (s : State) (o : Nat) :
    ((s.sat o 32 32 1).rg o).fld 32 32 = min (2 ^ 32 - 1) ((s.rg o).fld 32 32 + 1) ∧ ((s.sat o 32 32 1).rg o).fld 0 32 = (s.rg o).fld 0 32 := by
  rw [State.satHigh_rg, if_pos rfl]
  simp only [BitVec.fld, BitVec.toNat_ofNat]
  omega

section Settle
variable {s : State} {slot d c : Nat} {frm dest : Lvl} (hst : (s.dom d).st = .entering frm dest c false)
include hst

/-- A rise before the point of no return stops an entry, and counts it. -/
theorem State.settleDom_stops (ht : frm.rank ≤ (s.target d).rank) (hc : s.cclk < c + 12) (hcyc : s.cycling d = false) :
    s.settleDom slot d =
      (s.setDom d { s.dom d with st := .entering frm dest c true, lastSlot := slot, lastAbort := true }).sat (blkR 2 (0x1400 + 8 * d)) 32 32 1 := by
  simp [State.settleDom, hst, ht, hc, hcyc]

theorem State.settleDom_goes_on (h : (s.target d).rank < frm.rank ∨ c + 12 ≤ s.cclk ∨ s.cycling d = true) : s.settleDom slot d = s := by
  have hno : (frm.rank ≤ (s.target d).rank && s.cclk < c + 12 && !s.cycling d) = false := by
    rcases h with h | h | h
    · simp [Nat.not_le.2 h]
    · simp [Nat.not_lt.2 h]
    · simp [h]
  simp only [State.settleDom, hst, hno, Bool.false_eq_true, if_false]

end Settle

/-- Settles O45: a transition ends as its kind says, and an entry is stopped only before its point of no return. -/
theorem domainTransitions : Obligations.DomainTransitions := by
  refine ⟨?_, ?_⟩
  · intro s d frm dest c halive x off
    have entry {t : State} (h : s.entryDone d = t) := answers_of (exec_domainEntryComplete_eq d s) halive h
    have back {t : State} (h : s.abortReturn d = t) := answers_of (exec_domainAbortReturn_eq d s) halive h
    have ramp {t : State} (h : s.rampStart d = t) := answers_of (exec_domainRampStart_eq d s) halive h
    have on {ok : Bool} {t : State} (h : s.domainOn d ok = t) := answers_of (exec_domainOn_eq d ok s) halive h
    have conv {t : State} (h : s.converterFault d = t) := answers_of (exec_converterFault_eq d s) halive h
    refine ⟨fun hst => ⟨fun hd => ?_, fun hd => ?_, back (State.abortReturn_entering hst)⟩,
      fun hst => ⟨fun hf => ?_, fun hf => ?_, entry (State.entryDone_stopped hst)⟩,
      fun hm hfirst => ramp (State.rampStart_first hm hfirst), fun h => ramp (State.rampStart_waits h),
      fun hst => ⟨fun hd _ hoff => on (State.domainOn_ret hst hd hoff true), fun hd ok => ?_,
        answers_of (exec_rampFail_eq d s) halive (State.rampFail_ramping hst)⟩,
      fun hd hst => conv (State.converterFault_on hd hst), fun h => conv (State.converterFault_other h)⟩
    · exact entry ((State.entryDone_entering hst).trans (by rw [if_pos hd]))
    · exact entry ((State.entryDone_entering hst).trans (by rw [if_neg hd]))
    · exact back ((State.abortReturn_stopped hst).trans (by rw [if_pos hf]))
    · exact back ((State.abortReturn_stopped hst).trans (by rw [if_neg hf]))
    · intro w r hcyc
      have hr : s.rampDone d = r := State.rampDone_on hst hd
      exact on ((State.domainOn_no_cycle (hr ▸ hcyc) ok).trans hr)
  · intro s slot d frm dest c hst r
    refine ⟨fun ht hc hcyc => ?_, fun h => State.settleDom_goes_on hst h⟩
    have hr : r = _ := State.settleDom_stops (slot := slot) hst ht hc hcyc
    have hdom : r.dom d = { s.dom d with st := .entering frm dest c true, lastSlot := slot, lastAbort := true } := by
      rw [hr, State.sat_dom_same, State.setDom_dom, if_pos rfl]
    refine ⟨by rw [hdom], by rw [hdom], by rw [hdom], by rw [hdom], ?_⟩
    rw [hr]
    exact State.satHigh_fld _ _

/-! ## Temperature (R323) -/

theorem exec_tempWarn_eq (n t : Byte) (s : State) : exec (.tempWarn n t) s = act s fun s => s.tempHot n.toNat t.toNat := rfl

theorem exec_tempClear_eq (n t : Byte) (s : State) : exec (.tempClear n t) s = act s fun s => s.tempCool n.toNat t.toNat := rfl

theorem exec_tempCrit_eq (n t : Byte) (s : State) : exec (.tempCrit n t) s = act s fun s => s.tempCrit n.toNat t.toNat := rfl

section Temp
variable {s : State} {n temp : Nat}

/-- The warning of 100 °C is reported once, until it clears. -/
theorem State.tempHot_warns (h : 100 ≤ temp) (hw : s.pins.tempWarn = false) :
    s.tempHot n temp = ({ s.setTemp n temp with pins := { s.pins with tempWarn := true } }).flag 2 5 := by
  simp [State.tempHot, State.setTemp, h, hw]

theorem State.tempHot_reads (h : temp < 100 ∨ s.pins.tempWarn = true) : s.tempHot n temp = s.setTemp n temp := by
  rcases h with h | h
  · simp [State.tempHot, Nat.not_le.2 h]
  · simp [State.tempHot, State.setTemp, h]

theorem State.tempCool_clears (h : temp < 95) : s.tempCool n temp = { s.setTemp n temp with pins := { s.pins with tempWarn := false } } := by
  simp [State.tempCool, State.setTemp, h]

theorem State.tempCool_reads (h : 95 ≤ temp) : s.tempCool n temp = s.setTemp n temp := if_neg (Nat.not_lt.2 h)

theorem State.tempCrit_reports (h : 105 ≤ temp) : s.tempCrit n temp = (s.tempHot n temp).flag 2 6 := if_pos h

end Temp

/-- Settles O46: each reading is stored, and a limit that it passes reports where it holds no warning already. -/
theorem temperatureLimits : Obligations.TemperatureLimits := by
  intro s sensor temp halive read warm
  have hot {t : State} (h : s.tempHot sensor.toNat temp.toNat = t) := answers_of (exec_tempWarn_eq sensor temp s) halive h
  have cool {t : State} (h : s.tempCool sensor.toNat temp.toNat = t) := answers_of (exec_tempClear_eq sensor temp s) halive h
  have crit {t : State} (h : s.tempCrit sensor.toNat temp.toNat = t) := answers_of (exec_tempCrit_eq sensor temp s) halive h
  refine ⟨fun h hw => hot (State.tempHot_warns h hw), fun h => hot (State.tempHot_reads h), fun h => cool (State.tempCool_clears h),
    fun h => cool (State.tempCool_reads h), fun h hw => crit ?_, fun h hw => crit ?_, rfl, rfl⟩
  · rw [State.tempCrit_reports h, State.tempHot_warns (by omega) hw]; rfl
  · rw [State.tempCrit_reports h, State.tempHot_reads (.inr hw)]; rfl

/-! ## Wakes and the power cap (R319, R322, R325, R377) -/

theorem exec_wakePin_eq (low : Bool) (s : State) : exec (.wakePin low) s = act s fun s => s.wakePinSet low := rfl

theorem exec_pwrWakeSwWrite_eq (v : W64) (s : State) : exec (.pwrWakeSwWrite v) s = act s fun s => s.wakeSwWrite v := rfl

theorem exec_i3cIbi_eq (regs : List Nat) (s : State) : exec (.i3cIbi regs) s = act s fun s => s.ibi regs := rfl

theorem exec_powerCapInterval_eq (p volts amps : Fin 65536) (s : State) :
    exec (.powerCapInterval p volts amps) s = act s fun s => s.capInterval p volts amps := rfl

theorem State.edgeWake_all (s : State) (n : Nat) : s.edgeWake n (fun _ => true) = s.wake n ((s.wakeMask n).filter fun d => !s.edgeLost d) := by
  simp [State.edgeWake]

/-- A wake waits for the rest of its state alone. -/
theorem State.wake_dev (s : State) (n : Nat) (ds : List Nat) : (s.wake n ds).dev = s.dev := by
  unfold State.wake
  split
  · rfl
  · exact State.vote_keeps (fun s : State => s.dev) (fun _ _ _ => rfl) (fun _ _ _ => rfl) (fun _ _ => rfl) _ _ _ _

theorem State.ibi_wakes {s : State} (ho : s.dev.osaux = false) (regs : List Nat) :
    s.ibi regs = s.wake 3 ((s.wakeMask 3).filter fun d => !s.edgeLost d) := by
  simp [State.ibi, State.edgeWake_all, State.wake_dev, ho]

/-- Where the interrupt wakes no domain, Osaux answers on the state as it is. -/
theorem State.ibi_answers {s : State} (ho : s.dev.osaux = true) (hm : s.wakeMask 3 = []) (regs : List Nat) :
    s.ibi regs = regs.foldl (fun s r => s.emit (.i3c r (s.readReg r).toNat)) s.bmcSeen := by
  have hw : s.edgeWake 3 (fun _ => true) = s := by simp [State.edgeWake_all, hm, State.wake]
  simp only [State.ibi, hw, ho, if_true]

/-- An interval of the power cap before the report of OVER_POWER. -/
def State.capMeasured (s : State) (p volts amps : Nat) : State :=
  let cfg := s.rg (blkR 2 0x050)
  let cap := if cfg.fld 0 16 = 0 then 0 else max 1000 (cfg.fld 0 16)
  let duty := nextDuty s.pins.dutySet (cfg.fld 24 8) p cap (4 * cfg.fld 16 8) (s.pins.tempWarn || s.pins.warnInj)
  let pins := { s.pins with duty := s.dutyAt (3 * s.cclk), dutySet := duty, dutyRun := 3 * s.cclk / 64, warnInj := false }
  ({ s with pins := pins }.setRg (blkR 2 0x060) (put 32 p ||| put 16 amps ||| put 0 volts)).peak (blkR 2 0x068) p

theorem State.capInterval_eq {s : State} (hu : s.uninjected = true) (p volts amps : Nat) :
    s.capInterval p volts amps = if 2800 < p then (s.capMeasured p volts amps).flag 2 4 else s.capMeasured p volts amps := by
  have hm : s.capInterval p volts amps = ((s.capMeasured p volts amps).detect 2 4 (decide (2800 < p))).2 := by
    unfold State.capInterval State.capMeasured
    dsimp only
    cases (s.rg (blkR 2 0x050)).fld 0 16 <;> rfl
  have hum : (s.capMeasured p volts amps).uninjected = true := hu
  by_cases hp : 2800 < p
  · rw [hm, if_pos hp, decide_eq_true hp, State.detect_real hum]
  · rw [hm, if_neg hp, decide_eq_false hp, State.detect_quiet hum]

/-! ## Supply, the reference and the PLLs (R307, R326, Table 14-14) -/

theorem exec_inUndervolt_eq (s : State) : exec .inUndervolt s = act s fun s => s.supplyFault false := rfl

theorem exec_inOvervolt_eq (s : State) : exec .inOvervolt s = act s fun s => s.supplyFault true := rfl

theorem exec_refclkLoss_eq (s : State) : exec .refclkLoss s = act s fun s => if s.pins.refclk then s.refclkLoss else s := rfl

theorem exec_rootUnlock_eq (s : State) : exec .rootUnlock s = act s fun s => s.whenLocked 0 fun s => s.rootLoss := rfl

theorem exec_hclkUnlock_eq (s : State) : exec .hclkUnlock s = act s fun s => s.whenLocked 1 fun s => s.hclkLoss := rfl

theorem exec_cxlPllUnlock_eq (c : Fin 2) (s : State) : exec (.cxlPllUnlock c) s = act s fun s => s.whenLocked (14 + c.val) fun s => s.cxlPllLoss c := rfl

theorem exec_pciePllUnlock_eq (s : State) : exec .pciePllUnlock s = act s fun s => s.whenLocked 16 fun s => s.pciePll := rfl

section Locked
variable {s : State} {i : Nat} {f : State → State}

theorem State.whenLocked_locked (h : bitOf s.pins.pll i = true) : s.whenLocked i f = f s := if_pos h

/-- A PLL that is not locked cannot lose lock. -/
theorem State.whenLocked_unlocked (h : bitOf s.pins.pll i = false) : s.whenLocked i f = s := by
  simp [State.whenLocked, h]

/-- A PLL that loses lock clears its bit, and its loss is counted and recorded. -/
theorem State.pllLoss_locked (h : bitOf s.pins.pll i = true) :
    s.pllLoss i = ({ s with pins := { s.pins with pll := s.pins.pll - 2 ^ i } }.sat (blkR 1 0x048) 0 32 1).setRg (blkR 1 0x050) (putBit 63 true ||| put 0 i) := by
  simp [State.pllLoss, h]

end Locked

/-- The loss of the PCIe PLL takes a host link down that is up. -/
theorem State.pciePll_up {s : State} (hup : ((s.pllLoss 16).flag 1 4).hostUp = true) : s.pciePll = ((s.pllLoss 16).flag 1 4).hostDown.flag 8 2 := if_pos hup

theorem State.pciePll_down {s : State} (hup : ((s.pllLoss 16).flag 1 4).hostUp = false) : s.pciePll = (s.pllLoss 16).flag 1 4 :=
  if_neg (Bool.eq_false_iff.1 hup)

/-- Settles O47: the wakes act on what their pin, register or interrupt names, an interval reports above 2,800 W, and a loss acts where what is lost was there. -/
theorem wakesSupplyAndClocks : Obligations.WakesSupplyAndClocks := by
  refine ⟨?_, ?_⟩
  · intro s low v regs p volts amps halive hu
    have ibi {t : State} (h : s.ibi regs = t) := answers_of (exec_i3cIbi_eq regs s) halive h
    refine ⟨answers_of (exec_wakePin_eq low s) halive rfl, answers_of (exec_pwrWakeSwWrite_eq v s) halive rfl, fun ho => ibi (State.ibi_wakes ho regs),
      fun ho hm => ibi (State.ibi_answers ho hm regs), ?_⟩
    intro cfg cap duty pins r
    exact answers_of (exec_powerCapInterval_eq p volts amps s) halive (State.capInterval_eq hu p volts amps)
  · intro s c halive lost
    have loses {i : Nat} {f : State → State} {ci : Instr} {t : State} (hex : exec ci s = act s fun s => s.whenLocked i f)
        (hl : bitOf s.pins.pll i = true) (h : f s = t) : Answers ci s t :=
      answers_of hex halive ((State.whenLocked_locked hl).trans h)
    have keeps {i : Nat} {f : State → State} {ci : Instr} (hex : exec ci s = act s fun s => s.whenLocked i f)
        (hl : bitOf s.pins.pll i = false) : Answers ci s s :=
      answers_of hex halive (State.whenLocked_unlocked hl)
    have hlost (i : Nat) (hl : bitOf s.pins.pll i = true) : lost i = s.pllLoss i := (State.pllLoss_locked hl).symm
    refine ⟨answers_of (exec_inUndervolt_eq s) halive rfl, answers_of (exec_inOvervolt_eq s) halive rfl,
      fun hr => answers_of (exec_refclkLoss_eq s) halive (if_pos hr),
      fun hr => answers_of (exec_refclkLoss_eq s) halive (if_neg (Bool.eq_false_iff.1 hr)),
      fun hl => loses (exec_rootUnlock_eq s) hl ?_, fun hl => loses (exec_hclkUnlock_eq s) hl ?_, fun hl => loses (exec_cxlPllUnlock_eq c s) hl ?_,
      fun hl hup => loses (exec_pciePllUnlock_eq s) hl ?_, fun hl hup => loses (exec_pciePllUnlock_eq s) hl ?_, ?_, rfl, rfl, rfl, rfl⟩
    · rw [hlost 0 hl]; rfl
    · rw [hlost 1 hl]; rfl
    · rw [hlost _ hl]; rfl
    · rw [hlost 16 hl] at hup ⊢; exact State.pciePll_up hup
    · rw [hlost 16 hl] at hup ⊢; exact State.pciePll_down hup
    · simp only [List.forall_mem_cons]
      exact ⟨keeps (exec_rootUnlock_eq s), keeps (exec_hclkUnlock_eq s), keeps (exec_cxlPllUnlock_eq c s), keeps (exec_pciePllUnlock_eq s), List.forall_mem_nil _⟩

end Sys2Proof.Machine
end

section
/-!
SUPPORT. The crystallizer (chapter 12): one vector of a pass, the ends of the passes and the decision between them, the write of a step counter, and the faults of a
crystallizer's tables and of a spindle; and from it the statements about them.
-/
namespace Sys2Proof.Machine

/-! ## What each command of a crystallizer acts with -/

theorem exec_cryVector_eq (t : Fin 8) (upd : Bool) (m : Fin 3) (ups : Upsets) (s : State) :
    exec (.cryVector t upd m ups) s = act s fun s => (s.upset ups).cryVector t upd m := rfl

theorem exec_cryNormPassDone_eq (t : Fin 8) (s : State) : exec (.cryNormPassDone t) s = act s fun s => s.cryNormDone t := rfl

theorem exec_cryNormDecide_eq (t : Fin 8) (g : Fin 8192) (s : State) : exec (.cryNormDecide t g) s = act s fun s => s.cryDecide t g := rfl

theorem exec_cryUpdatePassDone_eq (t : Fin 8) (s : State) : exec (.cryUpdatePassDone t) s = act s fun s => s.cryUpdateDone t := rfl

theorem exec_cryStepWrite_eq (t : Fin 8) (g : Fin 8192) (v : W64) (s : State) : exec (.cryStepWrite t g v) s = act s fun s => s.cryStepWrite t g v := rfl

theorem exec_cryTableParity_eq (t : Fin 8) (s : State) : exec (.cryTableParity t) s = act s fun s => s.cryParity t := rfl

theorem exec_seqParity_eq (t : Fin 8) (s : State) : exec (.seqParity t) s = act s fun s => s.seqParity t := rfl

theorem exec_spindleErrorTeardown_eq (t : Fin 8) (s : State) : exec (.spindleErrorTeardown t) s = act s fun s => s.errorTeardown t := rfl

/-! ## The elements of a vector (R273, R285) -/

@[simp] theorem State.upset_cryPass (s : State) (l : Upsets) (t : Nat) (upd : Bool) : (s.upset l).cryPass t upd = s.cryPass t upd :=
  State.upset_keeps (·.cryPass t upd) (fun _ _ => rfl) s l

/-- A mismatch of the residue is counted and reported. -/
def State.residueTold (s : State) (t : Nat) : State :=
  (s.sat (blkR (cryBlk t) 0x098) 0 32 1).flag (cryBlk t) 0 { ctx := some (s.tile t).ctx }

section Residue
variable {w : State} (hu : w.uninjected = true) (t : Nat)
include hu

theorem State.cryResidue_passes : w.cryResidue t 0 = (false, w) := by
  simp [State.cryResidue, w.takeInject_uninjected hu]

theorem State.cryResidue_recomputes : w.cryResidue t 1 = (false, w.residueTold t) := by
  simp [State.cryResidue, w.takeInject_uninjected hu, State.residueTold]

theorem State.cryResidue_fails : w.cryResidue t 2 = (true, w.residueTold t) := by
  simp [State.cryResidue, w.takeInject_uninjected hu, State.residueTold]

end Residue

theorem cryVals_length (size k : Nat) (bs : List Byte) : (cryVals size k bs).length = k := by simp [cryVals]

/-- A vector's inputs that are read hold one master an element. -/
theorem State.cryInputs_length {s w : State} {t at_ k : Nat} {e : CryEntry} {z : List Fp × List Fp × List Fp × List Fp}
    (h : s.cryInputs t at_ k e = (some z, w)) : z.2.2.2.length = k := by
  unfold State.cryInputs at h
  split at h
  · simp at h
  split at h
  · simp at h
  split at h
  · simp at h
  split at h
  · simp at h
  obtain ⟨hz, _⟩ := Prod.mk.inj h
  rw [← Option.some.inj hz]
  exact cryVals_length _ _ _

section Elems
variable {s w r : State} {t m : Nat} {e : CryEntry} {y : CryGrp} {z : List Fp × List Fp × List Fp × List Fp} (hu : s.uninjected = true)
include hu

theorem State.cryElems_unread (hin : s.cryInputs t y.at_ (min 48 (e.n - y.at_)) e = (none, w)) : s.cryElems t e y m = (.error (2, false), w) := by
  simp [State.cryElems, s.takeInject_uninjected hu, hin]

variable (hin : s.cryInputs t y.at_ (min 48 (e.n - y.at_)) e = (some z, w))
include hin

theorem State.cryElems_mismatch (hres : w.cryResidue t m = (true, r)) : s.cryElems t e y m = (.error (1, decide (m < 2)), r) := by
  simp [State.cryElems, s.takeInject_uninjected hu, hin, hres]

theorem State.cryElems_computed (hres : w.cryResidue t m = (false, r)) :
    s.cryElems t e y m = (.ok (z.2.2.2, cryVec e (fp32.decode y.c1) (fp32.decode y.c2) z (min 48 (e.n - y.at_))), r) := by
  simp [State.cryElems, s.takeInject_uninjected hu, hin, hres]

end Elems

/-! ## A vector of a pass (R279, R283 to R285) -/

section Vector
variable {s w r : State} {t m g : Nat} {upd : Bool} {e : CryEntry} {y : CryGrp} {ws : List Fp} {vec : List CryElem}

/-- A pass fails at a vector: the norm pass ends with its mark, the update pass stops part-way. -/
def State.cryFails (s : State) (upd : Bool) (t g : Nat) (e : CryEntry) (y : CryGrp) (d : Nat) (inj : Bool) : State :=
  if upd then s.cryUpdBad t g y.at_ d inj else s.cryNormBad t g e d inj

variable (hp : s.cryPass t upd = some (g, y, e)) (hn : y.at_ < e.n)
include hp hn

theorem State.cryVector_pass : s.cryVector t upd m = if upd then s.cryUpdVec t g e y m else s.cryNormVec t g e y m := by
  simp [State.cryVector, hp, Nat.not_le.2 hn]

theorem State.cryVector_fails {d : Nat} {inj : Bool} (h : s.cryElems t e y m = (.error (d, inj), r)) :
    s.cryVector t upd m = r.cryFails upd t g e y d inj := by
  rw [State.cryVector_pass hp hn, State.cryNormVec, State.cryUpdVec, h]
  rfl

variable (h : s.cryElems t e y m = (.ok (ws, vec), r))
include h

/-- A vector of a norm pass adds its squares to the sums of its lanes. -/
theorem State.cryVector_norm (hupd : upd = false) :
    s.cryVector t upd m = (r.modCryGrp t g fun y => { y with
      at_ := y.at_ + ws.length, sw := addSquares y.sw ws, su := addSquares y.su (vec.map fun a => a.u), bad := y.bad || vec.any CryElem.bad }).progress (cryBlk t) := by
  rw [State.cryVector_pass hp hn, State.cryNormVec, h, hupd]
  rfl

/-- The new masters of a vector. -/
def cryMasters (y : CryGrp) (ws : List Fp) (vec : List CryElem) : List Fp := (ws.zip vec).map fun a => cryW1 (fp32.decode y.s) a.1 a.2.u

/-- What a vector of an update pass writes: m, v, the masters, and the forward blocks that end in it. -/
def cryStores (e : CryEntry) (y : CryGrp) (ws : List Fp) (vec : List CryElem) : List (Nat × List Byte) :=
  let mom := fun (a : Fp) => if e.mom16 then leBytes 2 (bf16.enc a) else leBytes 4 (fp32.enc a)
  [(e.mAddr + e.momSize * y.at_, vec.flatMap fun a => mom a.m1), (e.vAddr + e.momSize * y.at_, vec.flatMap fun a => mom a.v1),
    (e.state + 4 * y.at_, ((cryMasters y ws vec).map fp32.enc).flatMap (leBytes 4))] ++
    (cryForward e y.at_ ws.length (y.tail.map fp32.decode) (cryMasters y ws vec)).1

/-- A vector of an update pass that is written counts its elements, and keeps the masters that the next block needs. -/
def State.cryCounted (s : State) (t g : Nat) (e : CryEntry) (y : CryGrp) (ws : List Fp) (vec : List CryElem) : State :=
  let fwd := cryForward e y.at_ ws.length (y.tail.map fp32.decode) (cryMasters y ws vec)
  ((s.modCryGrp t g fun x => { x with
      at_ := x.at_ + ws.length, flushed := x.flushed + fwd.2.1, ovf := x.ovf + fwd.2.2,
      tail := cryTail e x.at_ ws.length x.tail ((cryMasters y ws vec).map fp32.enc) }).wrap (blkR (cryBlk t) 0x050) 48 ws.length).progress (cryBlk t)

theorem State.cryVector_update (hupd : upd = true) {failed : Bool} (hw : r.cryWrites t (cryStores e y ws vec) = (failed, w)) :
    s.cryVector t upd m = if failed then w.cryFails upd t g e y 2 false else w.cryCounted t g e y ws vec := by
  rw [State.cryVector_pass hp hn, State.cryUpdVec, h, hupd, if_pos rfl]
  dsimp only [cryStores, cryMasters] at hw ⊢
  rw [hw]
  cases failed <;> rfl

end Vector

/-- Settles O40: a vector fails at the first of its reads, its residue and its writes that fails, and else counts in its pass. -/
theorem crystallizerVectors : Obligations.CrystallizerVectors := by
  intro s t upd m ups g y e halive hu hpass hn b go k told fails
  have hux : (s.upset ups).uninjected = true := (s.upset_uninjected ups).trans hu
  have hp : (s.upset ups).cryPass t upd = some (g, y, e) := (s.upset_cryPass ups t upd).trans hpass
  have vector {r : State} (h : (s.upset ups).cryVector t upd m = r) : Answers go s r := answers_of (exec_cryVector_eq t upd m ups s) halive h
  have failed {r : State} {d : Nat} {inj : Bool} (h : (s.upset ups).cryElems t e y m = (.error (d, inj), r)) : Answers go s (fails r d inj) :=
    vector (State.cryVector_fails hp hn h)
  refine ⟨fun w huw => ⟨State.cryResidue_passes huw t, State.cryResidue_recomputes huw t, State.cryResidue_fails huw t⟩,
    fun w hin => failed (State.cryElems_unread hux hin), fun z w r hin hres => failed (State.cryElems_mismatch hux hin hres), fun z w r hin hres => ?_⟩
  intro vec
  have helems : (s.upset ups).cryElems t e y m = (.ok (z.2.2.2, vec), r) := State.cryElems_computed hux hin hres
  have hlen : z.2.2.2.length = k := State.cryInputs_length hin
  refine ⟨fun hupd => ?_, fun hupd => ?_⟩
  · intro sums
    refine vector ((State.cryVector_norm hp hn helems hupd).trans ?_)
    rw [hlen]
  · intro w1 codes mom fwd ws
    have hws : cryStores e y z.2.2.2 vec = ws := by
      simp only [cryStores, hlen]
      rfl
    refine ⟨fun x hx => vector (State.cryVector_update hp hn helems hupd (hws ▸ hx)), fun x hx => ?_⟩
    refine vector ((State.cryVector_update hp hn helems hupd (hws ▸ hx)).trans ?_)
    rw [if_neg Bool.false_ne_true, State.cryCounted, hlen]
    rfl

/-! ## The ends of the passes, and the decision between them (R280, R282 to R284, R286, Table 12-3) -/

section Passes
variable {s : State} {t g : Nat} {y : CryGrp} {e : CryEntry}

theorem State.cryNormDone_starts (hp : s.cryPass t false = some (g, y, e)) (hn : e.n ≤ y.at_) :
    s.cryNormDone t = (s.cryNormStart t g e (normChunk (laneTotal y.sw) (laneTotal y.su) y.bad)).cryKick t := by
  simp [State.cryNormDone, hp, Nat.not_lt.2 hn]

/-- A group whose update pass has ended: its step counter and its counts advance. -/
def State.cryUpdated (s : State) (t g : Nat) (y : CryGrp) : State :=
  let b := cryBlk t
  (((((s.setCryStep t g ((s.cryStep t g).1 + 1, (s.cryStep t g).2)).wrap (blkR b 0x058) 32 1).setRg (blkR b 0x0A8) (BitVec.ofNat 64 y.r)).sat
    (blkR b 0x088) 0 32 y.flushed).sat (blkR b 0x090) 0 32 y.ovf).modCryGrp t g fun y => { y with st := 5 }

section Update
variable (hp : s.cryPass t true = some (g, y, e)) (hn : e.n ≤ y.at_)
include hp hn

theorem State.cryUpdateDone_ends (hm : e.mcast = 0xFFFF) : s.cryUpdateDone t = ((s.cryUpdated t g y).cryEntryDone t g).cryKick t := by
  simp only [State.cryUpdateDone, hp, if_neg (Nat.not_lt.2 hn), if_pos hm]
  rfl

/-- An entry with a multicast starts it. -/
theorem State.cryUpdateDone_multicasts (hm : e.mcast ≠ 0xFFFF) :
    s.cryUpdateDone t = ((s.cryUpdated t g y).startColl
      { tile := t, kind := 1, bytes := cryDesc e.mcast 5 255 7 e.span e.fwdAddr 0, tally := 255, cry := some g }).cryKick t := by
  simp only [State.cryUpdateDone, hp, if_neg (Nat.not_lt.2 hn), if_neg hm]
  rfl

end Update

section Decide
variable {status wn un bad skew : Nat}
variable (hu : s.uninjected = true) (hact : (s.cry t).active = true) (hg : (s.cry t).groups.find g = some y) (he : s.cryEntry t g = some e)
  (hok : s.ok (cryBlk t) = true) (hst : y.st = 2) (hres : y.res = some (status, wn, un, bad, skew))
include hu hact hg he hok hst hres

/-- The result of a norm collective decides its group by the first row of Table 12-3 that applies. -/
theorem State.cryDecide_eq : s.cryDecide t g =
    (if status ≠ 0 then s.crySkip t g 1 0x078 (some 4)
    else if (fp32.decode skew).isZero = false then s.crySkip t g 2 0x068 (some 3)
    else if (fp32.decode bad).isZero = false then s.crySkip t g 3 0x070 (some 5)
    else if (s.cryStep t g).1 = 2 ^ 32 - 1 then s.crySkip t g 4 0x078 (some 6)
    else
      let r := trustRatio e (fp32.decode wn) (fp32.decode un)
      s.modCryGrp t g fun y => { y with st := 3, r := fp64.enc r, s := fp32.enc (r64 ((fp64.decode y.eta).mul r)) }).cryKick t := by
  simp only [State.cryDecide, hg, he, hres, hact, hok, hst, s.takeInject_uninjected hu, Bool.or_false]
  simp

end Decide
end Passes

/-- Settles O41: a pass that has ended goes on to its collective or its multicast, and the decision takes the first row that applies. -/
theorem crystallizerGroupsProceed : Obligations.CrystallizerGroupsProceed := by
  intro s t g y e halive hu x b tau
  refine ⟨fun hp hn => answers_of (exec_cryNormPassDone_eq t s) halive (State.cryNormDone_starts hp hn), ?_, fun hp hn => ?_⟩
  · intro status wn un bad skew hact hg he hok hst hres
    have decide_ {r : State} (h : s.cryDecide t g = r) := answers_of (exec_cryNormDecide_eq t g s) halive h
    have heq := State.cryDecide_eq hu hact hg he hok hst hres
    refine ⟨fun h1 => decide_ ?_, fun h1 h2 => decide_ ?_, fun h1 h2 h3 => decide_ ?_, fun h1 h2 h3 h4 => decide_ ?_, fun h1 h2 h3 h4 => decide_ ?_⟩
    · rw [heq, if_pos h1]
    · rw [heq, if_neg (not_not.2 h1), if_pos h2]
    · rw [heq, if_neg (not_not.2 h1), if_neg (by simp [h2]), if_pos h3]
    · rw [heq, if_neg (not_not.2 h1), if_neg (by simp [h2]), if_neg (by simp [h3]), if_pos h4]
    · rw [heq, if_neg (not_not.2 h1), if_neg (by simp [h2]), if_neg (by simp [h3]), if_neg h4]
  · have done {r : State} (h : s.cryUpdateDone t = r) := answers_of (exec_cryUpdatePassDone_eq t s) halive h
    exact ⟨fun hm => done (State.cryUpdateDone_ends hp hn hm), fun hm => done (State.cryUpdateDone_multicasts hp hn hm)⟩

/-! ## Step counters, table parity and the errors of a spindle (R72, R288, R289) -/

section Faults
variable {s : State} {t : Nat}

section StepWrite
variable {g : Nat} {v : W64}

theorem State.cryStepWrite_off (hd : s.domOn (36 + t) = false) : s.cryStepWrite t g v = s := by
  simp [State.cryStepWrite, hd]

variable (hd : s.domOn (36 + t) = true)
include hd

theorem State.cryStepWrite_free (h : (s.tile t).active = false ∨ (s.ctx (s.tile t).ctx).st = 0) :
    s.cryStepWrite t g v = s.setCryStep t g (v.fld 0 32, v.bit 32) := by
  rcases h with h | h <;> simp [State.cryStepWrite, hd, h]

theorem State.cryStepWrite_open (ha : (s.tile t).active = true) (hc : (s.ctx (s.tile t).ctx).st ≠ 0) : s.cryStepWrite t g v = s.flag (cryBlk t) 9 := by
  simp [State.cryStepWrite, hd, ha, hc]

end StepWrite

/-- A spindle that cannot fail takes no error. -/
theorem State.spnError_cannotFail (h : (s.tile t).canFail = false) (det cause tally : Nat) : s.spnError t det cause tally = s := by
  simp [State.spnError, h]

theorem State.errorTeardown_closes (h6 : (s.tile t).spn = 6) (hc : (s.ctx (s.tile t).ctx).st = 1) (ho : s.dev.osaux = true) :
    s.errorTeardown t = s.teardown (s.tile t).ctx 2 := by
  simp [State.errorTeardown, h6, hc, ho]

theorem State.errorTeardown_other (h : (s.tile t).spn ≠ 6 ∨ (s.ctx (s.tile t).ctx).st ≠ 1) : s.errorTeardown t = s := by
  rcases h with h | h <;> simp [State.errorTeardown, h]

end Faults

/-- Settles O42: each write and each parity error acts where its block is ON or works, and an error closes the open context of its tile. -/
theorem crystallizerAndSpindleFaults : Obligations.CrystallizerAndSpindleFaults := by
  intro s t g v halive x
  have write {r : State} (h : s.cryStepWrite t g v = r) := answers_of (exec_cryStepWrite_eq t g v s) halive h
  have seq {r : State} (h : s.seqParity t = r) := answers_of (exec_seqParity_eq t s) halive h
  have tear {r : State} (h : s.errorTeardown t = r) := answers_of (exec_spindleErrorTeardown_eq t s) halive h
  exact ⟨fun hd h => write (State.cryStepWrite_free hd h), fun hd => write (State.cryStepWrite_off hd),
    fun hd ha hc => write (State.cryStepWrite_open hd ha hc), fun hup => answers_of (exec_cryTableParity_eq t s) halive (if_pos hup),
    fun h => seq (State.spnError_canFail h 7 7 255 false), fun h => seq (State.spnError_cannotFail h 7 7 255),
    fun h6 hc ho => tear (State.errorTeardown_closes h6 hc ho), fun h => tear (State.errorTeardown_other h)⟩

end Sys2Proof.Machine
end

section
/-!
SUPPORT. The harvest of a context (chapter 13): what each phase's end does by the phase that the context is in, what CLEAR leaves, and what the release of a context
changes; and from it the statement about them.
-/
namespace Sys2Proof.Machine

/-! ## What each command of the harvest acts with -/

theorem exec_harvestDrainEnd_eq (c : Fin 64) (s : State) : exec (.harvestDrainEnd c) s = act s fun s => s.drainEnd c := rfl

theorem exec_harvestCrystallizeEnd_eq (c : Fin 64) (s : State) : exec (.harvestCrystallizeEnd c) s = act s fun s => s.crystallizeEnd c := rfl

theorem exec_harvestSettleEnd_eq (c : Fin 64) (s : State) : exec (.harvestSettleEnd c) s = act s fun s => s.settleEnd c := rfl

theorem exec_harvestHoldEnd_eq (c : Fin 64) (s : State) : exec (.harvestHoldEnd c) s = act s fun s => s.holdEnd c := rfl

theorem exec_harvestTimeout_eq (c : Fin 64) (s : State) : exec (.harvestTimeout c) s = act s fun s => s.harvestLate c := rfl

/-! ## The drain and the crystallizers (R293, R294, R296) -/

section Phases
variable {s : State} {c : Nat}

/-- The drain's end fixes step_failed; a failed step counts. -/
def State.drainFixed (s : State) (c : Nat) : State :=
  let x := s.ctx c
  let r := s.setCtx c { x with phase := 2, stepFailed := x.failedInst }
  if x.failedInst then r.sat (devR 0x130) 0 32 1 else r

theorem State.drainEnd_starts (hph : (s.ctx c).phase = 1) (hd : s.drained c = true) :
    s.drainEnd c = (tilesOf (s.ctx c).tiles).foldl (fun w t => w.cryStart t ((s.ctx c).failedInst && (w.rg (devR 0x100)).bit 0)) (s.drainFixed c) := by
  simp only [State.drainEnd, hph, hd, decide_true, Bool.and_true, if_true]
  rfl

theorem State.drainEnd_whole (hph : (s.ctx c).phase = 1) (hd : s.drained c = true) (hf : (s.ctx c).failedInst = false) :
    s.drainEnd c = (tilesOf (s.ctx c).tiles).foldl (fun w t => w.cryStart t false) (s.setCtx c { s.ctx c with phase := 2, stepFailed := false }) := by
  simp only [State.drainEnd_starts hph hd, State.drainFixed, hf, Bool.false_and, Bool.false_eq_true, if_false]

/-- The crystallizers of a failed step skip where HRV_CFG says so. -/
theorem State.drainEnd_failed (hph : (s.ctx c).phase = 1) (hd : s.drained c = true) (hf : (s.ctx c).failedInst = true) :
    s.drainEnd c = (tilesOf (s.ctx c).tiles).foldl (fun w t => w.cryStart t ((w.rg (devR 0x100)).bit 0))
      ((s.setCtx c { s.ctx c with phase := 2, stepFailed := true }).sat (devR 0x130) 0 32 1) := by
  simp only [State.drainEnd_starts hph hd, State.drainFixed, hf, Bool.true_and, if_true]

theorem State.drainEnd_waits (h : (s.ctx c).phase ≠ 1 ∨ s.drained c = false) : s.drainEnd c = s := by
  rcases h with h | h <;> simp [State.drainEnd, h]

theorem State.crystallizeEnd_settles (hph : (s.ctx c).phase = 2) (hdone : ∀ t ∈ tilesOf (s.ctx c).tiles, (s.cry t).st = 3) :
    s.crystallizeEnd c = s.setCtx c { s.ctx c with phase := 3 } := by
  have hall : ((tilesOf (s.ctx c).tiles).all fun t => (s.cry t).st == 3) = true := by simpa using hdone
  simp [State.crystallizeEnd, hph, hall]

/-! ## CLEAR (R295, R301) -/

/-- The packets of a context's harvest that this chip has sent. -/
def State.ownPkt (s : State) (c : Nat) (k : Pkt) : Bool := ofHarvest c (s.ctx c).harvest k && k.src == s.chip

/-- What CLEAR leaves of a context before it looks for a residue. -/
def State.cleared (s : State) (c : Nat) : State :=
  (tilesOf (s.ctx c).tiles).foldl (fun s t => s.modTile t fun y => { y with tallies := [] })
    ((((s.resetGroups c).ratesReset.purge (s.ownPkt c)).sat (devR 0x128) 0 32 (s.countPkts (s.ownPkt c))).setCtx c { s.ctx c with phase := 4 })

/-- Discarding packets arms no injection. -/
theorem State.purge_uninjected (s : State) (f : Pkt → Bool) : (s.purge f).uninjected = s.uninjected := by
  unfold State.purge
  refine foldl_keeps State.uninjected _ (fun w p => ?_) _ _
  unfold State.restIfEmpty
  dsimp only
  split <;> rfl

theorem State.cleared_uninjected (hu : s.uninjected = true) (c : Nat) : (s.cleared c).uninjected = true := by
  refine (foldl_keeps State.uninjected _ ?_ _ _).trans ((State.purge_uninjected _ _).trans hu)
  exact fun _ _ => rfl

/-- What follows CLEAR where nothing is left over: the hold that is owed, that of a test, or the release. -/
def State.clearEnds (s : State) (c : Nat) : State :=
  if s.owesHold c then (s.setCtx c { s.ctx c with phase := 5, held := true }).holdClock c
  else if s.testHolds c then s.setCtx c { s.ctx c with phase := 5 }
  else s.release c

/-- What follows CLEAR where a residue is left: its context stays. -/
def State.residueStays (s : State) (c : Nat) : State :=
  ((s.flag 0 8 { ctx := some c }).setCtx c { (s.flag 0 8 { ctx := some c }).ctx c with residue := true }).faultNames 0 8 c

theorem State.clear_eq (s : State) (c : Nat) :
    s.clear c =
      let d := (s.cleared c).detect 0 8 (s.residueOf c) { ctx := some c }
      if d.1 then (d.2.setCtx c { d.2.ctx c with residue := true }).faultNames 0 8 c else d.2.clearEnds c := rfl

section Settle
variable (hph : (s.ctx c).phase = 3) (hn : s.noInsts (s.cryGroups c) = true) (hu : s.uninjected = true)
include hph hn

theorem State.settleEnd_clears : s.settleEnd c = s.clear c := by
  simp [State.settleEnd, hph, hn]

include hu

theorem State.settleEnd_residue (hres : s.residueOf c = true) : s.settleEnd c = (s.cleared c).residueStays c := by
  rw [State.settleEnd_clears hph hn, State.clear_eq, hres, State.detect_real (State.cleared_uninjected hu c)]
  rfl

theorem State.settleEnd_ends (hres : s.residueOf c = false) : s.settleEnd c = (s.cleared c).clearEnds c := by
  rw [State.settleEnd_clears hph hn, State.clear_eq, hres, State.detect_quiet (State.cleared_uninjected hu c)]
  rfl

end Settle

section Ends

theorem State.clearEnds_owes (h : s.owesHold c = true) : s.clearEnds c = (s.setCtx c { s.ctx c with phase := 5, held := true }).holdClock c := if_pos h

variable (ho : s.owesHold c = false)
include ho

theorem State.clearEnds_test (h : s.testHolds c = true) : s.clearEnds c = s.setCtx c { s.ctx c with phase := 5 } := by
  simp [State.clearEnds, ho, h]

theorem State.clearEnds_releases (h : s.testHolds c = false) : s.clearEnds c = s.release c := by
  simp [State.clearEnds, ho, h]

end Ends

/-! ## The hold and the limit of a harvest (R293, R301) -/

theorem State.holdEnd_releases (hph : (s.ctx c).phase = 5) (hh : (s.ctx c).held = false) (ht : s.testHolds c = false) : s.holdEnd c = s.release c := by
  simp [State.holdEnd, hph, hh, ht]

theorem State.holdEnd_holds (h : (s.ctx c).held = true ∨ s.testHolds c = true) : s.holdEnd c = s := by
  rcases h with h | h <;> simp [State.holdEnd, h]

theorem State.harvestLate_reports (hph : 1 ≤ (s.ctx c).phase) (ht : (s.ctx c).timedOut = false) :
    s.harvestLate c = (s.setCtx c { s.ctx c with timedOut := true }).flag 0 7 { ctx := some c } := by
  simp [State.harvestLate, hph, ht]

/-- A harvest that is late has said so, and one that does not run cannot be. -/
theorem State.harvestLate_once (h : (s.ctx c).phase = 0 ∨ (s.ctx c).timedOut = true) : s.harvestLate c = s := by
  rcases h with h | h <;> simp [State.harvestLate, h]

end Phases

/-! ## The release (R68, Table 13-1) -/

/-- A tile whose context is released: a spindle that was in HARVEST runs from bundle 0, with no loop open and no tally counted. -/
def Tile.released (y : Tile) : Tile := if y.spn = 4 then { y with spn := 1, pc := 0, loops := [], tallies := [], hold := none } else y

theorem Tile.released_released (y : Tile) : y.released.released = y.released := by
  unfold Tile.released
  split <;> simp_all

/-- The release of one tile: its crystallizer is done, and its spindle runs. -/
def State.releaseTile (s : State) (t : Nat) : State :=
  (s.modCry t fun y => { y with st := if y.st = 3 then 0 else y.st, active := false, issued := [], done := [] }).modTile t Tile.released

theorem State.releaseTile_tile (s : State) (t u : Nat) : (s.releaseTile t).tile u = if u = t then (s.tile t).released else s.tile u :=
  State.modTile_tile _ _ _ _

theorem State.releaseTiles_tile (ts : List Nat) (s : State) (u : Nat) :
    (ts.foldl State.releaseTile s).tile u = if u ∈ ts then (s.tile u).released else s.tile u := by
  induction ts generalizing s with
  | nil => rfl
  | cons t ts ih =>
    rw [List.foldl_cons, ih, State.releaseTile_tile]
    by_cases hut : u = t
    · subst hut
      simp [Tile.released_released]
    · simp [hut]

/-- A context that is released: its harvest number advances, and nothing of the harvest is left in it. -/
def Ctx.released (x : Ctx) : Ctx :=
  { x with harvest := (x.harvest + 1) % 2 ^ 32, phase := 0, stepped := 0, failedInst := false, stepFailed := false,
           timedOut := false, held := false, residue := false }

theorem State.release_eq (s : State) (c : Nat) :
    ∃ v, s.release c = (tilesOf (s.ctx c).tiles).foldl State.releaseTile ((s.setCtx c (s.ctx c).released).setRg (devR 0x138) v) := ⟨_, rfl⟩

section Release
variable (s : State) (c : Nat)

theorem State.release_tile (t : Nat) : (s.release c).tile t = if t ∈ tilesOf (s.ctx c).tiles then (s.tile t).released else s.tile t := by
  obtain ⟨v, h⟩ := s.release_eq c
  rw [h]
  exact State.releaseTiles_tile _ _ t

theorem State.release_ctx (d : Nat) : (s.release c).ctx d = if d = c then (s.ctx c).released else s.ctx d := by
  obtain ⟨v, h⟩ := s.release_eq c
  rw [h]
  refine (foldl_keeps (State.ctx · d) _ ?_ _ _).trans (State.setCtx_ctx _ _ _ _)
  exact fun _ _ => rfl

theorem State.release_keeps {β : Type} (P : State → β) (hr : ∀ t : State, ∀ u, P (t.releaseTile u) = P t)
    (hc : ∀ (t : State) d x o v, P ((t.setCtx d x).setRg o v) = P t) : P (s.release c) = P s := by
  obtain ⟨v, h⟩ := s.release_eq c
  rw [h]
  exact (foldl_keeps P _ hr _ _).trans (hc _ _ _ _ _)

end Release

/-- Settles O43: each end of a phase acts where the context is in that phase, and the release advances the context and runs its spindles. -/
theorem harvestRunsItsPhases : Obligations.HarvestRunsItsPhases := by
  refine ⟨?_, ?_⟩
  · intro s c halive hu x ts two own r
    have drain {t : State} (h : s.drainEnd c = t) := answers_of (exec_harvestDrainEnd_eq c s) halive h
    have settle {t : State} (h : s.settleEnd c = t) := answers_of (exec_harvestSettleEnd_eq c s) halive h
    have hold {t : State} (h : s.holdEnd c = t) := answers_of (exec_harvestHoldEnd_eq c s) halive h
    have late {t : State} (h : s.harvestLate c = t) := answers_of (exec_harvestTimeout_eq c s) halive h
    have hr : r = s.cleared c := rfl
    refine ⟨fun hph hd => ⟨fun hf => drain (State.drainEnd_whole hph hd hf), fun hf => drain (State.drainEnd_failed hph hd hf)⟩,
      fun h => drain (State.drainEnd_waits h),
      fun hph hdone => answers_of (exec_harvestCrystallizeEnd_eq c s) halive (State.crystallizeEnd_settles hph hdone),
      fun hph hn => ⟨fun hres => settle ?_, fun hres ho => settle ?_, fun hres ho ht => settle ?_, fun hres ho ht => settle ?_⟩,
      fun hph hh ht => hold (State.holdEnd_releases hph hh ht), fun h => hold (State.holdEnd_holds h),
      fun hph ht => late (State.harvestLate_reports hph ht), fun h => late (State.harvestLate_once h)⟩
    · rw [State.settleEnd_residue hph hn hu hres, hr]; rfl
    · rw [State.settleEnd_ends hph hn hu hres, ← hr, State.clearEnds_owes ho]
    · rw [State.settleEnd_ends hph hn hu hres, ← hr, State.clearEnds_test ho ht]
    · rw [State.settleEnd_ends hph hn hu hres, ← hr, State.clearEnds_releases ho ht]
  · intro s c x r
    have hctx : r.ctx c = x.released := (s.release_ctx c c).trans (if_pos rfl)
    refine ⟨by rw [hctx]; rfl, by rw [hctx]; rfl, by rw [hctx]; rfl, by rw [hctx]; rfl, fun t ht hspn => ?_, fun t ht => ?_, fun d hd => ?_, ?_, ?_⟩
    · have htile : r.tile t = { s.tile t with spn := 1, pc := 0, loops := [], tallies := [], hold := none } :=
        (s.release_tile c t).trans ((if_pos ht).trans (if_pos hspn))
      refine ⟨by rw [htile], by rw [htile], by rw [htile], fun k => ?_⟩
      rw [State.tally, htile]
      rfl
    · exact (s.release_tile c t).trans (if_neg ht)
    · exact (s.release_ctx c d).trans (if_neg hd)
    · exact s.release_keeps c State.mem (fun _ _ => rfl) fun _ _ _ _ _ => rfl
    · exact s.release_keeps c State.ports (fun _ _ => rfl) fun _ _ _ _ _ => rfl

end Sys2Proof.Machine
end

section
/-!
SUPPORT. Hangs, the reset ladder, the device reset and the self-tests (chapter 15): what each of these commands does by the block, the device or the test that it finds;
and from it the statements about them.
-/
namespace Sys2Proof.Machine

/-! ## What each command of the ladder acts with -/

theorem exec_hang_eq (b : Fin 152) (s : State) : exec (.hang b) s = act s fun s => s.hang b := rfl

theorem exec_devHeartbeat_eq (s : State) : exec .devHeartbeat s = act s fun s => s.progress 0 := rfl

theorem exec_engineResetDone_eq (b : Fin 152) (ok : Bool) (s : State) : exec (.engineResetDone b ok) s = act s fun s => s.resetDone b ok := rfl

theorem exec_resetWindowExpiry_eq (b : Fin 152) (s : State) : exec (.resetWindowExpiry b) s = act s fun s => s.resetLate b := rfl

theorem exec_devInjectArmWrite_eq (v : W64) (s : State) : exec (.devInjectArmWrite v) s = act s fun s => s.armWrite v := rfl

/-! ## Hangs (R335) -/

section Hang
variable {s : State} {b : Nat}

/-- A window that does not count, or a block that cannot hang. -/
theorem State.hang_other (h : (s.rg (blkR b 0x030)).fld 0 32 = 0 ∨ s.inReset b = true ∨ s.domOn (blkDom b) = false ∨ s.working b = false ∨ (s.blk b).hung = true) :
    s.hang b = s := by
  rcases h with h | h | h | h | h <;> simp [State.hang, h]

section Hangs
variable (hw : (s.rg (blkR b 0x030)).fld 0 32 ≠ 0) (hr : s.inReset b = false) (hd : s.domOn (blkDom b) = true) (hwork : s.working b = true)
  (hh : (s.blk b).hung = false)
include hw hr hd hwork hh

theorem State.hang_device (h0 : b = 0) : s.hang b = s.flag 0 11 := by
  subst h0
  simp [State.hang, hw, hr, hd, hwork, hh]

/-- A block that hangs is recorded, and asks for step 1. -/
theorem State.hang_block (h0 : b ≠ 0) (hdown : s.dev.down = false) :
    s.hang b = ((((s.setBlk b { s.blk b with hung := true }).capture
      { kind := 1, code := 0x3F, blk := b, inst := 0, sev := 3, detail := put 0 (s.blk b).progress, live := true }).wantVec b).wantStep b 1) := by
  simp [State.hang, hw, hr, hd, hwork, hh, h0, hdown, State.capture]

end Hangs
end Hang

/-! ## The end of step 1 (R336) -/

/-- DEV_RESET_LAST and the report of a step 1 that ends. -/
def State.stepTold (s : State) (b t result : Nat) : State :=
  (s.setRg (devR 0x160) (resetLast b 1 result (s.cclk - t))).tell (.recoveryReport s.chip b 1 result)

/-- A step 1 that has succeeded counts, and its block works again. -/
def State.stepDone (s : State) (b t : Nat) : State :=
  let w := ((s.stepTold b t 1).sat (devR 0x1B8) 0 16 1).mend b
  (w.setBlk b { w.blk b with step := .idle, hung := false, okStep := some (1, w.cclk, s.cclk - t) }).afterReset b

/-- A step 1 that is late or has failed its self-check starts step 2. -/
def State.stepLost (s : State) (b t result : Nat) : State :=
  ((s.stepTold b t result).setBlk b { (s.stepTold b t result).blk b with step := .idle }).cycleStart b

section Step1
variable {s : State} {b t : Nat} (hk : (s.blk b).step = .engine t)
include hk

theorem State.stepEnds_done : s.stepEnds b 1 = s.stepDone b t := by
  simp only [State.stepEnds, hk]
  rfl

theorem State.stepEnds_lost {result : Nat} (hr : result ≠ 1) : s.stepEnds b result = s.stepLost b t result := by
  simp only [State.stepEnds, hk, if_neg hr]
  rfl

/-- The engine resets that end together end one after another, each where it runs. -/
theorem State.engineEnds_mates {result : Nat} {f : State → Nat → State} (hf : ∀ (w : State) m u, (w.blk m).step = .engine u → f w m = w.stepEnds m result)
    (hn : ∀ (w : State) m, (∀ u, (w.blk m).step ≠ .engine u) → f w m = w) : s.engineEnds b result = (s.stepMates b).foldl f s := by
  simp only [State.engineEnds, hk]
  congr 1
  funext w m
  split
  · exact (hf w m _ ‹_›).symm
  · exact (hn w m ‹_›).symm

end Step1

theorem State.engineEnds_idle {s : State} {b : Nat} (hk : (s.blk b).step = .idle) (result : Nat) : s.engineEnds b result = s := by
  simp only [State.engineEnds, hk]

/-! ## The blocks whose steps end together (R172) -/

theorem pageOf_portB {p : Nat} (hp : p < 48) : pageOf (portB p) = ⟨.port, p⟩ := by
  simp only [pageOf, portB]
  rw [if_neg (by omega), if_neg (by omega), if_neg (by omega), if_neg (by omega), if_pos (by omega)]
  simp

/-- Every page of a port is the block of one of the 48 ports. -/
theorem port_of_kind : ∀ b : Fin 152, (pageOf b).kind = .port → 24 ≤ b.val ∧ b.val < 72 := by decide

theorem State.stepMates_port (s : State) {p : Nat} (hp : p < 48) :
    s.stepMates (portB p) = if bitOf s.pins.pll (2 + p / 4) then [portB p] else (List.range 4).map fun j => portB (p / 4 * 4 + j) := by
  unfold State.stepMates
  rw [pageOf_portB hp]
  cases h : bitOf s.pins.pll (2 + p / 4) <;> simp [h]

theorem State.stepMates_other (s : State) (b : Fin 152) (h : ∀ p, p < 48 → b.val ≠ portB p) : s.stepMates b = [b.val] := by
  have hkind : (pageOf b).kind ≠ .port := by
    intro hk
    obtain ⟨hlo, hhi⟩ := port_of_kind b hk
    exact h (b - 24) (by omega) (by simp only [portB]; omega)
  simp [State.stepMates, hkind]

/-! ## DEV_INJECT_ARM (R344) -/

theorem State.armWrite_refused {s : State} {v : W64} (hv : v.bit 0 = true) (hq : s.quiescent = false) : s.armWrite v = s.flag 0 12 := by
  simp [State.armWrite, hv, hq]

theorem State.armWrite_stores {s : State} {v : W64} (h : v.bit 0 = false ∨ s.quiescent = true) : s.armWrite v = s.setRg (devR 0x190) (v &&& 1) := by
  rcases h with h | h <;> simp [State.armWrite, h]

/-- Settles O49: a hang is recorded where the block can hang, and a step 1 that runs ends with its mates, each by its result. -/
theorem ladderSteps : Obligations.LadderSteps := by
  intro s b ok v halive k win
  have hang {t : State} (h : s.hang b = t) := answers_of (exec_hang_eq b s) halive h
  have ends {ok : Bool} {t : State} (h : s.engineEnds b (if ok then 1 else 3) = t) := answers_of (exec_engineResetDone_eq b ok s) halive h
  have late {t : State} (h : s.engineEnds b 2 = t) := answers_of (exec_resetWindowExpiry_eq b s) halive h
  have arm {t : State} (h : s.armWrite v = t) := answers_of (exec_devInjectArmWrite_eq v s) halive h
  refine ⟨answers_of (exec_devHeartbeat_eq s) halive rfl, fun hw hr hd hwork hh => ⟨fun h0 => hang (State.hang_device hw hr hd hwork hh h0),
      fun h0 hdown => hang (State.hang_block hw hr hd hwork hh h0 hdown)⟩, fun h => hang (State.hang_other h), ?_,
    fun hk => ⟨ends (State.engineEnds_idle hk _), late (State.engineEnds_idle hk 2)⟩,
    fun hv hq => arm (State.armWrite_refused hv hq), fun h => arm (State.armWrite_stores h)⟩
  intro told good bad mates
  refine ⟨fun p hp hb => ?_, fun h => s.stepMates_other b h, fun t hk => ?_⟩
  · simp only [mates, hb]
    exact s.stepMates_port hp
  · have hgood : s.engineEnds b 1 = mates.foldl good s := by
      refine State.engineEnds_mates hk (fun w m u hm => ?_) fun w m hm => ?_
      · simp only [good, hm]
        exact (State.stepEnds_done hm).symm
      · cases hs : (w.blk m).step with
        | engine u => exact absurd hs (hm u)
        | idle => simp [good, hs]
        | cycle u => simp [good, hs]
    have hbad (result : Nat) (hne : result ≠ 1) : s.engineEnds b result = mates.foldl (bad result) s := by
      refine State.engineEnds_mates hk (fun w m u hm => ?_) fun w m hm => ?_
      · simp only [bad, hm]
        exact (State.stepEnds_lost hm hne).symm
      · cases hs : (w.blk m).step with
        | engine u => exact absurd hs (hm u)
        | idle => simp [bad, hs]
        | cycle u => simp [bad, hs]
    exact ⟨ends hgood, ends (hbad 3 (by decide)), late (hbad 2 (by decide))⟩

/-! ## What the commands of the device reset act with -/

theorem exec_engineResetReq_eq (b : Fin 256) (s : State) : exec (.engineResetReq b) s = act s fun s => s.engineReq b := rfl

theorem exec_domainCycleReq_eq (b : Fin 256) (s : State) : exec (.domainCycleReq b) s = act s fun s => s.cycleReq b := rfl

theorem exec_deviceResetReq_eq (s : State) : exec .deviceResetReq s = act s fun s => s.deviceReq 0 := rfl

theorem exec_deviceResetHoldEnd_eq (s : State) : exec .deviceResetHoldEnd s = act s State.holdOver := rfl

theorem exec_deviceResetPowerCycle_eq (clear : Bool) (s : State) :
    exec (.deviceResetPowerCycle clear) s = act s fun s => s.powerCycle clear := rfl

theorem exec_deviceResetRetrainDone_eq (s : State) : exec .deviceResetRetrainDone s = act s State.retrained := rfl

theorem exec_deviceReady_eq (s : State) : exec .deviceReady s = act s State.deviceReady := rfl

/-! ## The steps that software asks for (R339) -/

/-- A step by software runs on a block that exists, at S3 or in a quiescent device, while it is in no step. -/
def State.mayStep (s : State) (b : Nat) : Prop := b ≤ 151 ∧ (s.inS3 b = true ∨ s.quiescent = true) ∧ (s.blk b).step = .idle

section Request
variable {s : State} {b : Nat}

/-- The refusal that the requests of R339 test for is that the block may not step. -/
theorem State.mayStep_iff : s.mayStep b ↔ (151 < b || !(s.inS3 b || s.quiescent) || (s.blk b).step != .idle) = false := by
  simp only [State.mayStep, Bool.or_eq_false_iff, decide_eq_false_iff_not, Nat.not_lt, Bool.not_eq_false', Bool.or_eq_true, bne_eq_false_iff_eq, and_assoc]

theorem State.not_mayStep_iff : ¬s.mayStep b ↔ (151 < b || !(s.inS3 b || s.quiescent) || (s.blk b).step != .idle) = true := by
  rw [State.mayStep_iff, Bool.not_eq_false]

theorem State.engineReq_runs (h : s.mayStep b) : s.engineReq b = s.engineStart b := by
  unfold State.engineReq
  rw [State.mayStep_iff.1 h]
  rfl

theorem State.engineReq_refused (h : ¬s.mayStep b) : s.engineReq b = s.flag 0 12 := by
  unfold State.engineReq
  rw [State.not_mayStep_iff.1 h]
  rfl

theorem State.cycleReq_runs (h : s.mayStep b) (hd : blkDom b ≠ 0) : s.cycleReq b = s.cycleStart b := by
  unfold State.cycleReq
  rw [State.mayStep_iff.1 h, decide_eq_false hd]
  rfl

theorem State.cycleReq_refused (h : ¬s.mayStep b ∨ blkDom b = 0) : s.cycleReq b = s.flag 0 12 := by
  rcases h with h | h
  · unfold State.cycleReq
    rw [State.not_mayStep_iff.1 h]
    rfl
  · simp [State.cycleReq, h]

end Request

/-! ## The phases of the device reset (R340, Table 15-6) -/

/-- The device reset moves to a phase. -/
def State.toPhase (s : State) (n : Nat) : State := { s with dev := { s.dev with phase := n } }

section Phases
variable {s : State}

theorem State.deviceReq_up (h : s.dev.down = false) : s.deviceReq 0 = s.s4 0 0 true := by
  simp [State.deviceReq, h]

/-- In the hold of phase 2 a request ends it where only software does, and the timer where it does. -/
theorem State.deviceReq_held (h : s.dev.down = true) (hp : s.dev.phase = 2) :
    s.deviceReq 0 = if (s.rg (devR 0x150)).bit 32 then s else s.toPhase 3 := by
  cases ha : (s.rg (devR 0x150)).bit 32 <;> simp [State.deviceReq, h, hp, ha, State.toPhase]

theorem State.holdOver_held (h : s.dev.down = true) (hp : s.dev.phase = 2) :
    s.holdOver = if (s.rg (devR 0x150)).bit 32 then s.toPhase 3 else s := by
  cases ha : (s.rg (devR 0x150)).bit 32 <;> simp [State.holdOver, h, hp, ha, State.toPhase]

theorem State.powerCycle_due (h : s.dev.down = true) (hp : s.dev.phase = 3) (clear : Bool) :
    s.powerCycle clear = if clear then s.deviceCycle else s := by
  simp [State.powerCycle, h, hp]

theorem State.retrained_due (h : s.dev.down = true) (hp : s.dev.phase = 4) : s.retrained = s.toPhase 5 := by
  simp [State.retrained, h, hp, State.toPhase]

section Up
variable (h : s.dev.down = false)
include h

theorem State.holdOver_up : s.holdOver = s := by simp [State.holdOver, h]

theorem State.powerCycle_up (clear : Bool) : s.powerCycle clear = s := by simp [State.powerCycle, h]

theorem State.retrained_up : s.retrained = s := by simp [State.retrained, h]

theorem State.deviceReady_up : s.deviceReady = s := by simp [State.deviceReady, h]

end Up

theorem State.planReg_none (h : s.hst.plan = none) : s.planReg = 0 := by
  simp [State.planReg, h]

end Phases

/-- The device works again: the state of DEVICE_READY before its registers and its message. -/
def State.works (s : State) : State := { s with dev := { s.dev with down := false, phase := 0, romRestart := false, resets := s.dev.resets + 1 } }

/-- DEV_RESET_LAST, the count of step 3 and the note of a device that is ready without a plan. -/
def State.readyNoted (s : State) (dur : Nat) : State :=
  ((s.works.setRg (devR 0x160) (resetLast ((s.rg (devR 0x168)).fld 8 8) 3 1 dur)).sat (devR 0x1B8) 32 16 1).note 0 7 0

theorem State.note_hst (s : State) (b code : Nat) (detail : W64) : (s.note b code detail).hst = s.hst := by
  unfold State.note State.capture
  split <;> rfl

/-- The end of the device reset of a device with no plan. -/
theorem State.deviceReady_noPlan {s : State} (h : s.dev.down = true) (hp : s.dev.phase = 5) (ho : s.dev.osaux = true) (hpl : s.hst.plan = none) :
    s.deviceReady = (s.readyNoted (s.cclk - s.dev.s4At)).tell
      (.deviceReady (s.readyNoted (s.cclk - s.dev.s4At)).chip ((s.readyNoted (s.cclk - s.dev.s4At)).hst.fw.elim 0 Fw.version) 0 (s.cclk - s.dev.s4At)) := by
  have hr : (s.readyNoted (s.cclk - s.dev.s4At)).hst.plan = none := (congrArg Hst.plan (State.note_hst _ _ _ _)).trans hpl
  have hp0 (t : State) (ht : t.hst.plan = none) : t.planReg = 0 := State.planReg_none ht
  unfold State.deviceReady
  rw [if_pos (by simp [h, hp, ho])]
  extract_lets dur dev s1 s2 s3 s4
  have h2 : s2 = s.works := if_neg (by simp [s1, hpl])
  have h3 : s3 = s.works.setRg (devR 0x160) (resetLast ((s.rg (devR 0x168)).fld 8 8) 3 1 dur) := by simp only [s3, h2]; rfl
  have h4 : s4 = s.readyNoted dur := by
    simp only [s4, h3, hp0 (s.works.setRg _ _) hpl]
    rfl
  rw [h4, hp0 _ hr]
  cases (s.readyNoted dur).hst.fw <;> rfl

/-! ## What the power cycle of the device reset leaves (R341) -/

/-- What a power cycle of the device reset fixes beside the registers and the domains. -/
def State.remains (s : State) :=
  ((s.mem, s.ctxs, s.tiles, s.arrs, s.ports, s.grps), (s.insts, s.img, s.blks, s.rcd), (s.hst.plan, s.dev.phase, s.dev.down))

theorem State.remains_rootLock (s : State) : s.rootLock.remains = s.remains := rfl

theorem State.remains_clearSlot (s : State) (k : Nat) : (s.clearSlot k).remains = s.remains :=
  State.clearSlot_keeps State.remains (fun _ _ _ => rfl) (fun _ _ _ => rfl) (fun _ _ => rfl) s k

theorem State.remains_vote (s : State) (k v : Nat) (ds : List Nat) : (s.vote k v ds).remains = s.remains :=
  State.vote_keeps State.remains (fun _ _ _ => rfl) (fun _ _ _ => rfl) (fun _ _ => rfl) s k v ds

/-- The part that stays where the management cores do not restart. -/
theorem State.deviceCycle_remains {s : State} (h : s.dev.romRestart = false) :
    s.deviceCycle.remains = (([], [], [], [], [], []), ([], none, [], { s.rcd with epoch := (s.rcd.epoch + 1) % 256 }), (s.hst.plan, 4, s.dev.down)) := by
  unfold State.deviceCycle
  extract_lets rom kept hst pins recorder dev t t1 t2
  have hrom : rom = false := h
  have h1 : t1.remains = t.remains := by
    simp only [t1]
    split
    · rfl
    · exact t.remains_rootLock
  have h2 : t2.remains = t1.remains := by
    simp only [t2]
    split
    · rfl
    · exact t1.remains_clearSlot 5
  have ht : t.remains = (([], [], [], [], [], []), ([], none, [], { s.rcd with epoch := (s.rcd.epoch + 1) % 256 }), (s.hst.plan, 4, s.dev.down)) := by
    simp only [State.remains, t, hst, kept, hrom]
    rfl
  rw [hrom, if_neg Bool.false_ne_true]
  split
  · rw [State.remains_vote, h2, h1, ht]
  · rw [h2, h1, ht]

/-- Settles O50: a step by software runs where the block may step, each phase of the device reset moves to the next where it is due, and what its power cycle leaves is
what the reset of every other domain and register leaves. -/
theorem deviceResetPhases : Obligations.DeviceResetPhases := by
  refine ⟨fun s b clear halive => ?_, fun s h => ?_⟩
  · intro may auto phase
    have engine {t : State} (h : s.engineReq b = t) := answers_of (exec_engineResetReq_eq b s) halive h
    have cycle {t : State} (h : s.cycleReq b = t) := answers_of (exec_domainCycleReq_eq b s) halive h
    have device {t : State} (h : s.deviceReq 0 = t) := answers_of (exec_deviceResetReq_eq s) halive h
    have hold {t : State} (h : s.holdOver = t) := answers_of (exec_deviceResetHoldEnd_eq s) halive h
    have power (c : Bool) {t : State} (h : s.powerCycle c = t) := answers_of (exec_deviceResetPowerCycle_eq c s) halive h
    have retrain {t : State} (h : s.retrained = t) := answers_of (exec_deviceResetRetrainDone_eq s) halive h
    have ready {t : State} (h : s.deviceReady = t) := answers_of (exec_deviceReady_eq s) halive h
    refine ⟨fun h => engine (State.engineReq_runs h), fun h hd => cycle ((State.cycleReq_runs h hd).trans (if_neg hd)),
      fun h => ⟨engine (State.engineReq_refused h), cycle (State.cycleReq_refused (.inl h))⟩, fun h => cycle (State.cycleReq_refused (.inr h)),
      fun h => device (State.deviceReq_up h), fun h hp => ⟨fun ha => ?_, fun ha => ?_⟩,
      fun h hp => ⟨power true (State.powerCycle_due h hp true), power false (State.powerCycle_due h hp false)⟩,
      fun h hp => retrain (State.retrained_due h hp), fun h hp ho hpl => ready (State.deviceReady_noPlan h hp ho hpl), fun h => ?_⟩
    · exact ⟨device ((State.deviceReq_held h hp).trans (if_neg (Bool.not_eq_true _ ▸ ha))), hold ((State.holdOver_held h hp).trans (if_neg (Bool.not_eq_true _ ▸ ha)))⟩
    · exact ⟨hold ((State.holdOver_held h hp).trans (if_pos ha)), device ((State.deviceReq_held h hp).trans (if_pos ha))⟩
    · simp only [List.forall_mem_cons]
      exact ⟨hold (State.holdOver_up h), power clear (State.powerCycle_up h clear), retrain (State.retrained_up h), ready (State.deviceReady_up h), by simp⟩
  · have hr := State.deviceCycle_remains h
    simpa only [State.remains, Prod.mk.injEq, and_assoc] using hr

/-! ## The self-tests (R346, R347) -/

/-- DEV_TEST_STATUS takes a new request. -/
def State.testAsked (s : State) (n inst ctx : Nat) : State := { s with dev := { s.dev with test := { code := n, inst := inst, ctx := ctx } } }

section Request
variable {s : State} {n inst ctx : Nat} {tag : Bool}

theorem State.testReq_busy (h : s.dev.test.state = 1 ∨ s.dev.test.state = 2) :
    s.testReq n inst tag ctx = { s with dev := { s.dev with test := { s.dev.test with status := 2 } } } := by
  rcases h with h | h <;> simp [State.testReq, h]

section Asked
variable (h1 : s.dev.test.state ≠ 1) (h2 : s.dev.test.state ≠ 2)
include h1 h2

theorem State.testReq_noTarget (h : testBlks n inst = []) : s.testReq n inst tag ctx = (s.testAsked n inst ctx).testEnd 5 0 := by
  simp [State.testReq, h1, h2, h, State.testAsked]

section Target
variable {b : Nat} {bs : List Nat} (hb : testBlks n inst = b :: bs)
include hb

theorem State.testReq_off (hd : s.domOn (blkDom b) = false) : s.testReq n inst tag ctx = (s.testAsked n inst ctx).testEnd 5 0 := by
  have hd' : (s.testAsked n inst ctx).domOn (blkDom b) = false := hd
  simp only [State.testAsked] at hd'
  simp [State.testReq, h1, h2, hb, hd', State.testAsked]

section On
variable (hd : s.domOn (blkDom b) = true)
include hd

/-- A test on a block that is ON runs, waits for its harvest, or is refused. -/
theorem State.testReq_on : s.testReq n inst tag ctx =
    if s.testNow n (blkDom b) then (s.testAsked n inst ctx).testBegin
    else if tag && testTags n then { s with dev := { s.dev with test := { code := n, inst := inst, ctx := ctx, state := 1, tagged := true } } }
    else (s.testAsked n inst ctx).testEnd (if tag then 3 else 2) 0 := by
  have hd' : (s.testAsked n inst ctx).domOn (blkDom b) = true := hd
  have hn : (s.testAsked n inst ctx).testNow n (blkDom b) = s.testNow n (blkDom b) := rfl
  simp only [State.testAsked] at hd' hn
  simp [State.testReq, h1, h2, hb, hd', hn, State.testAsked]

end On
end Target
end Asked
end Request

/-- The state after a test: its blocks leave their test, with what the test leaves of them. -/
def State.testOver (s : State) (n inst : Nat) : State :=
  ((testBlks n inst).foldl (fun s b => s.setBlk b { s.blk b with testing := false }) s).testLeaves n inst

section Ends
variable {s : State}

theorem State.testDone_idle (h : s.dev.test.state ≠ 2) (pass : Bool) (elem : Nat) : s.testDone pass elem = s := by
  simp [State.testDone, h]

/-- A test that was not tagged to a harvest ends with its result, and a failure reports. -/
theorem State.testDone_ends (h : s.dev.test.state = 2) (ht : s.dev.test.tagged = false)
    (hu : (s.testOver s.dev.test.code s.dev.test.inst).uninjected = true) (pass : Bool) (elem : Nat) :
    s.testDone pass elem = if pass then (s.testOver s.dev.test.code s.dev.test.inst).testEnd 0 elem
      else ((s.testOver s.dev.test.code s.dev.test.inst).flag 0 10).testEnd 1 elem := by
  unfold State.testDone
  extract_lets t s1 s2
  have h2 : s2 = s.testOver s.dev.test.code s.dev.test.inst := rfl
  rw [if_neg (by simp [t, h]), h2]
  have hq := State.detect_quiet hu 0 10
  have hr := State.detect_real hu 0 10
  cases pass <;> simp [hq, hr, t, ht]

end Ends

/-- A request for test `n` is answered by the test that stands, its target, the state of its domain, its condition and its tag. -/
theorem selfTest_answers {s : State} {n inst ctx : Nat} {tag : Bool} {i : Instr} (he : exec i s = act s fun s => s.testReq n inst tag ctx) (halive : s.alive = true) :
    (s.dev.test.state = 1 ∨ s.dev.test.state = 2 → Answers i s { s with dev := { s.dev with test := { s.dev.test with status := 2 } } }) ∧
    (s.dev.test.state ≠ 1 → s.dev.test.state ≠ 2 →
      (testBlks n inst = [] → Answers i s ((s.testAsked n inst ctx).testEnd 5 0)) ∧
      (∀ b bs, testBlks n inst = b :: bs →
        (s.domOn (blkDom b) = false → Answers i s ((s.testAsked n inst ctx).testEnd 5 0)) ∧
        (s.domOn (blkDom b) = true → s.testNow n (blkDom b) = true → Answers i s (s.testAsked n inst ctx).testBegin) ∧
        (s.domOn (blkDom b) = true → s.testNow n (blkDom b) = false → tag = true → testTags n = true →
          Answers i s { s with dev := { s.dev with test := { code := n, inst := inst, ctx := ctx, state := 1, tagged := true } } }) ∧
        (s.domOn (blkDom b) = true → s.testNow n (blkDom b) = false → (tag = false ∨ testTags n = false) →
          Answers i s ((s.testAsked n inst ctx).testEnd (if tag then 3 else 2) 0)))) := by
  have req {t : State} (h : s.testReq n inst tag ctx = t) := answers_of he halive h
  refine ⟨fun h => req (State.testReq_busy h), fun h1 h2 => ⟨fun h => req (State.testReq_noTarget h1 h2 h), fun b bs hb =>
    ⟨fun hd => req (State.testReq_off h1 h2 hb hd), fun hd hn => req ?_, fun hd hn ht hg => req ?_, fun hd hn ht => req ?_⟩⟩⟩
  · rw [State.testReq_on h1 h2 hb hd, if_pos hn]
  · rw [State.testReq_on h1 h2 hb hd, hn, ht, hg] <;> rfl
  · rw [State.testReq_on h1 h2 hb hd, hn]
    rcases ht with ht | ht <;> simp [ht]

/-- Settles O51: a request is answered by the test that stands, its target, its domain, its condition and its tag, and a test that runs ends with its result. -/
theorem selfTestsRun : Obligations.SelfTestsRun := by
  intro s inst tag ctx pass elem halive hu t asks
  have done {r : State} (h : s.testDone pass elem.toNat = r) : Answers (.selftestDone pass elem) s r :=
    answers_of (f := fun s => s.testDone pass elem.toNat) rfl halive h
  refine ⟨?_, fun h2 ht => ⟨fun hr hp => done ?_, fun hr hp => done ?_⟩, fun h2 => done (State.testDone_idle h2 pass _)⟩
  · simp only [List.forall_mem_cons]
    exact ⟨selfTest_answers rfl halive, selfTest_answers rfl halive, selfTest_answers rfl halive, selfTest_answers rfl halive,
      selfTest_answers rfl halive, selfTest_answers rfl halive, selfTest_answers rfl halive, selfTest_answers rfl halive, by simp⟩
  · rw [State.testDone_ends h2 ht hr, if_pos hp] <;> rfl
  · rw [State.testDone_ends h2 ht hr, hp] <;> rfl

end Sys2Proof.Machine
end

section
/-!
SUPPORT. The event recorder (chapter 16): where a queued event is placed, and what the window shows; and from it the statement about it.
-/
namespace Sys2Proof.Machine

theorem exec_recLogWrite_eq (s : State) : exec .recLogWrite s = act s State.logWrite := rfl

theorem exec_recCursorWrite_eq (v : W64) (ce ue : Option (Fin 8)) (s : State) :
    exec (.recCursorWrite v ce ue) s = act s fun s => s.cursor v (ce.map Fin.val) (ue.map Fin.val) := rfl

/-! ## The place of a queued event (R351, R353) -/

section Place
variable {s : State} {e : Evt} {q : List Evt}

theorem State.logWrite_none (h : s.rcd.q = []) : s.logWrite = s := by
  simp [State.logWrite, h]

/-- The recorder once the oldest event has left its queue with its sequence number. -/
def Rec.taken (r : Rec) (q : List Evt) : Rec := { r with q := q, head := nextSeq r.head }

/-- The oldest event stands in slot `k`. -/
def State.logged (s : State) (e : Evt) (q : List Evt) (k : Nat) : State :=
  { s with rcd := { (s.rcd.taken q).keep k with log := s.rcd.log.set k (.entry (nextSeq s.rcd.head) e) } }

/-- The announcement of an event that has its sequence number. -/
def State.announce (s : State) (e : Evt) (seq : Nat) : State := (s.notify e seq).autoAck e

section Queued
variable (hq : s.rcd.q = e :: q)
include hq

theorem State.logWrite_free {k : Nat} (hf : freeSlot s.rcd.log 0 = some k) : s.logWrite = (s.logged e q k).announce e (nextSeq s.rcd.head) := by
  simp only [State.logWrite, hq, State.place, hf]
  rfl

theorem State.logWrite_over {k n v : Nat} (hf : freeSlot s.rcd.log 0 = none) (hv : victim s.rcd.log e.sev = some (k, n, v)) :
    s.logWrite = ((s.logged e q k).wrap (blkR 7 (0x0C0 + 8 * v)) 48 1).announce e (nextSeq s.rcd.head) := by
  simp only [State.logWrite, hq, State.place, hf, hv]
  rfl

theorem State.logWrite_dropped (hf : freeSlot s.rcd.log 0 = none) (hv : victim s.rcd.log e.sev = none) :
    s.logWrite = (({ s with rcd := s.rcd.taken q } : State).sat (blkR 7 (0x080 + 8 * e.sev)) 0 32 1).announce e (nextSeq s.rcd.head) := by
  simp only [State.logWrite, hq, State.place, hf, hv]
  rfl

end Queued
end Place

/-! ## The window (R354, R356) -/

theorem slotWords_length (x : Option Slot) : ∃ a b c d, slotWords x = [a, b, c, d] := by
  rcases x with _ | ⟨n, e⟩ | _ <;> exact ⟨_, _, _, _, rfl⟩

/-- Slot `8k + j` in its four words of the window. -/
def State.latchOne (s : State) (k j : Nat) : State :=
  ((slotWords (s.rcd.before (8 * k + j))).zip (List.range 4)).foldl (fun s w => s.setRg (blkR 7 (0x100 + 32 * j + 8 * w.2)) w.1) s

theorem State.latchOne_rcd (s : State) (k j : Nat) : (s.latchOne k j).rcd = s.rcd := by
  refine (foldl_keeps State.rcd _ ?_ _ _)
  exact fun _ _ => rfl

/-- The register of word `w` of slot `i` of the window. -/
theorem State.latchOne_rg (s : State) (k j i w : Nat) (hw : w < 4) :
    (s.latchOne k j).rg (blkR 7 (0x100 + 32 * i + 8 * w)) =
      if i = j then (slotWords (s.rcd.before (8 * k + j))).getD w 0 else s.rg (blkR 7 (0x100 + 32 * i + 8 * w)) := by
  obtain ⟨a, b, c, d, hs⟩ := slotWords_length (s.rcd.before (8 * k + j))
  have same (x : Nat) (hx : x < 4) : blkR 7 (0x100 + 32 * i + 8 * w) = blkR 7 (0x100 + 32 * j + 8 * x) ↔ i = j ∧ w = x := by
    simp only [blkR]; omega
  have hr : List.range 4 = [0, 1, 2, 3] := rfl
  simp only [State.latchOne, hs, hr, List.zip_cons_cons, List.zip_nil_right, List.foldl_cons, List.foldl_nil, State.setRg_rg,
    same 0 (by omega), same 1 (by omega), same 2 (by omega), same 3 (by omega)]
  by_cases hij : i = j
  · interval_cases w <;> simp [hij]
  · simp [hij]

/-- The first `n` slots of the window, copied one after another. -/
theorem State.latch_fold (s : State) (k n : Nat) :
    ((List.range n).foldl (fun s j => s.latchOne k j) s).rcd = s.rcd ∧
    ∀ i w, i < n → w < 4 → ((List.range n).foldl (fun s j => s.latchOne k j) s).rg (blkR 7 (0x100 + 32 * i + 8 * w)) =
      (slotWords (s.rcd.before (8 * k + i))).getD w 0 := by
  induction n with
  | zero => exact ⟨rfl, fun i w hi => absurd hi (Nat.not_lt_zero i)⟩
  | succ n ih =>
    obtain ⟨hrcd, hrg⟩ := ih
    rw [List.range_succ, List.foldl_append, List.foldl_cons, List.foldl_nil]
    refine ⟨(State.latchOne_rcd _ k n).trans hrcd, fun i w hi hw => ?_⟩
    rw [State.latchOne_rg _ _ _ _ _ hw, hrcd]
    by_cases hin : i = n
    · rw [if_pos hin, hin]
    · rw [if_neg hin, hrg i w (by omega) hw]

theorem State.latch_rg (s : State) (k : Nat) {i w : Nat} (hi : i < 8) (hw : w < 4) :
    (s.latch k).rg (blkR 7 (0x100 + 32 * i + 8 * w)) = (slotWords (s.rcd.before (8 * k + i))).getD w 0 :=
  (s.latch_fold k 8).2 i w hi hw

/-- The cursor takes its bits. -/
def State.cursorSet (s : State) (v : W64) : State := s.setRg (blkR 7 0x048) (v &&& 0xFFF8)

/-- A corrected slot of the window reports. -/
def State.cursorSeen (s : State) (v : W64) (ce : Bool) : State := if ce then (s.cursorSet v).flag 7 0 else s.cursorSet v

/-- The cursor sees what the reads of the window report, and then copies it. -/
theorem State.cursor_eq (s : State) (v : W64) (ce ue : Option Nat) :
    let seen := ((s.cursorSet v).detect 7 0 ce.isSome).2.detect 7 1 ue.isSome
    s.cursor v ce ue = (if seen.1 then seen.2.loseSlot (8 * v.fld 3 13 + ue.getD 0) else seen.2).latch (v.fld 3 13) := rfl

section Cursor
variable {s : State} (hu : s.uninjected = true) (v : W64) (ce : Option Nat)
include hu

theorem State.detect_corrected : ((s.cursorSet v).detect 7 0 ce.isSome).2 = s.cursorSeen v ce.isSome := by
  have hq := State.detect_quiet (s := s.cursorSet v) hu 7 0 {}
  have hr := State.detect_real (s := s.cursorSet v) hu 7 0 {}
  cases hc : ce.isSome
  · rw [hq]; rfl
  · rw [hr]; rfl

theorem State.cursorSeen_uninjected (c : Bool) : (s.cursorSeen v c).uninjected = true := by
  cases c
  · exact hu
  · exact State.flag_uninjected (s.cursorSet v) hu 7 0 {}

theorem State.cursor_readable : s.cursor v ce none = (s.cursorSeen v ce.isSome).latch (v.fld 3 13) := by
  rw [State.cursor_eq, State.detect_corrected hu, Option.isSome_none, State.detect_quiet (State.cursorSeen_uninjected hu v _)]
  rfl

theorem State.cursor_lost (j : Nat) :
    s.cursor v ce (some j) = (((s.cursorSeen v ce.isSome).flag 7 1).loseSlot (8 * v.fld 3 13 + j)).latch (v.fld 3 13) := by
  rw [State.cursor_eq, State.detect_corrected hu, Option.isSome_some, State.detect_real (State.cursorSeen_uninjected hu v _)]
  rfl

end Cursor

/-- Settles O52: a queued event goes where the log has its place, and the window shows the words of the eight slots that the cursor names. -/
theorem recorderPlacesEvents : Obligations.RecorderPlacesEvents := by
  refine ⟨fun s halive => ?_, fun s v ce ue halive hu => ?_⟩
  · intro runs
    have run {t : State} (h : s.logWrite = t) : runs t :=
      ⟨(answers_of (exec_recLogWrite_eq s) halive h).1, answers_of (exec_recLogWrite_eq s) halive h⟩
    refine ⟨fun h => run (State.logWrite_none h), fun e q hq => ?_⟩
    intro seq r into ends
    refine ⟨fun k hf => ⟨fun hrise hlow => ?_, run (State.logWrite_free hq hf)⟩, fun k n v hf hv => run (State.logWrite_over hq hf hv),
      fun hf hv => run (State.logWrite_dropped hq hf hv)⟩
    obtain ⟨hk, -, hnone, hfull⟩ := freeSlot_first s.rcd.log 0 k hf hrise (fun _ _ => Nat.zero_le _) hlow
    exact ⟨hk, hnone, fun j hj => hfull j (Nat.zero_le j) hj⟩
  · intro k c c1 c2
    have hc : s.cursor v (ce.map Fin.val) (ue.map Fin.val) = c2.latch k := by
      have h1 : s.cursorSeen v (ce.map Fin.val).isSome = c1 := by cases ce <;> rfl
      cases ue with
      | none => exact (State.cursor_readable hu v _).trans (by rw [h1])
      | some j => exact (State.cursor_lost hu v _ j).trans (by rw [h1])
    have ha := answers_of (exec_recCursorWrite_eq v ce ue s) halive hc
    exact ⟨ha.1, ha, fun u i w hi hw => u.latch_rg k hi hw⟩

end Sys2Proof.Machine
end

section
/-!
SUPPORT. Boot, debug, the host's links and telemetry (chapters 15, 17 and 18), and the accesses of BAR2 (R361 to R364); and from it the statements about them.
-/
namespace Sys2Proof.Machine

/-! ## What each command acts with -/

theorem exec_bootGo_eq (s : State) : exec .bootGo s = act s State.bootGo := rfl

theorem exec_romFlashReadDone_eq (s : State) : exec .romFlashReadDone s = act s State.romFlash := rfl

theorem exec_bootReboot_eq (s : State) : exec .bootReboot s = act s State.reboot := rfl

theorem exec_debugExpiry_eq (s : State) : exec .debugExpiry s = act s State.debugExpiry := rfl

theorem exec_mbOutAck_eq (s : State) : exec .mbOutAck s = act s State.mbAck := rfl

theorem exec_pcieLinkDown_eq (s : State) : exec .pcieLinkDown s = act s fun s => if s.hostUp then s.pcieDown else s := rfl

theorem exec_pcieLinkUp_eq (width : Fin 8) (rate : Fin 16) (s : State) : exec (.pcieLinkUp width rate) s = act s fun s => s.pcieUp width rate := rfl

theorem exec_pkgLinkDown_eq (t : Fin 8) (s : State) : exec (.pkgLinkDown t) s = act s fun s => if (s.tile t).linkUp then s.pkgDown t else s := rfl

theorem exec_keyParity_eq (s : State) : exec .keyParity s = act s fun s => s.keyParity := rfl

theorem exec_i3cTelemetry_eq (acked : Bool) (s : State) : exec (.i3cTelemetry acked) s = act s fun s => s.telemetry acked := rfl

theorem exec_bar2Access_eq (off : Nat) (op : HostOp) (ups : Upsets) (s : State) :
    exec (.bar2Access off op ups) s = act s fun s => (s.upset ups).bar2 off op := rfl

/-! ## Boot (R366, R367) -/

section Boot
variable {s : State}

theorem State.bootGo_elsewhere (h : s.hst.boot ≠ 2) : s.bootGo = s := by
  simp [State.bootGo, h]

/-- The image that the host staged. -/
def State.hostImage (s : State) : List Byte := s.staged (min ((s.rg (blkR 8 0x070)).fld 0 23) 6291456)

/-- What R367 answers to the image that the host staged. -/
def State.hostCheck (s : State) : Nat :=
  fwCheck s.hostImage ((s.rg (blkR 8 0x070)).fld 0 23) (s.bootState 1).svnMin (s.bootState 1).hst.fwKey true

section Waiting
variable (h : s.hst.boot = 2)
include h

theorem State.bootGo_starts (hc : s.hostCheck = 0) : s.bootGo = (s.bootState 1).osauxStart s.hostImage true := by
  simp only [State.hostCheck, State.hostImage] at hc
  simp only [State.bootGo, if_pos h, hc, State.hostImage]

theorem State.bootGo_rejects {n : Nat} (hc : s.hostCheck = n + 1) : s.bootGo = ((s.bootState 1).fwReject (n + 1) true).bootState 2 := by
  simp only [State.hostCheck, State.hostImage] at hc
  simp only [State.bootGo, if_pos h, hc]

end Waiting

/-- The ROM has read the flash, and verifies what it read. -/
def State.flashRead (s : State) : State := (s.stagingWrite 0 s.hst.flash.fw).bootState 1

/-- What R367 answers to the image in the flash. -/
def State.flashCheck (s : State) : Nat :=
  fwCheck s.hst.flash.fw (u s.hst.flash.fw 8 4) s.flashRead.svnMin s.flashRead.hst.fwKey true

section Reading
variable (h : s.hst.boot = 0) (ho : s.dev.osaux = false) (hb : (s.rg (blkR 8 0x068)).bit 0 = false)
include h ho hb

theorem State.romFlash_starts (hc : s.flashCheck = 0) : s.romFlash = s.flashRead.osauxStart s.hst.flash.fw false := by
  simp only [State.flashCheck, State.flashRead] at hc
  have hr : (decide (s.hst.boot = 0) && !s.dev.osaux && !(s.rg (blkR 8 0x068)).bit 0) = true := by simp [h, ho, hb]
  simp only [State.romFlash, if_pos hr, hc, State.flashRead]

theorem State.romFlash_rejects {n : Nat} (hc : s.flashCheck = n + 1) : s.romFlash = (s.flashRead.fwReject (n + 1) false).bootState 2 := by
  simp only [State.flashCheck, State.flashRead] at hc
  have hr : (decide (s.hst.boot = 0) && !s.dev.osaux && !(s.rg (blkR 8 0x068)).bit 0) = true := by simp [h, ho, hb]
  simp only [State.romFlash, if_pos hr, hc, State.flashRead]

end Reading

theorem State.reboot_busy (h : s.quiescent = false) : s.reboot = s := by
  simp [State.reboot, h]

theorem State.reboot_restarts (h : s.quiescent = true) (hl : s.dropImage.ld.state ≠ 4) :
    s.reboot = ({ s.dropImage with hst := { s.dropImage.hst with plan := none } } : State).romRun true := by
  simp [State.reboot, h, hl]

end Boot

/-! ## The links of the host and of the package -/

section Links
variable {s : State}

theorem State.mbAck_eq : s.mbAck = if s.hst.mbPlaced then ({ s with hst := { s.hst with mbPlaced := false } } : State).placeOut else s := rfl

theorem State.debugExpiry_eq : s.debugExpiry = if s.hst.debug then s.debugOff else s := rfl

/-- The widths of Table 17-7. -/
theorem width_listed : ∀ width : Fin 8, [1, 2, 4].contains width.val = true ↔ width ∈ [1, 2, 4] := by decide

theorem State.pcieUp_trains {width : Fin 8} {rate : Fin 16} (hw : width ∈ [1, 2, 4]) (h1 : 1 ≤ rate.val) (h7 : rate.val ≤ 7) :
    s.pcieUp width rate =
      (({ s with pins := { s.pins with perst := false } } : State).setRg (blkR 8 0x048) (put 8 1 ||| put 4 width ||| put 0 rate)).pllLock 16 := by
  have hc : [1, 2, 4].contains width.val = true := (width_listed width).2 hw
  unfold State.pcieUp
  rw [if_neg (by simp only [hc, decide_eq_true h1, decide_eq_true h7]; decide)]
  rfl

theorem State.pcieUp_refused {width : Fin 8} {rate : Fin 16} (h : width ∉ [1, 2, 4] ∨ rate.val = 0 ∨ 7 < rate.val) : s.pcieUp width rate = s := by
  refine if_pos ?_
  rw [Bool.not_eq_true', Bool.and_eq_false_iff, Bool.and_eq_false_iff, decide_eq_false_iff_not, decide_eq_false_iff_not]
  rcases h with h | h | h
  · exact .inl (.inl (Bool.eq_false_iff.2 (mt (width_listed width).1 h)))
  · exact .inl (.inr (by omega))
  · exact .inr (by omega)

theorem State.pkgDown_eq (t : Nat) (h : s.domOn (20 + t) = true) : s.pkgDown t = (s.modTile t fun x => { x with linkUp := false }).flag (tileBlk t) 5 :=
  if_pos h

theorem State.keyParity_eq (h : s.up 9 = true) : s.keyParity = s.flag 9 1 := if_pos h

end Links

/-! ## Telemetry (R378) -/

/-- The five writes of telemetry. -/
def State.telemetrySent (s : State) : State :=
  let w := s.rg (blkR 2 0x060)
  [(0x79, s.statusWord), (0x88, linear11 (w.fld 0 16) 100), (0x89, linear11 (w.fld 16 16) 10),
    (0x8D, linear11 ((s.rg (blkR 2 0x070)).fld 0 8) 1), (0x97, linear11 (w.fld 32 16) 1)].foldl
    (fun s (x : Nat × Nat) => s.emit (.i3c x.1 x.2)) s

/-- The five writes that the BMC did not acknowledge count. -/
def State.telemetryLost (r : State) : State :=
  r.setRg (blkR 8 0x0B0)
    (BitVec.ofNat 64 ((r.rg (blkR 8 0x0B0)).toNat - (r.rg (blkR 8 0x0B0)).toNat % 65536 + wrapAdd 16 ((r.rg (blkR 8 0x0B0)).toNat % 65536) 5))

theorem State.telemetry_asleep {s : State} (h : s.dev.osaux = false) (acked : Bool) : s.telemetry acked = s := by
  simp [State.telemetry, h]

theorem State.telemetry_sends {s : State} (h : s.dev.osaux = true) (acked : Bool) :
    s.telemetry acked = if acked then s.telemetrySent.bmcSeen else s.telemetrySent.telemetryLost :=
  if_neg (by simp [h])

/-- Settles O55: the ROM starts what R367 accepts and waits for the host otherwise, and each link, message and write acts where it stands. -/
theorem bootDebugAndLinks : Obligations.BootDebugAndLinks := by
  intro s t width rate halive hu len img fl v x
  have go {r : State} (h : s.bootGo = r) := answers_of (exec_bootGo_eq s) halive h
  have rom {r : State} (h : s.romFlash = r) := answers_of (exec_romFlashReadDone_eq s) halive h
  have reboot {r : State} (h : s.reboot = r) := answers_of (exec_bootReboot_eq s) halive h
  have expiry {r : State} (h : s.debugExpiry = r) := answers_of (exec_debugExpiry_eq s) halive h
  have ack {r : State} (h : s.mbAck = r) := answers_of (exec_mbOutAck_eq s) halive h
  have down {r : State} (h : (if s.hostUp then s.pcieDown else s) = r) := answers_of (exec_pcieLinkDown_eq s) halive h
  have up {r : State} (h : s.pcieUp width rate = r) := answers_of (exec_pcieLinkUp_eq width rate s) halive h
  have pkg {r : State} (h : (if (s.tile t).linkUp then s.pkgDown t else s) = r) := answers_of (exec_pkgLinkDown_eq t s) halive h
  have key {r : State} (h : s.keyParity = r) := answers_of (exec_keyParity_eq s) halive h
  have tele (acked : Bool) {r : State} (h : s.telemetry acked = r) := answers_of (exec_i3cTelemetry_eq acked s) halive h
  exact ⟨fun h => ⟨fun hc => go (State.bootGo_starts h hc), fun n hc => go (State.bootGo_rejects h hc)⟩, fun h => go (State.bootGo_elsewhere h),
    fun h ho hb => ⟨fun hc => rom (State.romFlash_starts h ho hb hc), fun n hc => rom (State.romFlash_rejects h ho hb hc)⟩,
    fun h => reboot (State.reboot_busy h), fun h _ hl => reboot (State.reboot_restarts h hl),
    fun h => expiry (if_pos h), fun h => expiry (if_neg (by simp [h])), fun h => ack (if_pos h), fun h => ack (if_neg (by simp [h])),
    fun h => down (if_pos h), fun h => down (if_neg (by simp [h])),
    fun hw h1 h7 => up (State.pcieUp_trains hw h1 h7), fun h => up (State.pcieUp_refused h),
    fun hl hd => pkg ((if_pos hl).trans (State.pkgDown_eq t hd)), fun hl => pkg (if_neg (by simp [hl])),
    fun h => key (State.keyParity_eq h), fun h acked => tele acked (State.telemetry_asleep h acked),
    fun h => ⟨tele true (State.telemetry_sends h true), tele false (State.telemetry_sends h false)⟩⟩

/-! ## BAR2 (R361 to R364) -/

section Bar2
variable {s : State} {off : Nat}

theorem State.upset_hostReaches (s : State) (ups : Upsets) : (s.upset ups).hostReaches = s.hostReaches :=
  State.upset_keeps State.hostReaches (fun _ _ => rfl) s ups

theorem State.bar2_unreached (h : s.hostReaches = false) (op : HostOp) : s.bar2 off op = s := by
  simp [State.bar2, h]

section Reached
variable {r : State} (h : s.hostReaches = true)
include h

theorem State.bar2_failed (ht : s.hostTlp = (false, r)) (op : HostOp) : s.bar2 off op = if opWrites op then r else r.emit (.bar2 off none) := by
  simp [State.bar2, h, ht]

theorem State.bar2_staging_write (ht : s.hostTlp = (true, r)) (hb : r.hst.boot < 3) (bs : List Byte) :
    s.bar2 off (.write bs) = (r.progress 8).stagingWrite off bs := by
  simp [State.bar2, h, ht, hb]

theorem State.bar2_staging_read (ht : s.hostTlp = (true, r)) (hb : r.hst.boot < 3) (n : Nat) :
    s.bar2 off (.read n) = (r.progress 8).emit (.bar2 off (some (r.stagingRead off n))) := by
  simp [State.bar2, h, ht, hb]

theorem State.bar2_window (ht : s.hostTlp = (true, r)) (hb : 3 ≤ r.hst.boot) {op : HostOp} (hn : opSize op ≠ 0) :
    s.bar2 off op = r.windowAccess off op := by
  simp [State.bar2, h, ht, Nat.not_lt.2 hb, hn]

end Reached
end Bar2

/-- The staging SRAM takes the bytes of a write that fall in it, and no other. -/
theorem State.stagingWrite_byte (s : State) (off : Nat) (bs : List Byte) (a : Nat) :
    (s.stagingWrite off bs).hst.staging.get 0 a =
      if off ≤ a ∧ a < off + bs.length ∧ a < stagingSize then bs.getD (a - off) 0 else s.hst.staging.get 0 a := by
  have h := State.stagingWrite_get off bs 0 s a
  simpa only [State.stagingWrite, List.range_eq_range', Nat.add_zero, Nat.sub_zero] using h

theorem State.stagingRead_one (s : State) (a : Nat) : s.stagingRead a 1 = [if a < stagingSize then s.hst.staging.get 0 a else 0] := by
  simp [State.stagingRead, List.range_succ]

/-- A byte written within the staging SRAM is read back. -/
theorem State.stagingRead_written (s : State) (off : Nat) (bs : List Byte) {k : Nat} (h : k < bs.length) (hk : off + k < stagingSize) :
    (s.stagingWrite off bs).stagingRead (off + k) 1 = [bs[k]] := by
  rw [State.stagingRead_one, if_pos hk, State.stagingWrite_byte, if_pos (by omega)]
  simp [List.getD_eq_getElem?_getD, h]

/-- A byte outside a write reads as before it. -/
theorem State.stagingRead_other (s : State) (off : Nat) (bs : List Byte) {a : Nat} (h : a < off ∨ off + bs.length ≤ a) :
    (s.stagingWrite off bs).stagingRead a 1 = s.stagingRead a 1 := by
  have hout : ¬(off ≤ a ∧ a < off + bs.length ∧ a < stagingSize) := by omega
  rw [State.stagingRead_one, State.stagingRead_one, State.stagingWrite_byte, if_neg hout]

/-- Settles O56: an access is dropped, refused, served by the staging SRAM or passed to the window by the link, its check and the boot, and the staging SRAM holds what was
written. -/
theorem hostWindowAccesses : Obligations.HostWindowAccesses := by
  intro s off n bs ups halive x
  have bar (op : HostOp) {r : State} (h : x.bar2 off op = r) := answers_of (exec_bar2Access_eq off op ups s) halive h
  have reach {v : Bool} (h : s.hostReaches = v) : x.hostReaches = v := (s.upset_hostReaches ups).trans h
  exact ⟨fun h op => bar op (State.bar2_unreached (reach h) op),
    fun r h ht => ⟨bar _ (State.bar2_failed (reach h) ht (.write bs)), bar _ (State.bar2_failed (reach h) ht (.read n))⟩,
    fun r h ht => ⟨fun hb => ⟨bar _ (State.bar2_staging_write (reach h) ht hb bs), bar _ (State.bar2_staging_read (reach h) ht hb n)⟩,
      fun hb hn => bar _ (State.bar2_window (reach h) ht hb (op := .read n) (Nat.pos_iff_ne_zero.1 hn)),
      fun hb hn => bar _ (State.bar2_window (reach h) ht hb (op := .write bs) (mt List.length_eq_zero_iff.1 hn))⟩,
    fun k h hk => s.stagingRead_written off bs h hk, fun a ha => s.stagingRead_other off bs ha⟩

end Sys2Proof.Machine
end
